-- ==== Sys2Proof/Word.lean ====
section
/-! DEFINITION. The words of the ZQ-A512 model: 64-bit registers and bytes, sparse maps in one canonical form,
and the vocabulary of register set-outs (R7, R12, R13). -/

namespace Sys2Proof

/-- A 64-bit word: a register, an angle word, a card half (R7). -/
abbrev W64 := BitVec 64

/-- A byte of memory or of a record (R8). -/
abbrev Byte := BitVec 8

/-- The bits of an FP32 value. -/
abbrev F32 := BitVec 32

/-- Bytes in ascending offset order (R8: offset 0 holds the lowest bits). -/
abbrev Bytes := List Byte

/-- A sparse map: pairs of a key and a value, keys strictly rising, no value equal to the default. -/
abbrev SMap (α : Type) := List (Nat × α)

/-- The access codes of Table 0.5 (R12). -/
inductive Acc where
  | ro | rw | w1c | w1s | rc | wl
  deriving DecidableEq, Repr

/-- A field of a register word: its bits, its access code, its reset entry (IMAGE: the factory default). -/
structure FieldDesc where
  hi : Nat
  lo : Nat
  acc : Acc
  dflt : Nat
  deriving DecidableEq, Repr

/-- A register word of a set-out: its base offset, its index ranges (count, stride), its fields. -/
structure RegWord where
  base : Nat
  dims : List (Nat × Nat)
  fields : List FieldDesc
  deriving DecidableEq, Repr

/-- A named field of one register: the register's offset and the field's bits [hi:lo] (R7). -/
structure Fld where
  off : Nat
  hi : Nat
  lo : Nat
  deriving DecidableEq, Repr

end Sys2Proof
end

