-- ==== Sys2Proof/Syntax.lean ====
section
/-! DEFINITION. The commands of the engine: one constructor per row of spec/opcode_table.json, in its order.
A command is a bus or port event, a register command, or a step the engine takes by itself; its operands are what
the outside world supplies (words, readings, messages, answers) and which unit the step concerns. -/

namespace Sys2Proof

/-- Who dispatches the order that an order row takes: the card fired first and not yet dispatched (R41, R48), or the
management mailbox (R55). The order in the descriptor of a bolt is dispatched as its part is taken (R66). -/
inductive Via where
  | card
  | mailbox
  deriving DecidableEq, Repr

/-- Another order that reaches the same object in the same SCLK cycle (R51): the master of a contradicting one (Table 2.10;
`fault` is the fault action of R53), or `same`: an identical order of another master, which has taken effect already. -/
inductive Rival where
  | pm | bd | mbox | card | weft | fault | same
  deriving DecidableEq, Repr

/-- The dispatch of an order of Table 2.7: by whom, and another order of the same cycle and object, if any (R51). -/
structure Order where
  via : Via
  rival : Option Rival
  deriving DecidableEq, Repr

/-- A message of the Shed Exchange as it arrives from the Fabric port: header, ciphertext, tag (R290). -/
structure Msg where
  header : List Byte
  body : List Byte
  tag : List Byte
  deriving DecidableEq, Repr

/-- A counted change of a discrete input: its new level, and whether an edge closer than 8 SCLK cycles came
before it (R383). -/
structure Level where
  high : Bool
  chatter : Nat
  deriving DecidableEq, Repr

/-- What the boot steps find in the world: the flash answers of R391 to discovery. -/
structure FlashFound where
  jedec : Nat
  sfdp : Bool
  densityKib : Nat
  quad : Bool
  qer : Nat
  answers : Bool
  deriving DecidableEq, Repr

/-- One command of the engine. -/
inductive Instr where
  -- Loom Sequencer (chapter 2)
  | angleWord (w : W64)
  | angleClassify
  | boundaryComplete
  | angleWatchdogExpiry
  | rebase
  | cardCommit
  | nop (o : Order)
  | prefetchSet (o : Order)
  | releaseSet (o : Order)
  | commitVersion (o : Order)
  | beginReshard (o : Order)
  | setExchangeDeadline (o : Order)
  | rampHarness (o : Order) (rivalMask : BitVec 8)
  | drainTally (o : Order)
  | snapshotCounters (o : Order)
  -- Weft port (chapter 3)
  | boltPart (link : Fin 8) (desc : List W64) (discarded : Bool) (rival : Option Rival) (rivalMask : BitVec 8)
  | rowRecord (link : Fin 8) (meta0 meta1 : W64) (payload : List Byte)
  | desyncGapEnd (link : Fin 8)
  | crcRetry (link : Fin 8) (passed : Bool)
  -- Shuttle, cores, Reed Network (chapters 4 to 6)
  | groupingWindowClose (bolt : BitVec 32)
  | turnPlace (h : Fin 8)
  | pickEnqueue (h : Fin 8) (c : Fin 66)
  | rowStageCopy (h : Fin 8)
  | blockIssue (h : Fin 8) (c : Fin 66)
  | load (h : Fin 8) (c : Fin 66)
  | swap (h : Fin 8) (c : Fin 66)
  | drain (h : Fin 8) (c : Fin 66)
  | coreGate (h : Fin 8) (c : Fin 66)
  | coreRamp (h : Fin 8) (c : Fin 66)
  | sprintHoldExpiry
  | strandCombine (h : Fin 8)
  | longSumFinish (adapter : BitVec 16) (layer : BitVec 10) (proj : BitVec 4) (isB : Bool)
  -- Spindle (chapters 7 and 8)
  | spindleInstanceStart (h : Fin 8)
  | spindleVector (h : Fin 8) (mismatch : Bool)
  | spindleTail (h : Fin 8) (mismatch : Bool)
  | normAndScalars (adapter : BitVec 16)
  | spindleParityError (h : Fin 8) (block : Fin 8) (inSlot : Bool)
  | svMapWrite (h : Fin 8) (k : Fin 8) (v : W64)
  | svProgWrite (h : Fin 8) (slot : Fin 32) (word : Fin 64) (v : W64)
  | spindleResume (h : Fin 8)
  -- Skein Table Unit (chapter 9)
  | dirWrite (adapter : BitVec 16)
  | dirRead (adapter : BitVec 16)
  | dirInvalidate (adapter : BitVec 16)
  | dirUpdate (adapter : BitVec 16)
  | dirSetPending (adapter : BitVec 16)
  | deferredRegisterWrite (off : BitVec 26) (v : W64)
  | tableDefine (k : Fin 64) (word : Fin 8) (v : W64)
  | replaceRow (table : Fin 64) (row : BitVec 32)
  | clearRow (table : Fin 64) (row : BitVec 32)
  -- Tier Manager (chapter 10)
  | tileFillIssue (unit : Fin 9)
  | tileFillComplete (unit : Fin 9) (hostBytes : List Host.Cell)
  | writeBackComplete (unit : Fin 9)
  | engineWriteLand
  | tierErrorResponse (unit : Fin 9)
  | tierTimeout (unit : Fin 9)
  | pageTableCopyComplete
  | regionWrite (k : Fin 64) (word : Fin 4) (v : W64)
  | flashNsWrite (j : Fin 8) (word : Fin 2) (v : W64)
  | flush (count : BitVec 32)
  | evict (count : BitVec 32) (rival : Option Rival)
  | pageInvalidate (count : BitVec 32) (rival : Option Rival)
  | pin (count : BitVec 32) (rival : Option Rival)
  | unpin (count : BitVec 32)
  | restore (count : BitVec 32)
  | zero (count : BitVec 32)
  | copy (count : BitVec 32)
  | read64
  | write64
  | clearPoison (count : BitVec 32)
  | returnUnit
  -- Shed Exchange (chapter 11)
  | roundDeadlineExpiry
  | requestMessage (m : Msg)
  | responseMessage (m : Msg)
  | gradientMessage (m : Msg)
  | normMessage (m : Msg)
  | gatherMessage (m : Msg)
  | moveMessage (m : Msg)
  | messageDelivered (id : Nat)
  | messageUndeliverable (id : Nat)
  | peerTimeout (id : Nat)
  | reshardAbort (rival : Option Rival)
  | sxNodeWrite (v : W64)
  | sxEpochWrite (v : W64)
  -- Selvedge Security Unit (chapter 13)
  | loadPlain (kind : BitVec 2) (slot : BitVec 12)
  | loadWrapped (kind : BitVec 2) (slot : BitVec 12)
  | erase (kind : BitVec 2) (slot : BitVec 12)
  | eraseAll
  | keyEraseRelease
  | regionKeyWrite (k : Fin 64) (v : W64)
  | provBufWrite (word : Fin 10) (v : W64)
  | lifecycleBurn (target : BitVec 3)
  | debugLevelRequest (level : BitVec 2)
  | unlockNew (purpose : BitVec 8) (nonce : BitVec 256)
  | unlockGo
  | unlockVerifyDone
  | grantErase
  | grantComplete
  -- Custody Unit (chapter 14)
  | coreParityError (h : Fin 8) (c : Fin 66) (store : Fin 5) (unit : BitVec 6)
  | blockTimeout (h : Fin 8) (c : Fin 66)
  | replayEccError (h : Fin 8) (bolt : BitVec 32) (row : BitVec 21) (staged : Bool)
  | bobbinEccError (h : Fin 8) (tile : Nat)
  | internalError (subsystem : BitVec 4)
  | retireCore (h : Fin 8) (c : Fin 66) (rival : Option Rival)
  | retireHarness (h : Fin 8)
  | returnCore (h : Fin 8) (c : Fin 66) (rival : Option Rival)
  | proofPickEnd (h : Fin 8) (signature : BitVec 32) (markersOk parityOk : Bool)
  | faultTailWrite (v : W64)
  | tallyRingWrite (v : W64)
  | tallyDrain
  | tallyEntryWrite
  -- Power and Clock Manager (chapter 15)
  | powerHold (rival : Option Rival)
  | powerRun (rival : Option Rival)
  | holdReached
  | holdExitComplete (failedStacks : BitVec 4)
  | idleEntry
  | grantWindow
  | sensorSample (readings : List (BitVec 16))
  | critHoldExpiry
  | powerEstimate (watts : Nat)
  | supplyLow (rail : Bool) (mv : BitVec 16)
  | supplyRecovered
  | railLoss
  | refclkLoss
  | zqResetN (l : Level)
  | zqPwrok (l : Level)
  | zqThrottle (l : Level)
  | throttleStuck
  | zqWake (l : Level)
  -- Boot and Debug Module (chapters 16 and 17)
  | resetRelease (f : FlashFound)
  | imageCheck
  | bootComplete (probeFails : List Nat) (spindleFails : BitVec 32) (bootUs : BitVec 32)
  | flashRead
  | erase4k
  | program
  | flashCommandDone (timedOut : Bool)
  | idcode
  | bypass
  | treadle
  | treadleRead (off : BitVec 26)
  | treadleWrite (off : BitVec 26) (v : W64)
  | treadleNop
  | halt (scope : BitVec 2) (h : Fin 8) (c : BitVec 7)
  | haltTakesHold
  | resume (scope : BitVec 2) (h : Fin 8) (c : BitVec 7)
  | step (scope : BitVec 2) (h : Fin 8) (c : BitVec 7)
  | debugMemRead
  | debugMemWrite
  | xtrigIn
  | xtrigPulseEnd
  -- Weft egress and completions, register port, power-up (chapters 3, 15, 18)
  | egressRecordEmit (link : Fin 8)
  | completionEmit (bolt : BitVec 32)
  | completionAccepted (bolt : BitVec 32)
  | irqDoneHoldoff
  | cplPendingRead
  | rcRead (off : Nat) (size : Nat)
  | registerWrite (off : Nat) (size : Nat) (v : W64)
  | powerUp
  | holdExitBegin
  | queuePairBind (q : Fin 8) (bound : Bool)
  deriving DecidableEq, Repr

end Sys2Proof
end

