-- ==== Sys2Proof/Decode.lean ====
section
/-! DEFINITION. The command that a word spells: no row of the opcode table gives bits, so none. -/

namespace Sys2Proof

/-- The table gives its rows no bits: no word spells a command. -/
def decodeTableWord (_nbits _w : Nat) : Option Instr := none

end Sys2Proof
end

