-- ==== Sys2Proof/Machine/Maps.lean ====
section
/-! DEFINITION. Sparse maps in canonical form: find, put (putting the default removes the entry), delete, byte runs,
and small list and number helpers used everywhere. -/

namespace Sys2Proof.Machine

/-- The listed value at a key. -/
def mapFind {α : Type} : SMap α → Nat → Option α
  | [], _ => none
  | (k, v) :: t, i => if i = k then some v else mapFind t i

/-- The value at a key: the default where none is listed. -/
def mapGet {α : Type} (d : α) (m : SMap α) (i : Nat) : α := (mapFind m i).getD d

/-- List a value at a key. -/
def mapIns {α : Type} : SMap α → Nat → α → SMap α
  | [], i, v => [(i, v)]
  | (k, w) :: t, i, v =>
    if i = k then (k, v) :: t else if i < k then (i, v) :: (k, w) :: t else (k, w) :: mapIns t i v

/-- Remove a key. -/
def mapDel {α : Type} (m : SMap α) (i : Nat) : SMap α := m.filter (fun p => p.1 != i)

/-- Write a value at a key, keeping the canonical form for the default. -/
def mapPut {α : Type} [DecidableEq α] (d : α) (m : SMap α) (i : Nat) (v : α) : SMap α :=
  if v = d then mapDel m i else mapIns m i v

/-- Every key is above `lo`, keys rise strictly, no value is `d i` at its key. -/
def mapWfFrom {α : Type} [DecidableEq α] (d : Nat → α) : Nat → SMap α → Bool
  | _, [] => true
  | lo, (k, v) :: t => decide (lo ≤ k) && !decide (v = d k) && mapWfFrom d (k + 1) t

/-- The canonical form (keys strictly rising, no entry equal to what an unlisted key reads as). -/
def mapWf {α : Type} [DecidableEq α] (d : Nat → α) (m : SMap α) : Bool := mapWfFrom d 0 m

/-- Drop the keys of [lo, lo + n). -/
def mapDelRange {α : Type} (m : SMap α) (lo n : Nat) : SMap α :=
  m.filter (fun p => p.1 < lo || lo + n ≤ p.1)

/-- The keys of [lo, lo + n) with their values. -/
def mapRange {α : Type} (m : SMap α) (lo n : Nat) : SMap α :=
  m.filter (fun p => lo ≤ p.1 && decide (p.1 < lo + n))

/-- `n` values from key `i` on. -/
def mapRun {α : Type} (d : α) (m : SMap α) (i : Nat) : Nat → List α
  | 0 => []
  | n + 1 => mapGet d m i :: mapRun d m (i + 1) n

/-- Write a list of values from key `i` on. -/
def mapPutRun {α : Type} [DecidableEq α] (d : α) (m : SMap α) (i : Nat) : List α → SMap α
  | [] => m
  | v :: t => mapPutRun d (mapPut d m i v) (i + 1) t

/-- ceil(a / b). -/
def ceilDiv (a b : Nat) : Nat := (a + b - 1) / b

/-- Bits [hi:lo] of a number (R7). -/
def bitsOf (x hi lo : Nat) : Nat := x / 2 ^ lo % 2 ^ (hi + 1 - lo)

/-- Bit n of a number. -/
def bitOf (x n : Nat) : Bool := x / 2 ^ n % 2 == 1

/-- R8: the little-endian value of bytes. -/
def leNat : List Byte → Nat
  | [] => 0
  | b :: t => b.toNat + 256 * leNat t

/-- R8: a number as `n` little-endian bytes. -/
def toLe : Nat → Nat → List Byte
  | 0, _ => []
  | n + 1, x => BitVec.ofNat 8 x :: toLe n (x / 256)

/-- A 64-bit word's 8 bytes. -/
def wordBytes (w : W64) : List Byte := toLe 8 w.toNat

/-- Replace the element at an index. -/
def setAt {α : Type} : List α → Nat → α → List α
  | [], _, _ => []
  | _ :: t, 0, v => v :: t
  | x :: t, n + 1, v => x :: setAt t n v

/-- Change the element at an index. -/
def modAt {α : Type} : List α → Nat → (α → α) → List α
  | [], _, _ => []
  | x :: t, 0, f => f x :: t
  | x :: t, n + 1, f => x :: modAt t n f

/-- Change every element that a test picks. -/
def modWhere {α : Type} (p : α → Bool) (f : α → α) (l : List α) : List α :=
  l.map (fun x => if p x then f x else x)

/-- Insert into a sorted list without repeats. -/
def insertSorted : Nat → List Nat → List Nat
  | i, [] => [i]
  | i, x :: t => if i = x then x :: t else if i < x then i :: x :: t else x :: insertSorted i t

/-- A list sorted, without repeats. -/
def sortNub (l : List Nat) : List Nat := l.foldl (fun acc i => insertSorted i acc) []

/-- Insert by an order, before the first element that it precedes. -/
def insertBy {α : Type} (lt : α → α → Bool) (x : α) : List α → List α
  | [] => [x]
  | y :: t => if lt x y then x :: y :: t else y :: insertBy lt x t

/-- Stable sort by an order. -/
def sortBy {α : Type} (lt : α → α → Bool) (l : List α) : List α :=
  l.foldl (fun acc x => insertBy lt x acc) []

/-- Consecutive groups of `n` (at most `fuel` of them). -/
def chunks {α : Type} (n : Nat) : Nat → List α → List (List α)
  | 0, _ => []
  | _, [] => []
  | fuel + 1, l => l.take n :: chunks n fuel (l.drop n)

/-- All groups of `n` of a list. -/
def groupsOf {α : Type} (n : Nat) (l : List α) : List (List α) := chunks n l.length l

/-- The number of set bits below bit `n`. -/
def popCount : Nat → Nat → Nat
  | 0, _ => 0
  | n + 1, x => x % 2 + popCount n (x / 2)

/-- The set bits below bit `n`, ascending. -/
def setBits (n x : Nat) : List Nat := (List.range n).filter (fun i => bitOf x i)

/-- A mask from its bits. -/
def maskOf (l : List Nat) : Nat := l.foldl (fun acc i => acc ||| 2 ^ i) 0

end Sys2Proof.Machine
end

