-- ==== Sys2Proof/Config.lean ====
section
/-! DEFINITION. What the spec leaves open: free values (constants without a body), applied to the operands they
depend on or to a counter of the state. No proof can see a value of them. -/

namespace Sys2Proof

/-- R173: FEXP2 is within 2 units in the last place, and the same input always gives the same bits. Which bits is
not stated: a free function of the input, taken where it keeps the bound. Safe. (Log entry 10.) -/
opaque Config.fexp2 : F32 → F32

/-- R173: FLOG2, as `Config.fexp2`. Safe. (Log entry 10.) -/
opaque Config.flog2 : F32 → F32

/-- A fresh 64-bit value that the spec leaves open, by its ordinal in the run (`State.free` counts them).
Safe. (Log entry 11.) -/
opaque Config.freeWord : Nat → W64

/-- The content of a byte the spec leaves open, by its ordinal and its address. Safe. (Log entry 11.) -/
opaque Config.freeByte : Nat → Nat → Byte

/-- Table 4.4, condition 13: has the Harness egress room for a block while `n` records wait in it? The spec gives no size.
Safe: an empty egress has room. (Log entry 13.) -/
opaque Config.egressRoom : Nat → Bool

end Sys2Proof
end

