-- ==== Sys2Proof/Machine/Num.lean ====
section
/-! DEFINITION. Numbers: the element formats of Table 6.1, exact products (R137), the reed slot's adds
(R138 to R142), the Spindle's FP32 operations (R173, R174), the conversions of Table 6.5 (R152) and the MX block
conversion (R153). Values are kept exact (sign, magnitude, power of two) and rounded once. -/

namespace Sys2Proof.Machine

/-- A value read from a floating format: NaN, an infinity, or (−1)^neg · m · 2^e. -/
inductive Fp where
  | nan
  | inf (neg : Bool)
  | fin (neg : Bool) (m : Nat) (e : Int)
  deriving DecidableEq, Repr

/-- A binary format: mantissa bits, exponent of the smallest subnormal, largest finite magnitude code, sign bit
position, whether the codes above the largest finite one include an infinity, and the NaN code written. -/
structure Fmt where
  mb : Nat
  emin : Int
  maxFin : Nat
  signBit : Nat
  hasInf : Bool
  nanOut : Nat
  deriving DecidableEq, Repr

/-- Table 6.1. -/
def fmtFP32 : Fmt := ⟨23, -149, 0x7F7FFFFF, 31, true, 0x7FC00000⟩
/-- Table 6.1. -/
def fmtBF16 : Fmt := ⟨7, -133, 0x7F7F, 15, true, 0x7FC0⟩
/-- Table 6.1. -/
def fmtFP16 : Fmt := ⟨10, -24, 0x7BFF, 15, true, 0x7E00⟩
/-- Table 6.1: no infinity. -/
def fmtE4M3 : Fmt := ⟨3, -9, 0x7E, 7, false, 0x7F⟩
/-- Table 6.1. -/
def fmtE5M2 : Fmt := ⟨2, -16, 0x7B, 7, true, 0x7E⟩
/-- Table 6.1: neither infinity nor NaN. -/
def fmtE2M1 : Fmt := ⟨1, -1, 0x7, 3, false, 0x0⟩

/-- The value of a code of a format (subnormals honoured, R136). -/
def Fmt.decode (f : Fmt) (bits : Nat) : Fp :=
  let neg := bits / 2 ^ f.signBit % 2 == 1
  let mag := bits % 2 ^ f.signBit
  if mag > f.maxFin then
    if f.hasInf && mag == f.maxFin + 1 then .inf neg else .nan
  else
    let e := mag / 2 ^ f.mb
    let m := mag % 2 ^ f.mb
    if e == 0 then .fin neg m f.emin else .fin neg (m + 2 ^ f.mb) (f.emin + e - 1)

/-- Round to nearest, ties to even, with gradual underflow: the integer significand q and its exponent, for a
magnitude m·2^e (plus something below one unit of m when `sticky`). -/
def roundMag (f : Fmt) (m : Nat) (e : Int) (sticky : Bool) : Nat × Int :=
  if m == 0 then (0, f.emin) else
  let t := max (e + (Nat.log2 m + 1 : Nat) - (f.mb + 1 : Nat)) f.emin
  if t ≤ e then (m * 2 ^ (e - t).toNat, t) else
  let sh := (t - e).toNat
  let q := m / 2 ^ sh
  let r := m % 2 ^ sh
  let half := 2 ^ (sh - 1)
  if half < r || (r == half && (sticky || q % 2 == 1)) then (q + 1, t) else (q, t)

/-- The magnitude code of a rounded significand (it may lie beyond the largest finite code). -/
def Fmt.magCode (f : Fmt) (q : Nat) (e : Int) : Nat := q + (e - f.emin).toNat * 2 ^ f.mb

/-- The sign placed above a magnitude code. -/
def Fmt.signed (f : Fmt) (neg : Bool) (mag : Nat) : Nat := mag + (if neg then 2 ^ f.signBit else 0)

/-- A converted value and its events (R152). -/
structure Conv where
  bits : Nat
  sat : Bool
  nan : Bool
  deriving DecidableEq, Repr

/-- R152, Table 6.5: a saturating conversion to a floating format. -/
def Fmt.convert (f : Fmt) : Fp → Conv
  | .nan => ⟨f.nanOut, false, true⟩
  | .inf neg => ⟨f.signed neg f.maxFin, true, false⟩
  | .fin neg m e =>
    let r := roundMag f m e false
    let c := f.magCode r.1 r.2
    if c > f.maxFin then ⟨f.signed neg f.maxFin, true, false⟩ else ⟨f.signed neg c, false, false⟩

/-- R173: a rounded FP32 result; overflow is an infinity of its sign, every NaN is 0x7FC0_0000. -/
def packF32 (v : Fp) (sticky : Bool := false) : F32 :=
  match v with
  | .nan => 0x7FC00000#32
  | .inf neg => BitVec.ofNat 32 (fmtFP32.signed neg 0x7F800000)
  | .fin neg m e =>
    let r := roundMag fmtFP32 m e sticky
    BitVec.ofNat 32 (fmtFP32.signed neg (min (fmtFP32.magCode r.1 r.2) 0x7F800000))

/-- The value of FP32 bits. -/
def unpackF32 (x : F32) : Fp := fmtFP32.decode x.toNat

/-- The NaN every Spindle operation writes (R173), and a NaN slot holds (R142). -/
def nanF32 : F32 := 0x7FC00000#32

/-- A finite value's signed significand at a common exponent. -/
def alignTo (neg : Bool) (m : Nat) (e e0 : Int) : Int :=
  let v : Int := (m * 2 ^ (e - e0).toNat : Nat)
  if neg then -v else v

/-- The exact sum of two values. An exact zero is +0 unless both are −0 (R173, R177). -/
def fpAdd : Fp → Fp → Fp
  | .nan, _ => .nan
  | _, .nan => .nan
  | .inf a, .inf b => if a == b then .inf a else .nan
  | .inf a, .fin .. => .inf a
  | .fin .., .inf b => .inf b
  | .fin n1 m1 e1, .fin n2 m2 e2 =>
    let e0 := min e1 e2
    let s := alignTo n1 m1 e1 e0 + alignTo n2 m2 e2 e0
    if s == 0 then .fin (n1 && n2 && m1 == 0 && m2 == 0) 0 e0 else .fin (s < 0) s.natAbs e0

/-- The exact product; infinity times zero is NaN. -/
def fpMul : Fp → Fp → Fp
  | .nan, _ => .nan
  | _, .nan => .nan
  | .inf a, .inf b => .inf (a != b)
  | .inf a, .fin n m _ => if m == 0 then .nan else .inf (a != n)
  | .fin n m _, .inf b => if m == 0 then .nan else .inf (n != b)
  | .fin n1 m1 e1, .fin n2 m2 e2 => .fin (n1 != n2) (m1 * m2) (e1 + e2)

/-- The value with its sign turned. -/
def fpNeg : Fp → Fp
  | .nan => .nan
  | .inf n => .inf (!n)
  | .fin n m e => .fin (!n) m e

/-- R173: FADD. -/
def f32Add (a b : F32) : F32 := packF32 (fpAdd (unpackF32 a) (unpackF32 b))
/-- R173: FSUB. -/
def f32Sub (a b : F32) : F32 := packF32 (fpAdd (unpackF32 a) (fpNeg (unpackF32 b)))
/-- R173: FMUL. -/
def f32Mul (a b : F32) : F32 := packF32 (fpMul (unpackF32 a) (unpackF32 b))
/-- R173: FMA, one rounding. -/
def f32Fma (a b c : F32) : F32 := packF32 (fpAdd (fpMul (unpackF32 a) (unpackF32 b)) (unpackF32 c))

/-- R173: FDIV, correctly rounded. A nonzero value over zero is an infinity, 0/0 and ∞/∞ are NaN. -/
def f32Div (a b : F32) : F32 :=
  match unpackF32 a, unpackF32 b with
  | .nan, _ => nanF32
  | _, .nan => nanF32
  | .inf _, .inf _ => nanF32
  | .inf x, .fin n _ _ => packF32 (.inf (x != n))
  | .fin n _ _, .inf y => packF32 (.fin (n != y) 0 0)
  | .fin n1 m1 e1, .fin n2 m2 e2 =>
    if m2 == 0 then (if m1 == 0 then nanF32 else packF32 (.inf (n1 != n2)))
    else
      let num := m1 * 2 ^ 64
      packF32 (.fin (n1 != n2) (num / m2) (e1 - e2 - 64)) (num % m2 != 0)

/-- Integer square root by bits: the largest r (below 2^n) whose square is at most x. -/
def isqrtBits : Nat → Nat → Nat → Nat
  | 0, _, r => r
  | n + 1, x, r =>
    let c := r + 2 ^ n
    isqrtBits n x (if c * c ≤ x then c else r)

/-- R173: FSQRT, correctly rounded; the root of a negative value is NaN, of −0 is −0. -/
def f32Sqrt (a : F32) : F32 :=
  match unpackF32 a with
  | .nan => nanF32
  | .inf n => if n then nanF32 else packF32 (.inf false)
  | .fin n m e =>
    if m == 0 then packF32 (.fin n 0 0)
    else if n then nanF32
    else
      let e' := if e % 2 == 0 then e else e - 1
      let m' := (if e % 2 == 0 then m else 2 * m) * 2 ^ 60
      let r := isqrtBits 46 m' 0
      packF32 (.fin false r (e' / 2 - 30)) (r * r != m')

/-- A key that orders FP32 values other than NaN, with +0 above −0 (R174). -/
def f32Key (x : F32) : Int :=
  if x.toNat < 2 ^ 31 then (x.toNat : Int) else -(x.toNat - 2 ^ 31 : Nat) - 1

/-- Is the value a NaN? -/
def f32IsNan (x : F32) : Bool := x.toNat % 2 ^ 31 > 0x7F800000

/-- Is the value an infinity? -/
def f32IsInf (x : F32) : Bool := x.toNat % 2 ^ 31 == 0x7F800000

/-- R174: FMAX. -/
def f32Max (a b : F32) : F32 :=
  if f32IsNan a || f32IsNan b then nanF32 else if f32Key a < f32Key b then b else a
/-- R174: FMIN. -/
def f32Min (a b : F32) : F32 :=
  if f32IsNan a || f32IsNan b then nanF32 else if f32Key b < f32Key a then b else a

/-- Numeric order, false with a NaN (R174); the two zeros are equal. -/
def f32Lt (a b : F32) : Bool :=
  !(f32IsNan a || f32IsNan b) &&
    !(a.toNat % 2 ^ 31 == 0 && b.toNat % 2 ^ 31 == 0) && decide (f32Key a < f32Key b)
/-- Numeric equality, false with a NaN (R174). -/
def f32Eq (a b : F32) : Bool :=
  !(f32IsNan a || f32IsNan b) && (a == b || (a.toNat % 2 ^ 31 == 0 && b.toNat % 2 ^ 31 == 0))
/-- R173: FABS, FNEG: NaN results are 0x7FC0_0000. -/
def f32Abs (a : F32) : F32 := if f32IsNan a then nanF32 else BitVec.ofNat 32 (a.toNat % 2 ^ 31)
/-- R173: FNEG. -/
def f32Neg (a : F32) : F32 := packF32 (fpNeg (unpackF32 a))

/-- A natural number rounded to FP32 (R173). -/
def f32OfInt (i : Int) : F32 := packF32 (.fin (i < 0) i.natAbs 0)

/-! ## Elements (R135 to R137) -/

/-- The codes of Table 4.1, as IN_FMT and STAT_FMT carry them. -/
inductive EFmt where
  | bf16 | fp16 | e4m3 | e5m2 | mxfp8 | mxfp4 | int8
  deriving DecidableEq, Repr

/-- Table 4.1: the format of a code; other codes are reserved. -/
def EFmt.ofCode : Nat → Option EFmt
  | 0 => some .bf16 | 1 => some .fp16 | 2 => some .e4m3 | 3 => some .e5m2
  | 4 => some .mxfp8 | 5 => some .mxfp4 | 6 => some .int8 | _ => none

/-- Table 4.1: the code of a format. -/
def EFmt.code : EFmt → Nat
  | .bf16 => 0 | .fp16 => 1 | .e4m3 => 2 | .e5m2 => 3 | .mxfp8 => 4 | .mxfp4 => 5 | .int8 => 6

/-- Table 4.1: bits per element. -/
def EFmt.bits : EFmt → Nat
  | .bf16 | .fp16 => 16 | .mxfp4 => 4 | _ => 8

/-- Table 4.1: elements per bank, and the MAC rate. -/
def EFmt.perBank : EFmt → Nat
  | .bf16 | .fp16 => 256 | .mxfp4 => 1024 | _ => 512

/-- Table 4.1: MACs per lane per ACLK. -/
def EFmt.rate : EFmt → Nat
  | .bf16 | .fp16 => 1 | .mxfp4 => 4 | _ => 2

/-- Does the format carry block scales? -/
def EFmt.isMx : EFmt → Bool
  | .mxfp8 | .mxfp4 => true | _ => false

/-- R84: the pair rate; INT8 with a floating format runs at m = 1. -/
def pairRate (a b : EFmt) : Nat :=
  if (a == .int8) != (b == .int8) then 1 else min a.rate b.rate

/-- The value of an element code without its block scale. -/
def EFmt.elem (f : EFmt) (code : Nat) : Fp :=
  match f with
  | .bf16 => fmtBF16.decode code
  | .fp16 => fmtFP16.decode code
  | .e4m3 | .mxfp8 => fmtE4M3.decode code
  | .e5m2 => fmtE5M2.decode code
  | .mxfp4 => fmtE2M1.decode code
  | .int8 => let c := code % 256
             if c < 128 then .fin false c 0 else .fin true (256 - c) 0

/-- R136: an element with its E8M0 scale; scale 0xFF makes it NaN. -/
def scaleBy (v : Fp) (scale : Nat) : Fp :=
  if scale == 255 then .nan
  else match v with
    | .fin n m e => .fin n m (e + (scale : Int) - 127)
    | x => x

/-- An element as a lane sees it: its value, and whether it is NaN by its block's scale. -/
structure Elem where
  v : Fp
  scaleNan : Bool
  deriving DecidableEq, Repr

/-- R166: an element brought to FP32: exact within range, else the infinity of its sign. -/
def toF32 (v : Fp) : F32 := packF32 v

/-! ## Reed slots (R138 to R142) -/

/-- One reed slot value of one lane: its 32 bits, and whether it has saturated (sticky, R140). -/
structure Slot where
  bits : F32
  sat : Bool
  deriving DecidableEq, Repr

/-- R139: what a block's first add finds. -/
def Slot.zero : Slot := ⟨0, false⟩

/-- The source of a saturation or NaN event, as RN_SAT_LOG and RN_NAN_LOG name it. -/
inductive SlotEvent where
  | sat (source : Nat)
  | nan (source : Nat)
  deriving DecidableEq, Repr

/-- Largest finite FP32 value with a sign (R140). -/
def maxF32 (neg : Bool) : F32 := BitVec.ofNat 32 (fmtFP32.signed neg 0x7F7FFFFF)

/-- R142: the NaN source among one cycle's operand pairs: INPUT_NAN 0x0, SCALE_NAN 0x1, INF_TIMES_ZERO 0x2,
INF_MINUS_INF 0x3. Which one is named where several stand together is the model's choice (log entry 110). -/
def nanSource (ps : List (Elem × Elem)) : Option Nat :=
  let ops := ps.flatMap (fun p => [p.1, p.2])
  if ops.any (fun x => x.v == .nan && !x.scaleNan) then some 0
  else if ops.any (·.scaleNan) then some 1
  else
    let prods := ps.map (fun p => fpMul p.1.v p.2.v)
    if prods.any (· == .nan) then some 2
    else if prods.any (· == .inf false) && prods.any (· == .inf true) then some 3
    else none

/-- R138: the exact sum of one cycle's products. -/
def exactSum (ps : List (Elem × Elem)) : Fp :=
  ps.foldl (fun acc p => fpAdd acc (fpMul p.1.v p.2.v)) (.fin false 0 0)

/-- R139, R140: an FP32 value rounded into a slot, which saturates beyond the largest finite magnitude and never holds −0. -/
def slotRound (v : Fp) : Slot :=
  match v with
  | .nan => ⟨nanF32, false⟩
  | .inf n => ⟨maxF32 n, true⟩
  | .fin n m e =>
    let r := roundMag fmtFP32 m e false
    let c := fmtFP32.magCode r.1 r.2
    if c > 0x7F7FFFFF then ⟨maxF32 n, true⟩
    else if c == 0 then ⟨0, false⟩
    else ⟨BitVec.ofNat 32 (fmtFP32.signed n c), false⟩

/-- R138 to R142: one cycle of a floating slot: the products are summed exactly and added with one rounding. -/
def slotMac (s : Slot) (ps : List (Elem × Elem)) : Slot × Option SlotEvent :=
  if f32IsNan s.bits then (s, none) else
  match nanSource ps with
  | some src => (⟨nanF32, false⟩, some (.nan src))
  | none =>
    if s.sat then (s, none) else
    let sum := exactSum ps
    match sum with
    | .inf n => (⟨maxF32 n, true⟩, some (.sat 1))
    | _ =>
      let r := slotRound (fpAdd (unpackF32 s.bits) sum)
      (r, if r.sat then some (.sat 0) else none)

/-- The integer an INT8 element stands for. -/
def Fp.toInt : Fp → Int
  | .fin n m e => let v : Int := (m * 2 ^ e.toNat : Nat); if n then -v else v
  | _ => 0

/-- R141: clamp to the INT32 limits. -/
def clampInt32 (i : Int) : Int := max (-2147483648) (min 2147483647 i)

/-- R141: one cycle of an INT32 slot. -/
def slotMacInt (s : Slot) (ps : List (Elem × Elem)) : Slot × Option SlotEvent :=
  if s.sat then (s, none) else
  let t := s.bits.toInt + (ps.map (fun p => p.1.v.toInt * p.2.v.toInt)).sum
  let c := clampInt32 t
  (⟨BitVec.ofInt 32 c, c != t⟩, if c != t then some (.sat 0) else none)

/-- The FP32 add of R139 to R142 on two values, as the Reed Network and the combine store use it (R109, R146,
R151): saturated operands stay, a NaN wins. -/
def slotAdd (a b : Slot) : Slot :=
  if f32IsNan a.bits || f32IsNan b.bits then ⟨nanF32, false⟩
  else if a.sat then a
  else if b.sat then b
  else slotRound (fpAdd (unpackF32 a.bits) (unpackF32 b.bits))

/-- A partial of the Reed Network: an FP32 value, or an exact integer with the saturation its strands brought (R148). -/
inductive Partial where
  | float (s : Slot)
  | int (v : Int) (sat : Bool)
  deriving DecidableEq, Repr

/-- R141, R145: a drained slot as the network takes it. -/
def Partial.ofSlot (isInt : Bool) (s : Slot) : Partial := if isInt then .int s.bits.toInt s.sat else .float s

/-- R146, R148: two partials added, with one rounding in FP32, exactly in integers. -/
def Partial.add : Partial → Partial → Partial
  | .float a, .float b => .float (slotAdd a b)
  | .int a x, .int b y => .int (a + b) (x || y)
  | .float a, .int b _ => .float (slotAdd a ⟨f32OfInt b, false⟩)
  | .int a _, .float b => .float (slotAdd ⟨f32OfInt a, false⟩ b)

/-- Has a partial saturated? -/
def Partial.sat : Partial → Bool
  | .float s => s.sat
  | .int _ b => b

/-- R148, R150: the value that leaves the network in FP32: an integer is clamped to the INT32 limits first. -/
def Partial.value : Partial → F32
  | .float s => s.bits
  | .int v _ => f32OfInt (clampInt32 v)

/-- R148: does the final sum clamp? -/
def Partial.clamps : Partial → Bool
  | .float _ => false
  | .int v _ => clampInt32 v != v

/-- R150: an INT32 partial to FP32. -/
def int32ToF32 (x : BitVec 32) : F32 := f32OfInt x.toInt

/-! ## Conversions out of FP32 (R152, R153) -/

/-- Round a value to an integer, ties to even. -/
def roundToInt (neg : Bool) (m : Nat) (e : Int) : Int :=
  let q : Nat :=
    if 0 ≤ e then m * 2 ^ e.toNat
    else
      let sh := (-e).toNat
      let q := m / 2 ^ sh
      let r := m % 2 ^ sh
      let half := 2 ^ (sh - 1)
      if half < r || (r == half && q % 2 == 1) then q + 1 else q
  if neg then -q else q

/-- Table 6.5: FP32 to INT8. -/
def convInt8 : Fp → Conv
  | .nan => ⟨0, false, true⟩
  | .inf n => ⟨if n then 0x80 else 0x7F, true, false⟩
  | .fin n m e =>
    let i := roundToInt n m e
    let c := max (-128) (min 127 i)
    ⟨(BitVec.ofInt 8 c).toNat, c != i, false⟩

/-- Table 6.5: FP32 to FP32 keeps every value, a NaN is 0x7FC0_0000. -/
def convF32 (x : F32) : Conv :=
  if f32IsNan x then ⟨0x7FC00000, false, true⟩ else ⟨x.toNat, false, false⟩

/-- R152: an element code of a format without block scales. -/
def EFmt.convert (f : EFmt) (x : F32) : Conv :=
  match f with
  | .bf16 => fmtBF16.convert (unpackF32 x)
  | .fp16 => fmtFP16.convert (unpackF32 x)
  | .e4m3 | .mxfp8 => fmtE4M3.convert (unpackF32 x)
  | .e5m2 => fmtE5M2.convert (unpackF32 x)
  | .mxfp4 => fmtE2M1.convert (unpackF32 x)
  | .int8 => convInt8 (unpackF32 x)

/-- floor(log2 |v|) of a nonzero finite value. -/
def floorLog2 (m : Nat) (e : Int) : Int := e + Nat.log2 m

/-- R153: emax of an MX element. -/
def EFmt.emax : EFmt → Int
  | .mxfp4 => 2 | _ => 8

/-- R153: a block of values to an MX block: the scale code and the converted elements. -/
def mxBlock (f : EFmt) (vs : List F32) : Nat × List Conv :=
  if vs.any f32IsNan then (255, vs.map (fun x => ⟨0, false, f32IsNan x⟩)) else
  let amag := (vs.map (fun x => min (x.toNat % 2 ^ 31) 0x7F7FFFFF)).foldl max 0
  let x : Int :=
    if amag == 0 then -127
    else match fmtFP32.decode amag with
      | .fin _ m e => min (max (floorLog2 m e - f.emax) (-127)) 127
      | _ => 127
  let conv := fun v => match unpackF32 v with
    | .fin n m e => (if f == .mxfp4 then fmtE2M1 else fmtE4M3).convert (.fin n m (e - x))
    | w => (if f == .mxfp4 then fmtE2M1 else fmtE4M3).convert w
  ((x + 127).toNat, vs.map conv)

/-- R120, R154: an MX element times its scale, delivered in BF16. -/
def otherAxisBf16 (v : Fp) : Conv := fmtBF16.convert v

/-! ## CRC-8 of a fuse record (Table 5.6) -/

/-- One shift step of the CRC-8 with polynomial 0x07. -/
def crc8Step (x : Nat) : Nat := if x ≥ 128 then (2 * x % 256) ^^^ 7 else 2 * x

/-- Table 5.6: CRC-8 of one byte. -/
def crc8 (b : Nat) : Nat :=
  crc8Step (crc8Step (crc8Step (crc8Step (crc8Step (crc8Step (crc8Step (crc8Step (b % 256))))))))

end Sys2Proof.Machine
end

