-- ==== Sys2Proof/Machine/Approx.lean ====
section
/-! DEFINITION. FEXP2 and FLOG2 (R173): a result that the spec bounds to 2 units in the last place of the exact value and
leaves open within them. The exact value is enclosed in fixed point; the free value of Config stands where it lies within
the bound, else the value nearest to the exact one does. -/

namespace Sys2Proof.Machine

/-- R173: every NaN result is 0x7FC0_0000. -/
def canonNan (x : F32) : F32 := if f32IsNan x then nanF32 else x

/-- Fraction bits of the fixed-point values here. -/
def fixBits : Nat := 320

/-- Does an FP32 value lie within 2 units in the last place of n · 2^−fixBits · 2^k (negative where `neg`)? The infinity of the
sign stands for 2^128. The comparison allows 2^32 units of the enclosure. -/
def within2Ulp (x : F32) (neg : Bool) (n : Nat) (k : Int) : Bool :=
  let top := (Nat.log2 n : Int) + k - fixBits
  let ulp := max (top - 23) (-149)
  let e := min (min ulp (k - fixBits)) (-149)
  let exact := alignTo neg n (k - fixBits) e
  let slack := 2 * 2 ^ (ulp - e).toNat + 2 ^ (32 + k - fixBits - e).toNat
  match unpackF32 x with
  | .nan => false
  | .inf m => decide ((alignTo m 1 128 e - exact).natAbs ≤ slack)
  | .fin m q t => decide ((alignTo m q t e - exact).natAbs ≤ slack)

/-- The free value where it is within bounds, else the nearest value. -/
def openWithin (free : F32) (neg : Bool) (n : Nat) (k : Int) : F32 :=
  if within2Ulp free neg n k then free else packF32 (.fin neg n (k - fixBits))

/-- 2^(2^−1), 2^(2^−2), … in fixed point, each the root of the one before. -/
def rootsOfTwo : Nat → Nat → List Nat
  | 0, _ => []
  | n + 1, x =>
    let r := isqrtBits (fixBits + 2) (x * 2 ^ fixBits) 0
    r :: rootsOfTwo n r

/-- 2^(f · 2^−fixBits) for a fraction f, in fixed point. -/
def exp2Fix (f : Nat) : Nat :=
  ((rootsOfTwo fixBits (2 * 2 ^ fixBits)).mapIdx (fun i r => (i, r))).foldl
    (fun acc x => if bitOf f (fixBits - 1 - x.1) then acc * x.2 / 2 ^ fixBits else acc) (2 ^ fixBits)

/-- R173: FEXP2. Beyond ±2^10 the result is an infinity or within the bound of +0. -/
def f32Exp2 (a : F32) : F32 :=
  match unpackF32 a with
  | .nan => nanF32
  | .inf n => if n then 0 else 0x7F800000
  | .fin n m e =>
    let v := alignTo n (m * 2 ^ (max 0 (e + fixBits)).toNat / 2 ^ (max 0 (-(e + fixBits))).toNat) 0 0
    let whole := v / 2 ^ fixBits
    let k := max (-1024) (min 1024 whole)
    openWithin (Config.fexp2 a) false (exp2Fix (v % 2 ^ fixBits).toNat) k

/-- Binary digits of log2 x for 1 ≤ x < 2 in fixed point: square, and halve where the square reaches 2. -/
def log2Digits : Nat → Nat → Nat → Nat
  | 0, _, acc => acc
  | n + 1, x, acc =>
    let y := x * x / 2 ^ fixBits
    if 2 * 2 ^ fixBits ≤ y then log2Digits n (y / 2) (2 * acc + 1) else log2Digits n y (2 * acc)

/-- Digits of a logarithm that are formed. -/
def logBits : Nat := 300

/-- R173: FLOG2. The logarithm of a value that is not above zero has no stated result: it is open but for R173's NaN. -/
def f32Log2 (a : F32) : F32 :=
  match unpackF32 a with
  | .nan => nanF32
  | .inf n => if n then canonNan (Config.flog2 a) else 0x7F800000
  | .fin n m e =>
    if n || m == 0 then canonNan (Config.flog2 a) else
    let top := Nat.log2 m
    let x := m * 2 ^ fixBits / 2 ^ top
    let frac : Int := (log2Digits logBits x 0 * 2 ^ (fixBits - logBits) : Nat)
    let v := (e + top) * 2 ^ fixBits + frac
    openWithin (Config.flog2 a) (v < 0) v.natAbs 0

end Sys2Proof.Machine
end

