-- ==== Sys2Proof/Machine/RegTable.lean ====
section
/-! DEFINITION. The register window of R425 to R428: every register of the spec's set-outs, with its
offset, its index ranges and strides, its fields' bits, access codes (R12, Table 0.5) and reset entries
(R13; an IMAGE field holds its factory default here). FUSE and LIVE fields read 0 here: their values are
laid over by `Sys2Proof.Machine.State.shownWord`. Reserved fields are left out: they read 0 and ignore writes. -/

namespace Sys2Proof.Machine

/-- R427: does a displacement from a register's base name one of its indices? -/
def inDims : List (Nat × Nat) → Nat → Bool
  | [], d => d == 0
  | (n, st) :: ds, d => d / st < n && inDims ds (d % st)

/-- R427: is this word of the register at this offset? -/
def coversReg (r : RegWord) (off : Nat) : Bool :=
  r.base ≤ off && inDims r.dims (off - r.base)

/-- Registers of block CU (offsets in the window, Table 18.4). -/
def regsCU0 : List RegWord :=
  [⟨0x1000, [], [⟨63, 63, .ro, 0⟩, ⟨62, 62, .w1c, 0⟩, ⟨61, 61, .w1c, 0⟩, ⟨47, 40, .ro, 0⟩, ⟨39, 32, .ro, 0⟩, ⟨25, 16, .ro, 0⟩, ⟨9, 0, .ro, 0⟩]⟩,
   ⟨0x1008, [], [⟨63, 63, .rw, 1⟩, ⟨62, 62, .rw, 0⟩, ⟨55, 48, .rw, 2⟩, ⟨47, 40, .rw, 3⟩, ⟨31, 0, .rw, 0x1000000⟩]⟩,
   ⟨0x1010, [], [⟨63, 63, .w1s, 0⟩, ⟨62, 62, .ro, 0⟩, ⟨55, 48, .ro, 0⟩, ⟨39, 36, .ro, 0⟩, ⟨35, 32, .rw, 0⟩, ⟨10, 8, .rw, 0⟩, ⟨6, 0, .rw, 0⟩]⟩,
   ⟨0x1018, [], [⟨63, 32, .ro, 0⟩, ⟨24, 16, .ro, 0⟩, ⟨8, 0, .rw, 0⟩]⟩,
   ⟨0x1020, [], [⟨63, 32, .rc, 0⟩, ⟨31, 16, .rc, 0⟩, ⟨15, 0, .rc, 0⟩]⟩,
   ⟨0x1028, [], [⟨63, 32, .rc, 0⟩, ⟨31, 16, .rc, 0⟩, ⟨15, 0, .rc, 0⟩]⟩,
   ⟨0x1030, [], [⟨63, 32, .rc, 0⟩, ⟨31, 16, .rc, 0⟩, ⟨15, 0, .rc, 0⟩]⟩,
   ⟨0x1038, [], [⟨63, 63, .rw, 0⟩, ⟨56, 52, .rw, 16⟩, ⟨51, 21, .rw, 0⟩]⟩,
   ⟨0x1040, [], [⟨52, 32, .ro, 0⟩, ⟨20, 0, .rw, 0⟩]⟩,
   ⟨0x1048, [], [⟨63, 63, .w1s, 0⟩, ⟨62, 62, .ro, 0⟩, ⟨44, 32, .ro, 0⟩, ⟨12, 0, .rw, 2048⟩]⟩,
   ⟨0x1050, [], [⟨63, 32, .rc, 0⟩, ⟨31, 16, .rc, 0⟩, ⟨15, 0, .rc, 0⟩]⟩,
   ⟨0x1060, [(2, 0x8)], [⟨63, 0, .ro, 0⟩]⟩]

/-- Registers of block CU, continued. -/
def regsCU1 : List RegWord :=
  [⟨0x1100, [(8, 0x8)], [⟨63, 63, .ro, 0⟩, ⟨62, 56, .ro, 0⟩, ⟨55, 48, .ro, 0⟩, ⟨31, 0, .ro, 0⟩]⟩,
   ⟨0x2000, [(256, 0x20)], [⟨63, 0, .ro, 0⟩]⟩,
   ⟨0x2008, [(256, 0x20)], [⟨63, 0, .ro, 0⟩]⟩,
   ⟨0x2010, [(256, 0x20)], [⟨63, 0, .ro, 0⟩]⟩,
   ⟨0x2018, [(256, 0x20)], [⟨63, 0, .ro, 0⟩]⟩,
   ⟨0x0, [], [⟨39, 0, .ro, 0⟩]⟩,
   ⟨0x8, [], [⟨20, 16, .ro, 0⟩, ⟨15, 8, .ro, 0⟩, ⟨7, 0, .ro, 0⟩]⟩,
   ⟨0x10, [], [⟨31, 24, .ro, 0⟩, ⟨23, 16, .ro, 0⟩, ⟨15, 8, .ro, 0⟩]⟩]

/-- All registers of block CU. -/
def regsCU : List RegWord := regsCU0 ++ regsCU1

/-- Registers of block BD (offsets in the window, Table 18.4). -/
def regsBD0 : List RegWord :=
  [⟨0x400000, [], [⟨63, 56, .ro, 0⟩, ⟨55, 48, .ro, 0⟩, ⟨43, 43, .ro, 0⟩, ⟨42, 42, .ro, 0⟩, ⟨41, 41, .ro, 0⟩, ⟨40, 40, .ro, 0⟩, ⟨39, 32, .ro, 0⟩, ⟨31, 0, .ro, 0⟩]⟩,
   ⟨0x400008, [], [⟨63, 32, .ro, 0⟩, ⟨31, 0, .ro, 0⟩]⟩,
   ⟨0x400010, [], [⟨63, 32, .ro, 0⟩, ⟨31, 8, .ro, 0⟩, ⟨7, 7, .ro, 0⟩, ⟨6, 6, .ro, 0⟩, ⟨5, 3, .ro, 0⟩]⟩,
   ⟨0x400018, [], [⟨1, 1, .wl, 0⟩, ⟨0, 0, .rw, 1⟩]⟩,
   ⟨0x400020, [], [⟨63, 63, .w1s, 0⟩, ⟨62, 62, .ro, 0⟩, ⟨55, 48, .ro, 0⟩, ⟨41, 40, .rw, 0⟩, ⟨31, 0, .rw, 0⟩]⟩,
   ⟨0x400028, [], [⟨8, 0, .rw, 0⟩]⟩,
   ⟨0x401000, [(32, 0x8)], [⟨63, 0, .rw, 0⟩]⟩,
   ⟨0x402000, [], [⟨63, 63, .ro, 0⟩, ⟨62, 62, .ro, 0⟩, ⟨55, 48, .ro, 0⟩, ⟨47, 44, .ro, 0⟩, ⟨35, 32, .ro, 0⟩, ⟨9, 0, .ro, 0⟩]⟩,
   ⟨0x402008, [], [⟨63, 63, .w1s, 0⟩, ⟨62, 62, .ro, 0⟩, ⟨55, 48, .ro, 0⟩, ⟨41, 40, .rw, 0⟩, ⟨35, 34, .rw, 0⟩, ⟨10, 8, .rw, 0⟩, ⟨6, 0, .rw, 0⟩]⟩,
   ⟨0x402010, [], [⟨2, 2, .rw, 0⟩, ⟨1, 1, .rw, 0⟩, ⟨0, 0, .rw, 0⟩]⟩,
   ⟨0x402018, [], [⟨63, 63, .rw, 0⟩, ⟨62, 62, .rw, 0⟩, ⟨47, 32, .rc, 0⟩, ⟨1, 0, .rw, 0⟩]⟩,
   ⟨0x402100, [(16, 0x20)], [⟨63, 63, .rw, 0⟩, ⟨62, 61, .rw, 0⟩, ⟨60, 59, .rw, 0⟩, ⟨58, 58, .rw, 0⟩, ⟨57, 57, .rw, 0⟩, ⟨31, 0, .rc, 0⟩]⟩]

/-- Registers of block BD, continued. -/
def regsBD1 : List RegWord :=
  [⟨0x402108, [(16, 0x20)], [⟨63, 0, .rw, 0⟩]⟩,
   ⟨0x402110, [(16, 0x20)], [⟨63, 0, .rw, 0⟩]⟩,
   ⟨0x402400, [(8, 0x20)], [⟨63, 63, .rw, 0⟩, ⟨62, 61, .rw, 0⟩, ⟨60, 59, .rw, 0⟩, ⟨58, 58, .rw, 0⟩, ⟨57, 57, .rw, 0⟩, ⟨56, 56, .rw, 0⟩, ⟨31, 0, .rc, 0⟩]⟩,
   ⟨0x402408, [(8, 0x20)], [⟨51, 0, .rw, 0⟩]⟩,
   ⟨0x402410, [(8, 0x20)], [⟨51, 0, .rw, 0⟩]⟩,
   ⟨0x402418, [(8, 0x20)], [⟨63, 0, .rw, 0⟩]⟩,
   ⟨0x402500, [], [⟨63, 63, .w1c, 0⟩, ⟨62, 59, .ro, 0⟩, ⟨58, 56, .ro, 0⟩, ⟨55, 55, .ro, 0⟩, ⟨51, 0, .ro, 0⟩]⟩,
   ⟨0x402600, [], [⟨63, 63, .w1s, 0⟩, ⟨62, 62, .ro, 0⟩, ⟨55, 48, .ro, 0⟩, ⟨40, 40, .rw, 0⟩, ⟨39, 36, .rw, 0⟩, ⟨34, 32, .rw, 0⟩, ⟨30, 24, .rw, 0⟩]⟩,
   ⟨0x402608, [], [⟨51, 0, .rw, 0⟩]⟩,
   ⟨0x402610, [], [⟨63, 0, .rw, 0⟩]⟩]

/-- All registers of block BD. -/
def regsBD : List RegWord := regsBD0 ++ regsBD1

/-- Registers of block PM (offsets in the window, Table 18.4). -/
def regsPM0 : List RegWord :=
  [⟨0x800000, [], [⟨63, 62, .ro, 0⟩, ⟨61, 61, .ro, 0⟩, ⟨60, 56, .ro, 0⟩, ⟨55, 55, .ro, 0⟩, ⟨54, 54, .ro, 0⟩, ⟨53, 53, .ro, 0⟩, ⟨52, 52, .ro, 0⟩, ⟨51, 51, .ro, 0⟩, ⟨50, 50, .ro, 0⟩, ⟨31, 16, .ro, 0⟩, ⟨15, 0, .ro, 0⟩]⟩,
   ⟨0x800008, [], [⟨63, 63, .w1s, 0⟩, ⟨62, 62, .ro, 0⟩, ⟨55, 48, .ro, 0⟩, ⟨39, 36, .ro, 0⟩, ⟨35, 32, .rw, 0⟩]⟩,
   ⟨0x800010, [], [⟨63, 63, .rw, 1⟩, ⟨15, 0, .rw, 100⟩]⟩,
   ⟨0x800018, [], [⟨20, 16, .rw, 8⟩, ⟨12, 8, .rw, 4⟩, ⟨4, 0, .rw, 8⟩]⟩,
   ⟨0x800020, [], [⟨15, 0, .rw, 250⟩]⟩,
   ⟨0x800028, [], [⟨47, 40, .rw, 10⟩, ⟨39, 32, .rw, 115⟩, ⟨31, 24, .rw, 105⟩, ⟨23, 16, .rw, 95⟩, ⟨3, 0, .rw, 5⟩]⟩,
   ⟨0x800030, [], [⟨9, 0, .rw, 320⟩]⟩,
   ⟨0x800038, [], [⟨63, 56, .rc, 0⟩, ⟨55, 48, .rc, 0⟩, ⟨47, 40, .rc, 0⟩, ⟨39, 32, .rc, 0⟩, ⟨7, 4, .ro, 0⟩, ⟨3, 0, .ro, 0⟩]⟩,
   ⟨0x800040, [], [⟨3, 3, .w1c, 0⟩, ⟨2, 2, .w1c, 0⟩, ⟨1, 1, .w1c, 0⟩, ⟨0, 0, .w1c, 0⟩]⟩,
   ⟨0x800048, [], [⟨7, 0, .ro, 0⟩]⟩,
   ⟨0x800050, [], [⟨47, 32, .ro, 0⟩, ⟨15, 0, .ro, 0⟩]⟩,
   ⟨0x800058, [], [⟨63, 32, .rc, 0⟩, ⟨31, 16, .rc, 0⟩, ⟨15, 0, .rc, 0⟩]⟩]

/-- Registers of block PM, continued. -/
def regsPM1 : List RegWord :=
  [⟨0x800100, [(4, 0x8)], [⟨63, 48, .ro, 0⟩, ⟨47, 32, .ro, 0⟩, ⟨31, 16, .ro, 0⟩, ⟨15, 0, .ro, 0⟩]⟩]

/-- All registers of block PM. -/
def regsPM : List RegWord := regsPM0 ++ regsPM1

/-- Registers of block SS (offsets in the window, Table 18.4). -/
def regsSS0 : List RegWord :=
  [⟨0xc00000, [], [⟨60, 58, .ro, 0⟩, ⟨57, 55, .ro, 0⟩, ⟨54, 53, .ro, 0⟩, ⟨52, 51, .ro, 0⟩, ⟨50, 50, .ro, 0⟩, ⟨49, 49, .ro, 0⟩, ⟨48, 48, .ro, 0⟩, ⟨47, 47, .ro, 0⟩, ⟨46, 46, .ro, 0⟩, ⟨45, 45, .ro, 0⟩, ⟨39, 36, .ro, 0⟩, ⟨12, 0, .ro, 0⟩]⟩,
   ⟨0xc00008, [], [⟨63, 63, .w1s, 0⟩, ⟨15, 8, .ro, 0⟩, ⟨1, 0, .rw, 0⟩]⟩,
   ⟨0xc00010, [], [⟨63, 63, .w1s, 0⟩, ⟨62, 62, .w1s, 0⟩, ⟨61, 61, .ro, 0⟩, ⟨55, 48, .ro, 0⟩, ⟨7, 0, .rw, 0⟩]⟩,
   ⟨0xc00020, [], [⟨63, 63, .w1s, 0⟩, ⟨62, 62, .ro, 0⟩, ⟨55, 48, .ro, 0⟩, ⟨35, 34, .rw, 0⟩, ⟨33, 32, .rw, 0⟩, ⟨11, 0, .rw, 0⟩]⟩,
   ⟨0xc00028, [], [⟨63, 63, .w1s, 0⟩, ⟨62, 62, .ro, 0⟩, ⟨55, 48, .ro, 0⟩, ⟨2, 0, .rw, 0⟩]⟩,
   ⟨0xc00030, [], [⟨5, 5, .w1c, 0⟩, ⟨4, 4, .w1c, 0⟩, ⟨3, 3, .w1c, 0⟩, ⟨2, 2, .w1c, 0⟩, ⟨1, 1, .w1c, 0⟩, ⟨0, 0, .w1c, 0⟩]⟩,
   ⟨0xc00038, [], [⟨5, 0, .rw, 62⟩]⟩,
   ⟨0xc00040, [(8, 0x8)], [⟨63, 0, .ro, 0⟩]⟩,
   ⟨0xc00080, [(24, 0x8)], [⟨63, 0, .rw, 0⟩]⟩,
   ⟨0xc00180, [(10, 0x8)], [⟨63, 0, .rw, 0⟩]⟩,
   ⟨0xc00200, [(64, 0x8)], [⟨63, 63, .rw, 0⟩, ⟨11, 0, .rw, 0⟩]⟩,
   ⟨0xc00400, [(64, 0x8)], [⟨63, 0, .ro, 0⟩]⟩]

/-- Registers of block SS, continued. -/
def regsSS1 : List RegWord :=
  [⟨0xc00600, [(10, 0x8)], [⟨63, 0, .rw, 0⟩]⟩,
   ⟨0xc00700, [], [⟨63, 32, .rc, 0⟩, ⟨31, 0, .rc, 0⟩]⟩,
   ⟨0xc00708, [], [⟨63, 63, .w1c, 0⟩, ⟨59, 48, .ro, 0⟩, ⟨47, 32, .ro, 0⟩, ⟨31, 20, .ro, 0⟩]⟩]

/-- All registers of block SS. -/
def regsSS : List RegWord := regsSS0 ++ regsSS1

/-- Registers of block LS (offsets in the window, Table 18.4). -/
def regsLS0 : List RegWord :=
  [⟨0x1000000, [], [⟨1, 1, .rw, 1⟩, ⟨0, 0, .w1s, 0⟩]⟩,
   ⟨0x1000008, [], [⟨63, 62, .ro, 0⟩, ⟨61, 60, .ro, 0⟩, ⟨5, 5, .w1c, 0⟩, ⟨4, 4, .w1c, 0⟩, ⟨3, 3, .ro, 0⟩, ⟨2, 2, .ro, 0⟩, ⟨1, 1, .ro, 0⟩, ⟨0, 0, .ro, 0⟩]⟩,
   ⟨0x1000010, [], [⟨63, 0, .ro, 0⟩]⟩,
   ⟨0x1000018, [], [⟨63, 0, .ro, 0⟩]⟩,
   ⟨0x1000020, [], [⟨23, 0, .rw, 0x30d40⟩]⟩,
   ⟨0x1000028, [], [⟨63, 48, .rc, 0⟩, ⟨47, 32, .rc, 0⟩, ⟨31, 16, .rc, 0⟩, ⟨15, 8, .rc, 0⟩, ⟨7, 0, .rc, 0⟩]⟩,
   ⟨0x1000030, [], [⟨0, 0, .w1s, 0⟩]⟩,
   ⟨0x1000038, [], [⟨44, 32, .ro, 0⟩, ⟨31, 24, .ro, 0⟩, ⟨0, 0, .w1c, 0⟩]⟩,
   ⟨0x1000040, [], [⟨63, 32, .rc, 0⟩, ⟨31, 16, .rc, 0⟩, ⟨15, 0, .rc, 0⟩]⟩,
   ⟨0x1000048, [], [⟨51, 48, .ro, 0⟩, ⟨44, 32, .ro, 0⟩, ⟨23, 16, .ro, 0⟩, ⟨15, 0, .ro, 0⟩]⟩,
   ⟨0x1000050, [], [⟨63, 0, .rw, 0⟩]⟩,
   ⟨0x1000058, [], [⟨63, 63, .w1s, 0⟩, ⟨23, 16, .rw, 0⟩, ⟨15, 0, .rw, 0⟩]⟩]

/-- Registers of block LS, continued. -/
def regsLS1 : List RegWord :=
  [⟨0x1000060, [], [⟨63, 63, .ro, 0⟩, ⟨15, 8, .ro, 0⟩, ⟨3, 0, .ro, 0⟩]⟩,
   ⟨0x1000068, [], [⟨47, 32, .rw, 100⟩, ⟨8, 8, .rw, 1⟩, ⟨3, 0, .rw, 8⟩]⟩,
   ⟨0x1000070, [], [⟨63, 32, .rc, 0⟩, ⟨31, 16, .rc, 0⟩, ⟨15, 0, .ro, 0⟩]⟩,
   ⟨0x1000078, [], [⟨63, 32, .ro, 0⟩, ⟨21, 0, .ro, 0⟩]⟩,
   ⟨0x1100000, [(16384, 0x8)], [⟨63, 0, .rw, 0⟩]⟩,
   ⟨0x1120000, [(16384, 0x8)], [⟨63, 0, .ro, 0⟩]⟩]

/-- All registers of block LS. -/
def regsLS : List RegWord := regsLS0 ++ regsLS1

/-- Registers of block WP (offsets in the window, Table 18.4). -/
def regsWP0 : List RegWord :=
  [⟨0x1400000, [], [⟨47, 40, .ro, 0⟩, ⟨39, 32, .ro, 0⟩, ⟨17, 10, .ro, 0⟩, ⟨9, 9, .ro, 0⟩, ⟨8, 8, .w1c, 0⟩, ⟨6, 0, .ro, 0⟩]⟩,
   ⟨0x1400008, [], [⟨63, 63, .rw, 1⟩, ⟨31, 16, .rw, 2⟩, ⟨7, 0, .rw, 1⟩]⟩,
   ⟨0x1400010, [], [⟨15, 0, .rc, 0⟩]⟩,
   ⟨0x1400018, [], [⟨37, 32, .rw, 62⟩, ⟨9, 0, .rw, 128⟩]⟩,
   ⟨0x1400020, [], [⟨63, 32, .rc, 0⟩, ⟨31, 16, .rc, 0⟩, ⟨15, 0, .rc, 0⟩]⟩,
   ⟨0x1400040, [(8, 0x8)], [⟨63, 32, .rc, 0⟩, ⟨31, 16, .rc, 0⟩, ⟨15, 0, .rc, 0⟩]⟩]

/-- All registers of block WP. -/
def regsWP : List RegWord := regsWP0

/-- Registers of block SD (offsets in the window, Table 18.4). -/
def regsSD0 : List RegWord :=
  [⟨0x1800000, [], [⟨15, 8, .ro, 0⟩, ⟨2, 2, .ro, 0⟩, ⟨1, 1, .ro, 0⟩, ⟨0, 0, .ro, 0⟩]⟩,
   ⟨0x1800008, [], [⟨31, 16, .rw, 64⟩, ⟨0, 0, .rw, 1⟩]⟩,
   ⟨0x1800010, [], [⟨19, 16, .ro, 0⟩, ⟨10, 8, .ro, 0⟩, ⟨6, 0, .ro, 0⟩]⟩,
   ⟨0x1800100, [(8, 0x8)], [⟨63, 32, .rc, 0⟩, ⟨31, 0, .rc, 0⟩]⟩,
   ⟨0x1800200, [(8, 0x8)], [⟨63, 32, .rc, 0⟩, ⟨31, 16, .rc, 0⟩, ⟨15, 0, .rc, 0⟩]⟩,
   ⟨0x1810000, [(8, 0x400), (66, 0x8)], [⟨63, 63, .ro, 0⟩, ⟨62, 62, .ro, 0⟩, ⟨55, 48, .ro, 0⟩, ⟨47, 40, .ro, 0⟩, ⟨39, 32, .ro, 0⟩, ⟨23, 16, .ro, 0⟩, ⟨7, 0, .ro, 0⟩]⟩,
   ⟨0x1800018, [], [⟨9, 0, .rw, 384⟩]⟩,
   ⟨0x1800020, [], [⟨63, 32, .rc, 0⟩, ⟨31, 16, .rc, 0⟩, ⟨15, 0, .rc, 0⟩]⟩,
   ⟨0x1800300, [(8, 0x8)], [⟨43, 32, .ro, 0⟩, ⟨15, 0, .ro, 0⟩]⟩,
   ⟨0x1820000, [(512, 0x8)], [⟨63, 56, .rw, 1⟩, ⟨55, 48, .rw, 1⟩, ⟨47, 40, .rw, 1⟩, ⟨39, 32, .rw, 1⟩, ⟨31, 24, .rw, 1⟩, ⟨23, 16, .rw, 1⟩, ⟨15, 8, .rw, 1⟩, ⟨7, 0, .rw, 1⟩]⟩]

/-- All registers of block SD. -/
def regsSD : List RegWord := regsSD0

/-- Registers of block ST (offsets in the window, Table 18.4). -/
def regsST0 : List RegWord :=
  [⟨0x1e00000, [], [⟨15, 8, .rw, 2⟩, ⟨0, 0, .rw, 1⟩]⟩,
   ⟨0x1e00008, [], [⟨48, 32, .ro, 0⟩, ⟨3, 3, .w1c, 0⟩, ⟨2, 2, .w1c, 0⟩, ⟨1, 1, .ro, 0⟩, ⟨0, 0, .ro, 0⟩]⟩,
   ⟨0x1e00010, [], [⟨63, 48, .rc, 0⟩, ⟨47, 32, .rc, 0⟩, ⟨31, 24, .rc, 0⟩, ⟨23, 16, .rc, 0⟩, ⟨15, 8, .rc, 0⟩, ⟨7, 0, .rc, 0⟩]⟩,
   ⟨0x1e00018, [], [⟨63, 32, .rc, 0⟩, ⟨31, 0, .rc, 0⟩]⟩,
   ⟨0x1e00020, [], [⟨63, 63, .rw, 0⟩, ⟨51, 21, .rw, 0⟩]⟩,
   ⟨0x1e00028, [], [⟨63, 63, .rw, 0⟩, ⟨51, 21, .rw, 0⟩, ⟨15, 0, .rw, 0⟩]⟩,
   ⟨0x1e10000, [(4096, 0x20)], [⟨63, 32, .rw, 0x38d1b717⟩, ⟨31, 0, .rw, 0⟩]⟩,
   ⟨0x1e10008, [(4096, 0x20)], [⟨63, 32, .rw, 0x3f666666⟩, ⟨31, 0, .rw, 0x3f7fbe77⟩]⟩,
   ⟨0x1e10010, [(4096, 0x20)], [⟨63, 32, .rw, 0x322bcc77⟩, ⟨31, 0, .rw, 0x3f800000⟩]⟩,
   ⟨0x1e10018, [(4096, 0x20)], [⟨0, 0, .rw, 0⟩]⟩,
   ⟨0x1c00000, [], [⟨44, 32, .ro, 0⟩, ⟨11, 8, .ro, 0⟩, ⟨4, 4, .w1c, 0⟩, ⟨3, 3, .w1c, 0⟩, ⟨2, 2, .w1c, 0⟩, ⟨1, 1, .w1c, 0⟩, ⟨0, 0, .ro, 0⟩]⟩,
   ⟨0x1c00008, [], [⟨63, 63, .rw, 0⟩, ⟨51, 22, .rw, 0⟩]⟩]

/-- Registers of block ST, continued. -/
def regsST1 : List RegWord :=
  [⟨0x1c00010, [], [⟨63, 63, .rw, 0⟩, ⟨51, 21, .rw, 0⟩, ⟨15, 0, .rw, 0⟩]⟩,
   ⟨0x1c00018, [], [⟨55, 32, .rw, 65536⟩, ⟨15, 0, .rw, 4096⟩]⟩,
   ⟨0x1c00100, [(8, 0x8)], [⟨63, 0, .rw, 0⟩]⟩,
   ⟨0x1c00140, [], [⟨63, 63, .w1s, 0⟩, ⟨62, 62, .ro, 0⟩, ⟨55, 48, .ro, 0⟩, ⟨35, 32, .rw, 0⟩, ⟨15, 0, .rw, 0⟩]⟩,
   ⟨0x1c00150, [], [⟨51, 0, .rw, 0⟩]⟩,
   ⟨0x1c00158, [], [⟨63, 63, .w1s, 0⟩, ⟨62, 62, .ro, 0⟩, ⟨61, 61, .rw, 0⟩, ⟨55, 48, .ro, 0⟩, ⟨37, 32, .rw, 0⟩, ⟨31, 0, .rw, 0⟩]⟩,
   ⟨0x1c00160, [], [⟨63, 48, .rc, 0⟩, ⟨47, 32, .rc, 0⟩, ⟨31, 16, .rc, 0⟩, ⟨15, 8, .rc, 0⟩, ⟨7, 0, .rc, 0⟩]⟩,
   ⟨0x1c00168, [], [⟨63, 32, .rc, 0⟩, ⟨31, 16, .rc, 0⟩, ⟨15, 8, .rc, 0⟩, ⟨7, 4, .rc, 0⟩, ⟨3, 0, .rc, 0⟩]⟩,
   ⟨0x1c00170, [], [⟨63, 32, .rc, 0⟩, ⟨31, 16, .rc, 0⟩, ⟨15, 0, .rc, 0⟩]⟩,
   ⟨0x1c00180, [(16, 0x8)], [⟨63, 63, .rw, 0⟩, ⟨31, 16, .rw, 0⟩, ⟨15, 0, .rw, 0⟩]⟩,
   ⟨0x1c10000, [(64, 0x40)], [⟨63, 63, .rw, 0⟩, ⟨62, 61, .rw, 0⟩, ⟨60, 60, .rw, 0⟩, ⟨59, 58, .rw, 0⟩, ⟨57, 57, .rw, 0⟩, ⟨56, 56, .rw, 0⟩, ⟨55, 52, .rw, 0⟩, ⟨51, 40, .rw, 0⟩, ⟨37, 32, .rw, 0⟩, ⟨29, 24, .rw, 0⟩, ⟨12, 0, .rw, 0⟩]⟩,
   ⟨0x1c10008, [(64, 0x40)], [⟨63, 47, .rw, 0⟩, ⟨34, 0, .rw, 0⟩]⟩]

/-- Registers of block ST, continued. -/
def regsST2 : List RegWord :=
  [⟨0x1c10010, [(64, 0x40)], [⟨63, 32, .rw, 0⟩, ⟨31, 0, .rw, 0⟩]⟩,
   ⟨0x1c10018, [(64, 0x40)], [⟨63, 32, .ro, 0⟩, ⟨29, 0, .rw, 0⟩]⟩,
   ⟨0x1c10020, [(64, 0x40)], [⟨51, 0, .rw, 0⟩]⟩,
   ⟨0x1c10028, [(64, 0x40)], [⟨51, 0, .rw, 0⟩]⟩,
   ⟨0x1c10030, [(64, 0x40)], [⟨51, 0, .rw, 0⟩]⟩,
   ⟨0x1c10038, [(64, 0x40)], [⟨51, 0, .rw, 0⟩]⟩,
   ⟨0x1e80000, [(512, 0x8)], [⟨63, 63, .rw, 0⟩, ⟨59, 56, .rw, 0⟩, ⟨55, 48, .rw, 0⟩, ⟨31, 0, .rw, 0⟩]⟩]

/-- All registers of block ST. -/
def regsST : List RegWord := regsST0 ++ regsST1 ++ regsST2

/-- Registers of block TM (offsets in the window, Table 18.4). -/
def regsTM0 : List RegWord :=
  [⟨0x2000000, [], [⟨63, 63, .ro, 0⟩, ⟨62, 62, .w1c, 0⟩, ⟨52, 44, .ro, 0⟩, ⟨35, 18, .ro, 0⟩, ⟨17, 0, .ro, 0⟩]⟩,
   ⟨0x2000008, [], [⟨49, 32, .rw, 16384⟩, ⟨17, 0, .rw, 256⟩]⟩,
   ⟨0x2000010, [], [⟨59, 40, .rw, 0x186a0⟩, ⟨39, 20, .rw, 1000⟩, ⟨19, 0, .rw, 50⟩]⟩,
   ⟨0x2000018, [], [⟨2, 0, .ro, 0⟩]⟩,
   ⟨0x2000020, [], [⟨63, 63, .rw, 0⟩, ⟨51, 21, .rw, 0⟩]⟩,
   ⟨0x2000028, [], [⟨5, 5, .w1c, 0⟩, ⟨4, 4, .w1c, 0⟩, ⟨3, 3, .w1c, 0⟩, ⟨2, 2, .w1c, 0⟩, ⟨1, 1, .w1c, 0⟩, ⟨0, 0, .w1c, 0⟩]⟩,
   ⟨0x2000030, [], [⟨5, 0, .rw, 62⟩]⟩,
   ⟨0x2000038, [], [⟨63, 63, .w1s, 0⟩, ⟨62, 62, .ro, 0⟩, ⟨55, 48, .ro, 0⟩, ⟨39, 36, .ro, 0⟩, ⟨35, 32, .rw, 0⟩, ⟨31, 0, .rw, 0⟩]⟩,
   ⟨0x2000040, [], [⟨51, 0, .rw, 0⟩]⟩,
   ⟨0x2000048, [], [⟨63, 0, .rw, 0⟩]⟩,
   ⟨0x2000050, [], [⟨63, 32, .rc, 0⟩, ⟨31, 0, .rc, 0⟩]⟩,
   ⟨0x2000058, [], [⟨63, 48, .rc, 0⟩, ⟨47, 32, .rc, 0⟩, ⟨31, 16, .rc, 0⟩, ⟨15, 0, .rc, 0⟩]⟩]

/-- Registers of block TM, continued. -/
def regsTM1 : List RegWord :=
  [⟨0x2000060, [], [⟨63, 63, .w1c, 0⟩, ⟨62, 59, .ro, 0⟩, ⟨58, 55, .ro, 0⟩, ⟨51, 0, .ro, 0⟩]⟩,
   ⟨0x2000068, [], [⟨53, 36, .ro, 0⟩, ⟨35, 18, .ro, 0⟩, ⟨17, 0, .ro, 0⟩]⟩,
   ⟨0x2000070, [], [⟨63, 32, .rc, 0⟩, ⟨31, 16, .rc, 0⟩, ⟨15, 0, .rc, 0⟩]⟩,
   ⟨0x2000078, [], [⟨63, 48, .rc, 0⟩, ⟨47, 32, .rc, 0⟩, ⟨31, 16, .rc, 0⟩, ⟨15, 0, .rc, 0⟩]⟩,
   ⟨0x2000080, [(4, 0x10)], [⟨51, 0, .ro, 0⟩]⟩,
   ⟨0x2000088, [(4, 0x10)], [⟨31, 0, .ro, 0⟩]⟩,
   ⟨0x20000c0, [], [⟨15, 8, .ro, 0⟩, ⟨7, 0, .rw, 64⟩]⟩,
   ⟨0x2000a00, [(8, 0x10)], [⟨63, 63, .rw, 0⟩, ⟨55, 48, .rw, 0⟩, ⟨47, 40, .rw, 0⟩, ⟨31, 0, .rw, 0⟩]⟩,
   ⟨0x2000a08, [(8, 0x10)], [⟨63, 0, .rw, 0⟩]⟩,
   ⟨0x2000800, [(64, 0x8)], [⟨63, 0, .ro, 0⟩]⟩,
   ⟨0x2000100, [(16, 0x10)], [⟨63, 0, .rc, 0⟩]⟩,
   ⟨0x2000108, [(16, 0x10)], [⟨63, 0, .rc, 0⟩]⟩]

/-- Registers of block TM, continued. -/
def regsTM2 : List RegWord :=
  [⟨0x2000200, [(16, 0x10)], [⟨63, 0, .ro, 0⟩]⟩,
   ⟨0x2000208, [(16, 0x10)], [⟨63, 0, .ro, 0⟩]⟩,
   ⟨0x2001000, [(64, 0x20)], [⟨63, 63, .rw, 0⟩, ⟨62, 62, .rw, 0⟩, ⟨61, 60, .rw, 0⟩, ⟨59, 58, .rw, 0⟩, ⟨51, 21, .rw, 0⟩]⟩,
   ⟨0x2001008, [(64, 0x20)], [⟨31, 0, .rw, 0⟩]⟩,
   ⟨0x2001010, [(64, 0x20)], [⟨63, 0, .rw, 0⟩]⟩,
   ⟨0x2001018, [(64, 0x20)], [⟨31, 0, .rw, 0⟩]⟩]

/-- All registers of block TM. -/
def regsTM : List RegWord := regsTM0 ++ regsTM1 ++ regsTM2

/-- Registers of block SX (offsets in the window, Table 18.4). -/
def regsSX0 : List RegWord :=
  [⟨0x2400000, [], [⟨63, 63, .ro, 0⟩, ⟨62, 62, .w1c, 0⟩, ⟨61, 56, .ro, 0⟩, ⟨13, 8, .ro, 0⟩, ⟨0, 0, .ro, 0⟩]⟩,
   ⟨0x2400008, [], [⟨63, 63, .wl, 0⟩, ⟨15, 7, .wl, 0⟩, ⟨6, 4, .wl, 0⟩, ⟨3, 0, .wl, 0⟩]⟩,
   ⟨0x2400010, [], [⟨47, 32, .rw, 400⟩, ⟨31, 0, .rw, 10000⟩]⟩,
   ⟨0x2400018, [], [⟨19, 0, .rw, 2000⟩]⟩,
   ⟨0x2400020, [], [⟨63, 63, .rw, 0⟩, ⟨51, 21, .rw, 0⟩]⟩,
   ⟨0x2400028, [], [⟨63, 63, .w1s, 0⟩, ⟨55, 48, .ro, 0⟩, ⟨39, 36, .ro, 0⟩]⟩,
   ⟨0x2400030, [], [⟨63, 48, .rc, 0⟩, ⟨47, 32, .rc, 0⟩, ⟨31, 16, .rc, 0⟩, ⟨15, 8, .rc, 0⟩, ⟨7, 0, .rc, 0⟩]⟩,
   ⟨0x2400038, [], [⟨63, 32, .rc, 0⟩, ⟨31, 0, .rc, 0⟩]⟩,
   ⟨0x2400040, [], [⟨63, 32, .rc, 0⟩, ⟨31, 16, .rc, 0⟩, ⟨15, 0, .rc, 0⟩]⟩,
   ⟨0x2400048, [], [⟨63, 63, .w1c, 0⟩, ⟨62, 60, .ro, 0⟩, ⟨59, 51, .ro, 0⟩, ⟨50, 48, .ro, 0⟩, ⟨47, 32, .ro, 0⟩, ⟨31, 0, .ro, 0⟩]⟩,
   ⟨0x2400050, [], [⟨63, 63, .wl, 0⟩, ⟨15, 0, .wl, 0⟩]⟩]

/-- All registers of block SX. -/
def regsSX : List RegWord := regsSX0

/-- Registers of block BC (offsets in the window, Table 18.4). -/
def regsBC0 : List RegWord :=
  [⟨0x2800000, [], [⟨4, 0, .rw, 4⟩]⟩,
   ⟨0x2800100, [(8, 0x10)], [⟨41, 32, .ro, 0⟩, ⟨25, 16, .ro, 0⟩, ⟨9, 0, .ro, 0⟩]⟩,
   ⟨0x2800108, [(8, 0x10)], [⟨63, 32, .rc, 0⟩, ⟨31, 16, .rc, 0⟩, ⟨15, 0, .rc, 0⟩]⟩,
   ⟨0x2800200, [(8, 0x8)], [⟨63, 0, .ro, 0⟩]⟩]

/-- All registers of block BC. -/
def regsBC : List RegWord := regsBC0

/-- Registers of block RN (offsets in the window, Table 18.4). -/
def regsRN0 : List RegWord :=
  [⟨0x2c00000, [], [⟨0, 0, .rw, 1⟩]⟩,
   ⟨0x2c00008, [], [⟨63, 32, .rc, 0⟩, ⟨31, 0, .rc, 0⟩]⟩,
   ⟨0x2c00010, [], [⟨63, 32, .rc, 0⟩, ⟨31, 0, .rc, 0⟩]⟩,
   ⟨0x2c00018, [], [⟨63, 32, .rc, 0⟩, ⟨31, 0, .rc, 0⟩]⟩,
   ⟨0x2c00020, [], [⟨63, 63, .w1c, 0⟩, ⟨62, 60, .ro, 0⟩, ⟨59, 57, .ro, 0⟩, ⟨56, 50, .ro, 0⟩, ⟨49, 44, .ro, 0⟩, ⟨31, 0, .ro, 0⟩]⟩,
   ⟨0x2c00028, [], [⟨63, 63, .w1c, 0⟩, ⟨62, 60, .ro, 0⟩, ⟨59, 57, .ro, 0⟩, ⟨56, 50, .ro, 0⟩, ⟨49, 44, .ro, 0⟩, ⟨31, 0, .ro, 0⟩]⟩,
   ⟨0x2c00100, [(8, 0x8)], [⟨63, 32, .rc, 0⟩, ⟨11, 0, .ro, 0⟩]⟩]

/-- All registers of block RN. -/
def regsRN : List RegWord := regsRN0

/-- Registers of block HA (offsets within a Harness range, Table 18.2). -/
def regsHA0 : List RegWord :=
  [⟨0x0, [], [⟨16, 16, .rw, 1⟩, ⟨15, 8, .rw, 64⟩, ⟨7, 0, .rw, 255⟩]⟩,
   ⟨0x8, [], [⟨43, 32, .ro, 0⟩, ⟨27, 16, .ro, 0⟩, ⟨15, 0, .ro, 0⟩]⟩,
   ⟨0x10, [], [⟨63, 32, .rc, 0⟩, ⟨31, 16, .rc, 0⟩, ⟨15, 0, .rc, 0⟩]⟩,
   ⟨0x100000, [(66, 0x2000)], [⟨55, 48, .ro, 0⟩, ⟨39, 36, .ro, 0⟩, ⟨35, 34, .ro, 0⟩, ⟨33, 33, .ro, 0⟩, ⟨32, 32, .ro, 0⟩, ⟨31, 0, .ro, 0⟩]⟩,
   ⟨0x100008, [(66, 0x2000)], [⟨63, 32, .ro, 0⟩, ⟨31, 28, .ro, 0⟩, ⟨27, 24, .ro, 0⟩, ⟨23, 23, .ro, 0⟩, ⟨12, 8, .ro, 0⟩]⟩,
   ⟨0x100010, [(66, 0x2000)], [⟨63, 32, .ro, 0⟩, ⟨31, 0, .ro, 0⟩]⟩,
   ⟨0x100018, [(66, 0x2000)], [⟨63, 32, .rc, 0⟩, ⟨31, 16, .rc, 0⟩, ⟨15, 0, .rc, 0⟩]⟩,
   ⟨0x100020, [(66, 0x2000)], [⟨63, 32, .rc, 0⟩, ⟨31, 0, .rc, 0⟩]⟩,
   ⟨0x100028, [(66, 0x2000)], [⟨63, 32, .rc, 0⟩, ⟨31, 0, .rc, 0⟩]⟩,
   ⟨0x10000, [], [⟨8, 8, .w1s, 0⟩, ⟨0, 0, .rw, 0⟩]⟩,
   ⟨0x10008, [], [⟨63, 56, .ro, 0⟩, ⟨50, 40, .ro, 0⟩, ⟨39, 32, .ro, 0⟩, ⟨12, 8, .ro, 0⟩, ⟨7, 4, .ro, 0⟩, ⟨3, 3, .w1c, 0⟩, ⟨2, 2, .w1c, 0⟩, ⟨1, 1, .ro, 0⟩, ⟨0, 0, .ro, 0⟩]⟩,
   ⟨0x10010, [], [⟨63, 48, .rc, 0⟩, ⟨47, 32, .rc, 0⟩, ⟨31, 16, .rc, 0⟩, ⟨15, 0, .rc, 0⟩]⟩]

/-- Registers of block HA, continued. -/
def regsHA1 : List RegWord :=
  [⟨0x10018, [], [⟨63, 32, .rc, 0⟩, ⟨31, 0, .rc, 0⟩]⟩,
   ⟨0x10040, [(8, 0x8)], [⟨63, 48, .rw, 0⟩, ⟨47, 32, .rw, 0⟩, ⟨4, 0, .rw, 0⟩]⟩,
   ⟨0x14000, [(32, 0x200), (64, 0x8)], [⟨63, 0, .rw, 0⟩]⟩]

/-- All registers of block HA. -/
def regsHA : List RegWord := regsHA0 ++ regsHA1

/-- R425: the block of an offset (4 MiB ranges below 0x300_0000, then eight Harness ranges of 2 MiB). -/
def blockRegs (off : Nat) : List RegWord :=
  match off / 0x400000 with
  | 0 => regsCU
  | 1 => regsBD
  | 2 => regsPM
  | 3 => regsSS
  | 4 => regsLS
  | 5 => regsWP
  | 6 => regsSD
  | 7 => regsST
  | 8 => regsTM
  | 9 => regsSX
  | 10 => regsBC
  | 11 => regsRN
  | _ => regsHA

/-- The offset a block's table is searched by: Harness ranges are searched by the offset within them. -/
def blockOffset (off : Nat) : Nat :=
  if off < 0x3000000 then off else (off - 0x3000000) % 0x200000

/-- R427: the register word at an offset of the window, if one is assigned there. -/
def findReg (off : Nat) : Option RegWord :=
  if off < 0x4000000 then (blockRegs off).find? (fun r => coversReg r (blockOffset off)) else none

/-! The fields by name: `REGISTER.FIELD`, with the register's indices as arguments. -/

/-- Field LS_CTRL.CARDS_ENABLE. -/
def LS_CTRL.CARDS_ENABLE : Fld := ⟨0x1000000, 1, 1⟩
/-- Field LS_CTRL.REBASE. -/
def LS_CTRL.REBASE : Fld := ⟨0x1000000, 0, 0⟩
/-- Field LS_STATUS.PHASE. -/
def LS_STATUS.PHASE : Fld := ⟨0x1000008, 63, 62⟩
/-- Field LS_STATUS.PASS. -/
def LS_STATUS.PASS : Fld := ⟨0x1000008, 61, 60⟩
/-- Field LS_STATUS.ANGLE_OVERRUN. -/
def LS_STATUS.ANGLE_OVERRUN : Fld := ⟨0x1000008, 5, 5⟩
/-- Field LS_STATUS.ANGLE_REJECT. -/
def LS_STATUS.ANGLE_REJECT : Fld := ⟨0x1000008, 4, 4⟩
/-- Field LS_STATUS.ANGLE_STALL. -/
def LS_STATUS.ANGLE_STALL : Fld := ⟨0x1000008, 3, 3⟩
/-- Field LS_STATUS.CARD_COMMIT_PENDING. -/
def LS_STATUS.CARD_COMMIT_PENDING : Fld := ⟨0x1000008, 2, 2⟩
/-- Field LS_STATUS.IN_BOUNDARY. -/
def LS_STATUS.IN_BOUNDARY : Fld := ⟨0x1000008, 1, 1⟩
/-- Field LS_STATUS.REVOLUTION_VALID. -/
def LS_STATUS.REVOLUTION_VALID : Fld := ⟨0x1000008, 0, 0⟩
/-- Field LS_ANGLE_CURRENT.ANGLE. -/
def LS_ANGLE_CURRENT.ANGLE : Fld := ⟨0x1000010, 63, 0⟩
/-- Field LS_ANGLE_REJECTED.ANGLE. -/
def LS_ANGLE_REJECTED.ANGLE : Fld := ⟨0x1000018, 63, 0⟩
/-- Field LS_ANGLE_WATCHDOG.LIMIT_US. -/
def LS_ANGLE_WATCHDOG.LIMIT_US : Fld := ⟨0x1000020, 23, 0⟩
/-- Field LS_ANGLE_EVENTS.REPEAT. -/
def LS_ANGLE_EVENTS.REPEAT : Fld := ⟨0x1000028, 63, 48⟩
/-- Field LS_ANGLE_EVENTS.BACKWARD. -/
def LS_ANGLE_EVENTS.BACKWARD : Fld := ⟨0x1000028, 47, 32⟩
/-- Field LS_ANGLE_EVENTS.ILLEGAL. -/
def LS_ANGLE_EVENTS.ILLEGAL : Fld := ⟨0x1000028, 31, 16⟩
/-- Field LS_ANGLE_EVENTS.OVERRUN. -/
def LS_ANGLE_EVENTS.OVERRUN : Fld := ⟨0x1000028, 15, 8⟩
/-- Field LS_ANGLE_EVENTS.EARLY. -/
def LS_ANGLE_EVENTS.EARLY : Fld := ⟨0x1000028, 7, 0⟩
/-- Field LS_CARD_COMMIT.COMMIT. -/
def LS_CARD_COMMIT.COMMIT : Fld := ⟨0x1000030, 0, 0⟩
/-- Field LS_CARD_STATUS.FIRST_BAD_INDEX. -/
def LS_CARD_STATUS.FIRST_BAD_INDEX : Fld := ⟨0x1000038, 44, 32⟩
/-- Field LS_CARD_STATUS.REASON. -/
def LS_CARD_STATUS.REASON : Fld := ⟨0x1000038, 31, 24⟩
/-- Field LS_CARD_STATUS.COMMIT_FAILED. -/
def LS_CARD_STATUS.COMMIT_FAILED : Fld := ⟨0x1000038, 0, 0⟩
/-- Field LS_CARD_EVENTS.FIRED. -/
def LS_CARD_EVENTS.FIRED : Fld := ⟨0x1000040, 63, 32⟩
/-- Field LS_CARD_EVENTS.LATE. -/
def LS_CARD_EVENTS.LATE : Fld := ⟨0x1000040, 31, 16⟩
/-- Field LS_CARD_EVENTS.DROPPED. -/
def LS_CARD_EVENTS.DROPPED : Fld := ⟨0x1000040, 15, 0⟩
/-- Field LS_CARD_REJECT.WINNER. -/
def LS_CARD_REJECT.WINNER : Fld := ⟨0x1000048, 51, 48⟩
/-- Field LS_CARD_REJECT.INDEX. -/
def LS_CARD_REJECT.INDEX : Fld := ⟨0x1000048, 44, 32⟩
/-- Field LS_CARD_REJECT.ACTION. -/
def LS_CARD_REJECT.ACTION : Fld := ⟨0x1000048, 23, 16⟩
/-- Field LS_CARD_REJECT.TARGET. -/
def LS_CARD_REJECT.TARGET : Fld := ⟨0x1000048, 15, 0⟩
/-- Field LS_MBOX_ARG.ARGUMENT. -/
def LS_MBOX_ARG.ARGUMENT : Fld := ⟨0x1000050, 63, 0⟩
/-- Field LS_MBOX_ORDER.GO. -/
def LS_MBOX_ORDER.GO : Fld := ⟨0x1000058, 63, 63⟩
/-- Field LS_MBOX_ORDER.ACTION. -/
def LS_MBOX_ORDER.ACTION : Fld := ⟨0x1000058, 23, 16⟩
/-- Field LS_MBOX_ORDER.TARGET. -/
def LS_MBOX_ORDER.TARGET : Fld := ⟨0x1000058, 15, 0⟩
/-- Field LS_MBOX_STATUS.BUSY. -/
def LS_MBOX_STATUS.BUSY : Fld := ⟨0x1000060, 63, 63⟩
/-- Field LS_MBOX_STATUS.STATUS. -/
def LS_MBOX_STATUS.STATUS : Fld := ⟨0x1000060, 15, 8⟩
/-- Field LS_MBOX_STATUS.WINNER. -/
def LS_MBOX_STATUS.WINNER : Fld := ⟨0x1000060, 3, 0⟩
/-- Field WP_STATUS.LINK_UP. -/
def WP_STATUS.LINK_UP : Fld := ⟨0x1400000, 47, 40⟩
/-- Field WP_STATUS.WIN_READY. -/
def WP_STATUS.WIN_READY : Fld := ⟨0x1400000, 39, 32⟩
/-- Field WP_STATUS.DESYNC. -/
def WP_STATUS.DESYNC : Fld := ⟨0x1400000, 17, 10⟩
/-- Field WP_STATUS.IRQ_DONE. -/
def WP_STATUS.IRQ_DONE : Fld := ⟨0x1400000, 9, 9⟩
/-- Field WP_STATUS.INGRESS_OVERRUN. -/
def WP_STATUS.INGRESS_OVERRUN : Fld := ⟨0x1400000, 8, 8⟩
/-- Field WP_STATUS.BOLTS_IN_FLIGHT. -/
def WP_STATUS.BOLTS_IN_FLIGHT : Fld := ⟨0x1400000, 6, 0⟩
/-- Field WP_IRQ_CTRL.ENABLE. -/
def WP_IRQ_CTRL.ENABLE : Fld := ⟨0x1400008, 63, 63⟩
/-- Field WP_IRQ_CTRL.HOLDOFF_US. -/
def WP_IRQ_CTRL.HOLDOFF_US : Fld := ⟨0x1400008, 31, 16⟩
/-- Field WP_IRQ_CTRL.THRESHOLD. -/
def WP_IRQ_CTRL.THRESHOLD : Fld := ⟨0x1400008, 7, 0⟩
/-- Field WP_CPL_PENDING.COUNT. -/
def WP_CPL_PENDING.COUNT : Fld := ⟨0x1400010, 15, 0⟩
/-- Field WP_REPLAY_CTRL.HIGH_WATER. -/
def WP_REPLAY_CTRL.HIGH_WATER : Fld := ⟨0x1400018, 37, 32⟩
/-- Field WP_REPLAY_CTRL.READY_MARGIN. -/
def WP_REPLAY_CTRL.READY_MARGIN : Fld := ⟨0x1400018, 9, 0⟩
/-- Field WP_BOLT_EVENTS.COMPLETED. -/
def WP_BOLT_EVENTS.COMPLETED : Fld := ⟨0x1400020, 63, 32⟩
/-- Field WP_BOLT_EVENTS.REFUSED. -/
def WP_BOLT_EVENTS.REFUSED : Fld := ⟨0x1400020, 31, 16⟩
/-- Field WP_BOLT_EVENTS.REPLAYED. -/
def WP_BOLT_EVENTS.REPLAYED : Fld := ⟨0x1400020, 15, 0⟩
/-- Field WP_LINK_EVENTS.READY_LOW. -/
def WP_LINK_EVENTS.READY_LOW (h : Nat) : Fld := ⟨0x1400040+h*0x8, 63, 32⟩
/-- Field WP_LINK_EVENTS.CRC_RETRY. -/
def WP_LINK_EVENTS.CRC_RETRY (h : Nat) : Fld := ⟨0x1400040+h*0x8, 31, 16⟩
/-- Field WP_LINK_EVENTS.OVERRUN. -/
def WP_LINK_EVENTS.OVERRUN (h : Nat) : Fld := ⟨0x1400040+h*0x8, 15, 0⟩
/-- Field ALLOC_CTRL.SPAN_CORES. -/
def ALLOC_CTRL.SPAN_CORES (h : Nat) : Fld := ⟨0x3000000+h*0x200000, 16, 16⟩
/-- Field ALLOC_CTRL.W_MAX_ROWS. -/
def ALLOC_CTRL.W_MAX_ROWS (h : Nat) : Fld := ⟨0x3000000+h*0x200000, 15, 8⟩
/-- Field ALLOC_CTRL.MAX_COPIES. -/
def ALLOC_CTRL.MAX_COPIES (h : Nat) : Fld := ⟨0x3000000+h*0x200000, 7, 0⟩
/-- Field ALLOC_STATUS.SEGMENTS_USABLE. -/
def ALLOC_STATUS.SEGMENTS_USABLE (h : Nat) : Fld := ⟨0x3000008+h*0x200000, 43, 32⟩
/-- Field ALLOC_STATUS.SEGMENTS_PLACED. -/
def ALLOC_STATUS.SEGMENTS_PLACED (h : Nat) : Fld := ⟨0x3000008+h*0x200000, 27, 16⟩
/-- Field ALLOC_STATUS.GANGS_DEFERRED. -/
def ALLOC_STATUS.GANGS_DEFERRED (h : Nat) : Fld := ⟨0x3000008+h*0x200000, 15, 0⟩
/-- Field ALLOC_EVENTS.PLACEMENTS. -/
def ALLOC_EVENTS.PLACEMENTS (h : Nat) : Fld := ⟨0x3000010+h*0x200000, 63, 32⟩
/-- Field ALLOC_EVENTS.SPANNING. -/
def ALLOC_EVENTS.SPANNING (h : Nat) : Fld := ⟨0x3000010+h*0x200000, 31, 16⟩
/-- Field ALLOC_EVENTS.DEFERRED. -/
def ALLOC_EVENTS.DEFERRED (h : Nat) : Fld := ⟨0x3000010+h*0x200000, 15, 0⟩
/-- Field CORE_STATUS.SPARE_FOR. -/
def CORE_STATUS.SPARE_FOR (h c : Nat) : Fld := ⟨0x3100000+h*0x200000+c*0x2000, 55, 48⟩
/-- Field CORE_STATUS.SERVICE. -/
def CORE_STATUS.SERVICE (h c : Nat) : Fld := ⟨0x3100000+h*0x200000+c*0x2000, 39, 36⟩
/-- Field CORE_STATUS.POWER. -/
def CORE_STATUS.POWER (h c : Nat) : Fld := ⟨0x3100000+h*0x200000+c*0x2000, 35, 34⟩
/-- Field CORE_STATUS.HALTED. -/
def CORE_STATUS.HALTED (h c : Nat) : Fld := ⟨0x3100000+h*0x200000+c*0x2000, 33, 33⟩
/-- Field CORE_STATUS.LOAD_BUSY. -/
def CORE_STATUS.LOAD_BUSY (h c : Nat) : Fld := ⟨0x3100000+h*0x200000+c*0x2000, 32, 32⟩
/-- Field CORE_STATUS.FRONT. -/
def CORE_STATUS.FRONT (h c : Nat) : Fld := ⟨0x3100000+h*0x200000+c*0x2000, 31, 0⟩
/-- Field PICK_STATUS.PICK_ID. -/
def PICK_STATUS.PICK_ID (h c : Nat) : Fld := ⟨0x3100008+h*0x200000+c*0x2000, 63, 32⟩
/-- Field PICK_STATUS.KIND. -/
def PICK_STATUS.KIND (h c : Nat) : Fld := ⟨0x3100008+h*0x200000+c*0x2000, 31, 28⟩
/-- Field PICK_STATUS.WAIT_CAUSE. -/
def PICK_STATUS.WAIT_CAUSE (h c : Nat) : Fld := ⟨0x3100008+h*0x200000+c*0x2000, 27, 24⟩
/-- Field PICK_STATUS.WAITING. -/
def PICK_STATUS.WAITING (h c : Nat) : Fld := ⟨0x3100008+h*0x200000+c*0x2000, 23, 23⟩
/-- Field PICK_STATUS.QUEUED. -/
def PICK_STATUS.QUEUED (h c : Nat) : Fld := ⟨0x3100008+h*0x200000+c*0x2000, 12, 8⟩
/-- Field SEG_ALLOC.HALF. -/
def SEG_ALLOC.HALF (h c : Nat) : Fld := ⟨0x3100010+h*0x200000+c*0x2000, 63, 32⟩
/-- Field SEG_ALLOC.BUSY. -/
def SEG_ALLOC.BUSY (h c : Nat) : Fld := ⟨0x3100010+h*0x200000+c*0x2000, 31, 0⟩
/-- Field PICK_EVENTS.RETIRED. -/
def PICK_EVENTS.RETIRED (h c : Nat) : Fld := ⟨0x3100018+h*0x200000+c*0x2000, 63, 32⟩
/-- Field PICK_EVENTS.BLOCKS. -/
def PICK_EVENTS.BLOCKS (h c : Nat) : Fld := ⟨0x3100018+h*0x200000+c*0x2000, 31, 16⟩
/-- Field PICK_EVENTS.RAMPS. -/
def PICK_EVENTS.RAMPS (h c : Nat) : Fld := ⟨0x3100018+h*0x200000+c*0x2000, 15, 0⟩
/-- Field CYCLES.MAC_CYCLES. -/
def CYCLES.MAC_CYCLES (h c : Nat) : Fld := ⟨0x3100020+h*0x200000+c*0x2000, 63, 32⟩
/-- Field CYCLES.WAIT_CYCLES. -/
def CYCLES.WAIT_CYCLES (h c : Nat) : Fld := ⟨0x3100020+h*0x200000+c*0x2000, 31, 0⟩
/-- Field LOAD_EVENTS.LOAD_CYCLES. -/
def LOAD_EVENTS.LOAD_CYCLES (h c : Nat) : Fld := ⟨0x3100028+h*0x200000+c*0x2000, 63, 32⟩
/-- Field LOAD_EVENTS.BUBBLE_CYCLES. -/
def LOAD_EVENTS.BUBBLE_CYCLES (h c : Nat) : Fld := ⟨0x3100028+h*0x200000+c*0x2000, 31, 0⟩
/-- Field SD_STATUS.BOOT_RETIRED. -/
def SD_STATUS.BOOT_RETIRED : Fld := ⟨0x1800000, 15, 8⟩
/-- Field SD_STATUS.PROBE_FAILED. -/
def SD_STATUS.PROBE_FAILED : Fld := ⟨0x1800000, 2, 2⟩
/-- Field SD_STATUS.PROBE_DONE. -/
def SD_STATUS.PROBE_DONE : Fld := ⟨0x1800000, 1, 1⟩
/-- Field SD_STATUS.SKEW_READY. -/
def SD_STATUS.SKEW_READY : Fld := ⟨0x1800000, 0, 0⟩
/-- Field SD_CTRL.WINDOW_ROWS. -/
def SD_CTRL.WINDOW_ROWS : Fld := ⟨0x1800008, 31, 16⟩
/-- Field SD_CTRL.PROBE_ON_BOOT. -/
def SD_CTRL.PROBE_ON_BOOT : Fld := ⟨0x1800008, 0, 0⟩
/-- Field SD_SKEW_FAIL.REASON. -/
def SD_SKEW_FAIL.REASON : Fld := ⟨0x1800010, 19, 16⟩
/-- Field SD_SKEW_FAIL.HARNESS. -/
def SD_SKEW_FAIL.HARNESS : Fld := ⟨0x1800010, 10, 8⟩
/-- Field SD_SKEW_FAIL.POSITION. -/
def SD_SKEW_FAIL.POSITION : Fld := ⟨0x1800010, 6, 0⟩
/-- Field SD_ROW_EVENTS.ROWS_COMPACTED. -/
def SD_ROW_EVENTS.ROWS_COMPACTED (h : Nat) : Fld := ⟨0x1800100+h*0x8, 63, 32⟩
/-- Field SD_ROW_EVENTS.ROWS_MOVED_IN. -/
def SD_ROW_EVENTS.ROWS_MOVED_IN (h : Nat) : Fld := ⟨0x1800100+h*0x8, 31, 0⟩
/-- Field SD_TILE_EVENTS.STRIPES_READ. -/
def SD_TILE_EVENTS.STRIPES_READ (h : Nat) : Fld := ⟨0x1800200+h*0x8, 63, 32⟩
/-- Field SD_TILE_EVENTS.OTHER_AXIS. -/
def SD_TILE_EVENTS.OTHER_AXIS (h : Nat) : Fld := ⟨0x1800200+h*0x8, 31, 16⟩
/-- Field SD_TILE_EVENTS.STAGE_FULL. -/
def SD_TILE_EVENTS.STAGE_FULL (h : Nat) : Fld := ⟨0x1800200+h*0x8, 15, 0⟩
/-- Field SD_SKEW.VALID. -/
def SD_SKEW.VALID (h c : Nat) : Fld := ⟨0x1810000+h*0x400+c*0x8, 63, 63⟩
/-- Field SD_SKEW.FAILED. -/
def SD_SKEW.FAILED (h c : Nat) : Fld := ⟨0x1810000+h*0x400+c*0x8, 62, 62⟩
/-- Field SD_SKEW.SPARE_FOR. -/
def SD_SKEW.SPARE_FOR (h c : Nat) : Fld := ⟨0x1810000+h*0x400+c*0x8, 55, 48⟩
/-- Field SD_SKEW.FUSE_CHECK. -/
def SD_SKEW.FUSE_CHECK (h c : Nat) : Fld := ⟨0x1810000+h*0x400+c*0x8, 47, 40⟩
/-- Field SD_SKEW.TABLE_CHECK. -/
def SD_SKEW.TABLE_CHECK (h c : Nat) : Fld := ⟨0x1810000+h*0x400+c*0x8, 39, 32⟩
/-- Field SD_SKEW.MAX_SKEW. -/
def SD_SKEW.MAX_SKEW (h c : Nat) : Fld := ⟨0x1810000+h*0x400+c*0x8, 23, 16⟩
/-- Field SD_SKEW.CORE_SKEW. -/
def SD_SKEW.CORE_SKEW (h c : Nat) : Fld := ⟨0x1810000+h*0x400+c*0x8, 7, 0⟩
/-- Field RN_CTRL.SPILL_ENABLE. -/
def RN_CTRL.SPILL_ENABLE : Fld := ⟨0x2c00000, 0, 0⟩
/-- Field RN_EVENTS.STRANDS. -/
def RN_EVENTS.STRANDS : Fld := ⟨0x2c00008, 63, 32⟩
/-- Field RN_EVENTS.COMBINES. -/
def RN_EVENTS.COMBINES : Fld := ⟨0x2c00008, 31, 0⟩
/-- Field RN_FLAG_EVENTS.SAT_TILES. -/
def RN_FLAG_EVENTS.SAT_TILES : Fld := ⟨0x2c00010, 63, 32⟩
/-- Field RN_FLAG_EVENTS.NAN_TILES. -/
def RN_FLAG_EVENTS.NAN_TILES : Fld := ⟨0x2c00010, 31, 0⟩
/-- Field RN_HAZARD.HAZARD_CYCLES. -/
def RN_HAZARD.HAZARD_CYCLES : Fld := ⟨0x2c00018, 63, 32⟩
/-- Field RN_HAZARD.HAZARD_BLOCKS. -/
def RN_HAZARD.HAZARD_BLOCKS : Fld := ⟨0x2c00018, 31, 0⟩
/-- Field RN_SAT_LOG.VALID. -/
def RN_SAT_LOG.VALID : Fld := ⟨0x2c00020, 63, 63⟩
/-- Field RN_SAT_LOG.SOURCE. -/
def RN_SAT_LOG.SOURCE : Fld := ⟨0x2c00020, 62, 60⟩
/-- Field RN_SAT_LOG.HARNESS. -/
def RN_SAT_LOG.HARNESS : Fld := ⟨0x2c00020, 59, 57⟩
/-- Field RN_SAT_LOG.CORE. -/
def RN_SAT_LOG.CORE : Fld := ⟨0x2c00020, 56, 50⟩
/-- Field RN_SAT_LOG.TILE. -/
def RN_SAT_LOG.TILE : Fld := ⟨0x2c00020, 49, 44⟩
/-- Field RN_SAT_LOG.PICK_ID. -/
def RN_SAT_LOG.PICK_ID : Fld := ⟨0x2c00020, 31, 0⟩
/-- Field RN_NAN_LOG.VALID. -/
def RN_NAN_LOG.VALID : Fld := ⟨0x2c00028, 63, 63⟩
/-- Field RN_NAN_LOG.SOURCE. -/
def RN_NAN_LOG.SOURCE : Fld := ⟨0x2c00028, 62, 60⟩
/-- Field RN_NAN_LOG.HARNESS. -/
def RN_NAN_LOG.HARNESS : Fld := ⟨0x2c00028, 59, 57⟩
/-- Field RN_NAN_LOG.CORE. -/
def RN_NAN_LOG.CORE : Fld := ⟨0x2c00028, 56, 50⟩
/-- Field RN_NAN_LOG.TILE. -/
def RN_NAN_LOG.TILE : Fld := ⟨0x2c00028, 49, 44⟩
/-- Field RN_NAN_LOG.PICK_ID. -/
def RN_NAN_LOG.PICK_ID : Fld := ⟨0x2c00028, 31, 0⟩
/-- Field RN_STORE.SPILLS. -/
def RN_STORE.SPILLS (h : Nat) : Fld := ⟨0x2c00100+h*0x8, 63, 32⟩
/-- Field RN_STORE.USED. -/
def RN_STORE.USED (h : Nat) : Fld := ⟨0x2c00100+h*0x8, 11, 0⟩
/-- Field SV_CTRL.RESUME. -/
def SV_CTRL.RESUME (h : Nat) : Fld := ⟨0x3010000+h*0x200000, 8, 8⟩
/-- Field SV_CTRL.MODE. -/
def SV_CTRL.MODE (h : Nat) : Fld := ⟨0x3010000+h*0x200000, 0, 0⟩
/-- Field SV_STATUS.BLOCK_FAULT. -/
def SV_STATUS.BLOCK_FAULT (h : Nat) : Fld := ⟨0x3010008+h*0x200000, 63, 56⟩
/-- Field SV_STATUS.OPEN_TILES. -/
def SV_STATUS.OPEN_TILES (h : Nat) : Fld := ⟨0x3010008+h*0x200000, 50, 40⟩
/-- Field SV_STATUS.ACTIVE_INSTANCES. -/
def SV_STATUS.ACTIVE_INSTANCES (h : Nat) : Fld := ⟨0x3010008+h*0x200000, 39, 32⟩
/-- Field SV_STATUS.BUSY_SLOTS. -/
def SV_STATUS.BUSY_SLOTS (h : Nat) : Fld := ⟨0x3010008+h*0x200000, 12, 8⟩
/-- Field SV_STATUS.REFUSE_REASON. -/
def SV_STATUS.REFUSE_REASON (h : Nat) : Fld := ⟨0x3010008+h*0x200000, 7, 4⟩
/-- Field SV_STATUS.MAP_REFUSED. -/
def SV_STATUS.MAP_REFUSED (h : Nat) : Fld := ⟨0x3010008+h*0x200000, 3, 3⟩
/-- Field SV_STATUS.PROG_WRITE_REFUSED. -/
def SV_STATUS.PROG_WRITE_REFUSED (h : Nat) : Fld := ⟨0x3010008+h*0x200000, 2, 2⟩
/-- Field SV_STATUS.FORCED. -/
def SV_STATUS.FORCED (h : Nat) : Fld := ⟨0x3010008+h*0x200000, 1, 1⟩
/-- Field SV_STATUS.MODE. -/
def SV_STATUS.MODE (h : Nat) : Fld := ⟨0x3010008+h*0x200000, 0, 0⟩
/-- Field SV_EVENTS.EMPTY. -/
def SV_EVENTS.EMPTY (h : Nat) : Fld := ⟨0x3010010+h*0x200000, 63, 48⟩
/-- Field SV_EVENTS.PERM_RANGE. -/
def SV_EVENTS.PERM_RANGE (h : Nat) : Fld := ⟨0x3010010+h*0x200000, 47, 32⟩
/-- Field SV_EVENTS.NAN. -/
def SV_EVENTS.NAN (h : Nat) : Fld := ⟨0x3010010+h*0x200000, 31, 16⟩
/-- Field SV_EVENTS.SAT. -/
def SV_EVENTS.SAT (h : Nat) : Fld := ⟨0x3010010+h*0x200000, 15, 0⟩
/-- Field SV_CYCLES.ISSUE_CYCLES. -/
def SV_CYCLES.ISSUE_CYCLES (h : Nat) : Fld := ⟨0x3010018+h*0x200000, 63, 32⟩
/-- Field SV_CYCLES.REFUSED_CYCLES. -/
def SV_CYCLES.REFUSED_CYCLES (h : Nat) : Fld := ⟨0x3010018+h*0x200000, 31, 0⟩
/-- Field SV_MAP.SCARRY_INIT. -/
def SV_MAP.SCARRY_INIT (h k : Nat) : Fld := ⟨0x3010040+h*0x200000+k*0x8, 63, 48⟩
/-- Field SV_MAP.VCARRY_INIT. -/
def SV_MAP.VCARRY_INIT (h k : Nat) : Fld := ⟨0x3010040+h*0x200000+k*0x8, 47, 32⟩
/-- Field SV_MAP.SLOT. -/
def SV_MAP.SLOT (h k : Nat) : Fld := ⟨0x3010040+h*0x200000+k*0x8, 4, 0⟩
/-- Field SV_PROG.WORD. -/
def SV_PROG.WORD (h s i : Nat) : Fld := ⟨0x3014000+h*0x200000+s*0x200+i*0x8, 63, 0⟩
/-- Field ST_LEARN_CTRL.CLOSE_LAG. -/
def ST_LEARN_CTRL.CLOSE_LAG : Fld := ⟨0x1e00000, 15, 8⟩
/-- Field ST_LEARN_CTRL.ENABLE. -/
def ST_LEARN_CTRL.ENABLE : Fld := ⟨0x1e00000, 0, 0⟩
/-- Field ST_LEARN_STATUS.LEARNING. -/
def ST_LEARN_STATUS.LEARNING : Fld := ⟨0x1e00008, 48, 32⟩
/-- Field ST_LEARN_STATUS.LATE_GRADIENT. -/
def ST_LEARN_STATUS.LATE_GRADIENT : Fld := ⟨0x1e00008, 3, 3⟩
/-- Field ST_LEARN_STATUS.STASH_FULL. -/
def ST_LEARN_STATUS.STASH_FULL : Fld := ⟨0x1e00008, 2, 2⟩
/-- Field ST_LEARN_STATUS.UPD_ACTIVE. -/
def ST_LEARN_STATUS.UPD_ACTIVE : Fld := ⟨0x1e00008, 1, 1⟩
/-- Field ST_LEARN_STATUS.ALL_CLOSED. -/
def ST_LEARN_STATUS.ALL_CLOSED : Fld := ⟨0x1e00008, 0, 0⟩
/-- Field ST_LEARN_EVENTS.UNPAIRED. -/
def ST_LEARN_EVENTS.UNPAIRED : Fld := ⟨0x1e00010, 63, 48⟩
/-- Field ST_LEARN_EVENTS.LATE_ROWS. -/
def ST_LEARN_EVENTS.LATE_ROWS : Fld := ⟨0x1e00010, 47, 32⟩
/-- Field ST_LEARN_EVENTS.STASH_MISS. -/
def ST_LEARN_EVENTS.STASH_MISS : Fld := ⟨0x1e00010, 31, 24⟩
/-- Field ST_LEARN_EVENTS.SKIPPED. -/
def ST_LEARN_EVENTS.SKIPPED : Fld := ⟨0x1e00010, 23, 16⟩
/-- Field ST_LEARN_EVENTS.COMMIT_DEFERRED. -/
def ST_LEARN_EVENTS.COMMIT_DEFERRED : Fld := ⟨0x1e00010, 15, 8⟩
/-- Field ST_LEARN_EVENTS.UPD_MISSED. -/
def ST_LEARN_EVENTS.UPD_MISSED : Fld := ⟨0x1e00010, 7, 0⟩
/-- Field ST_LEARN_WAIT.WAIT_CYCLES. -/
def ST_LEARN_WAIT.WAIT_CYCLES : Fld := ⟨0x1e00018, 63, 32⟩
/-- Field ST_LEARN_WAIT.INSTANCES. -/
def ST_LEARN_WAIT.INSTANCES : Fld := ⟨0x1e00018, 31, 0⟩
/-- Field ST_LEARN_RECORD_BASE.VALID. -/
def ST_LEARN_RECORD_BASE.VALID : Fld := ⟨0x1e00020, 63, 63⟩
/-- Field ST_LEARN_RECORD_BASE.BASE. -/
def ST_LEARN_RECORD_BASE.BASE : Fld := ⟨0x1e00020, 51, 21⟩
/-- Field ST_LEARN_STASH.VALID. -/
def ST_LEARN_STASH.VALID : Fld := ⟨0x1e00028, 63, 63⟩
/-- Field ST_LEARN_STASH.BASE. -/
def ST_LEARN_STASH.BASE : Fld := ⟨0x1e00028, 51, 21⟩
/-- Field ST_LEARN_STASH.PAGES. -/
def ST_LEARN_STASH.PAGES : Fld := ⟨0x1e00028, 15, 0⟩
/-- Field ST_TP_RATE.LR. -/
def ST_TP_RATE.LR (k : Nat) : Fld := ⟨0x1e10000+k*0x20, 63, 32⟩
/-- Field ST_TP_RATE.WEIGHT_DECAY. -/
def ST_TP_RATE.WEIGHT_DECAY (k : Nat) : Fld := ⟨0x1e10000+k*0x20, 31, 0⟩
/-- Field ST_TP_BETA.BETA1. -/
def ST_TP_BETA.BETA1 (k : Nat) : Fld := ⟨0x1e10008+k*0x20, 63, 32⟩
/-- Field ST_TP_BETA.BETA2. -/
def ST_TP_BETA.BETA2 (k : Nat) : Fld := ⟨0x1e10008+k*0x20, 31, 0⟩
/-- Field ST_TP_EPS.EPSILON. -/
def ST_TP_EPS.EPSILON (k : Nat) : Fld := ⟨0x1e10010+k*0x20, 63, 32⟩
/-- Field ST_TP_EPS.CLIP_NORM. -/
def ST_TP_EPS.CLIP_NORM (k : Nat) : Fld := ⟨0x1e10010+k*0x20, 31, 0⟩
/-- Field ST_TP_CTRL.ENABLE. -/
def ST_TP_CTRL.ENABLE (k : Nat) : Fld := ⟨0x1e10018+k*0x20, 0, 0⟩
/-- Field ST_STATUS.HELD_FLIPS. -/
def ST_STATUS.HELD_FLIPS : Fld := ⟨0x1c00000, 44, 32⟩
/-- Field ST_STATUS.TABLE_REASON. -/
def ST_STATUS.TABLE_REASON : Fld := ⟨0x1c00000, 11, 8⟩
/-- Field ST_STATUS.DIR_NOT_WRITABLE. -/
def ST_STATUS.DIR_NOT_WRITABLE : Fld := ⟨0x1c00000, 4, 4⟩
/-- Field ST_STATUS.TABLE_REFUSED. -/
def ST_STATUS.TABLE_REFUSED : Fld := ⟨0x1c00000, 3, 3⟩
/-- Field ST_STATUS.FREE_EMPTY. -/
def ST_STATUS.FREE_EMPTY : Fld := ⟨0x1c00000, 2, 2⟩
/-- Field ST_STATUS.POOL_EMPTY. -/
def ST_STATUS.POOL_EMPTY : Fld := ⟨0x1c00000, 1, 1⟩
/-- Field ST_STATUS.DIR_READY. -/
def ST_STATUS.DIR_READY : Fld := ⟨0x1c00000, 0, 0⟩
/-- Field ST_DIR_BASE.VALID. -/
def ST_DIR_BASE.VALID : Fld := ⟨0x1c00008, 63, 63⟩
/-- Field ST_DIR_BASE.BASE. -/
def ST_DIR_BASE.BASE : Fld := ⟨0x1c00008, 51, 22⟩
/-- Field ST_RUN_POOL.VALID. -/
def ST_RUN_POOL.VALID : Fld := ⟨0x1c00010, 63, 63⟩
/-- Field ST_RUN_POOL.BASE. -/
def ST_RUN_POOL.BASE : Fld := ⟨0x1c00010, 51, 21⟩
/-- Field ST_RUN_POOL.PAGES. -/
def ST_RUN_POOL.PAGES : Fld := ⟨0x1c00010, 15, 0⟩
/-- Field ST_HOT_THRESHOLD.REV_ROWS. -/
def ST_HOT_THRESHOLD.REV_ROWS : Fld := ⟨0x1c00018, 55, 32⟩
/-- Field ST_HOT_THRESHOLD.BOLT_ROWS. -/
def ST_HOT_THRESHOLD.BOLT_ROWS : Fld := ⟨0x1c00018, 15, 0⟩
/-- Field ST_DESC_STAGE.WORD. -/
def ST_DESC_STAGE.WORD (i : Nat) : Fld := ⟨0x1c00100+i*0x8, 63, 0⟩
/-- Field ST_DESC_CMD.GO. -/
def ST_DESC_CMD.GO : Fld := ⟨0x1c00140, 63, 63⟩
/-- Field ST_DESC_CMD.BUSY. -/
def ST_DESC_CMD.BUSY : Fld := ⟨0x1c00140, 62, 62⟩
/-- Field ST_DESC_CMD.STATUS. -/
def ST_DESC_CMD.STATUS : Fld := ⟨0x1c00140, 55, 48⟩
/-- Field ST_DESC_CMD.OP. -/
def ST_DESC_CMD.OP : Fld := ⟨0x1c00140, 35, 32⟩
/-- Field ST_DESC_CMD.ADAPTER. -/
def ST_DESC_CMD.ADAPTER : Fld := ⟨0x1c00140, 15, 0⟩
/-- Field ST_REPLACE_SRC.SRC. -/
def ST_REPLACE_SRC.SRC : Fld := ⟨0x1c00150, 51, 0⟩
/-- Field ST_REPLACE_CMD.GO. -/
def ST_REPLACE_CMD.GO : Fld := ⟨0x1c00158, 63, 63⟩
/-- Field ST_REPLACE_CMD.BUSY. -/
def ST_REPLACE_CMD.BUSY : Fld := ⟨0x1c00158, 62, 62⟩
/-- Field ST_REPLACE_CMD.CLEAR. -/
def ST_REPLACE_CMD.CLEAR : Fld := ⟨0x1c00158, 61, 61⟩
/-- Field ST_REPLACE_CMD.STATUS. -/
def ST_REPLACE_CMD.STATUS : Fld := ⟨0x1c00158, 55, 48⟩
/-- Field ST_REPLACE_CMD.TABLE. -/
def ST_REPLACE_CMD.TABLE : Fld := ⟨0x1c00158, 37, 32⟩
/-- Field ST_REPLACE_CMD.ROW. -/
def ST_REPLACE_CMD.ROW : Fld := ⟨0x1c00158, 31, 0⟩
/-- Field ST_VERSION_EVENTS.COMMITTED. -/
def ST_VERSION_EVENTS.COMMITTED : Fld := ⟨0x1c00160, 63, 48⟩
/-- Field ST_VERSION_EVENTS.MISMATCH. -/
def ST_VERSION_EVENTS.MISMATCH : Fld := ⟨0x1c00160, 47, 32⟩
/-- Field ST_VERSION_EVENTS.NO_PENDING. -/
def ST_VERSION_EVENTS.NO_PENDING : Fld := ⟨0x1c00160, 31, 16⟩
/-- Field ST_VERSION_EVENTS.DRAIN_BUSY. -/
def ST_VERSION_EVENTS.DRAIN_BUSY : Fld := ⟨0x1c00160, 15, 8⟩
/-- Field ST_VERSION_EVENTS.POOL_EMPTY. -/
def ST_VERSION_EVENTS.POOL_EMPTY : Fld := ⟨0x1c00160, 7, 0⟩
/-- Field ST_EMBED_EVENTS.LOOKUPS. -/
def ST_EMBED_EVENTS.LOOKUPS : Fld := ⟨0x1c00168, 63, 32⟩
/-- Field ST_EMBED_EVENTS.DEFAULTED. -/
def ST_EMBED_EVENTS.DEFAULTED : Fld := ⟨0x1c00168, 31, 16⟩
/-- Field ST_EMBED_EVENTS.EMPTY_BAGS. -/
def ST_EMBED_EVENTS.EMPTY_BAGS : Fld := ⟨0x1c00168, 15, 8⟩
/-- Field ST_EMBED_EVENTS.OVERLONG. -/
def ST_EMBED_EVENTS.OVERLONG : Fld := ⟨0x1c00168, 7, 4⟩
/-- Field ST_EMBED_EVENTS.WIDTH_MISMATCH. -/
def ST_EMBED_EVENTS.WIDTH_MISMATCH : Fld := ⟨0x1c00168, 3, 0⟩
/-- Field ST_HOT_EVENTS.DEDUP_HITS. -/
def ST_HOT_EVENTS.DEDUP_HITS : Fld := ⟨0x1c00170, 63, 32⟩
/-- Field ST_HOT_EVENTS.SPREAD. -/
def ST_HOT_EVENTS.SPREAD : Fld := ⟨0x1c00170, 31, 16⟩
/-- Field ST_HOT_EVENTS.DEDUP_FULL. -/
def ST_HOT_EVENTS.DEDUP_FULL : Fld := ⟨0x1c00170, 15, 0⟩
/-- Field ST_SHAPE.VALID. -/
def ST_SHAPE.VALID (p : Nat) : Fld := ⟨0x1c00180+p*0x8, 63, 63⟩
/-- Field ST_SHAPE.D_IN. -/
def ST_SHAPE.D_IN (p : Nat) : Fld := ⟨0x1c00180+p*0x8, 31, 16⟩
/-- Field ST_SHAPE.D_OUT. -/
def ST_SHAPE.D_OUT (p : Nat) : Fld := ⟨0x1c00180+p*0x8, 15, 0⟩
/-- Field ST_TABLE.VALID. -/
def ST_TABLE.VALID (k : Nat) : Fld := ⟨0x1c10000+k*0x40, 63, 63⟩
/-- Field ST_TABLE.KIND. -/
def ST_TABLE.KIND (k : Nat) : Fld := ⟨0x1c10000+k*0x40, 62, 61⟩
/-- Field ST_TABLE.READ_MODE. -/
def ST_TABLE.READ_MODE (k : Nat) : Fld := ⟨0x1c10000+k*0x40, 60, 60⟩
/-- Field ST_TABLE.POOL. -/
def ST_TABLE.POOL (k : Nat) : Fld := ⟨0x1c10000+k*0x40, 59, 58⟩
/-- Field ST_TABLE.SHARED. -/
def ST_TABLE.SHARED (k : Nat) : Fld := ⟨0x1c10000+k*0x40, 57, 57⟩
/-- Field ST_TABLE.OP. -/
def ST_TABLE.OP (k : Nat) : Fld := ⟨0x1c10000+k*0x40, 56, 56⟩
/-- Field ST_TABLE.FORMAT. -/
def ST_TABLE.FORMAT (k : Nat) : Fld := ⟨0x1c10000+k*0x40, 55, 52⟩
/-- Field ST_TABLE.TENANT. -/
def ST_TABLE.TENANT (k : Nat) : Fld := ⟨0x1c10000+k*0x40, 51, 40⟩
/-- Field ST_TABLE.COMP_B. -/
def ST_TABLE.COMP_B (k : Nat) : Fld := ⟨0x1c10000+k*0x40, 37, 32⟩
/-- Field ST_TABLE.COMP_A. -/
def ST_TABLE.COMP_A (k : Nat) : Fld := ⟨0x1c10000+k*0x40, 29, 24⟩
/-- Field ST_TABLE.WIDTH. -/
def ST_TABLE.WIDTH (k : Nat) : Fld := ⟨0x1c10000+k*0x40, 12, 0⟩
/-- Field ST_TABLE.SHADOW_SLOTS. -/
def ST_TABLE.SHADOW_SLOTS (k : Nat) : Fld := ⟨0x1c10008+k*0x40, 63, 47⟩
/-- Field ST_TABLE.LOGICAL_ROWS. -/
def ST_TABLE.LOGICAL_ROWS (k : Nat) : Fld := ⟨0x1c10008+k*0x40, 34, 0⟩
/-- Field ST_TABLE.M. -/
def ST_TABLE.M (k : Nat) : Fld := ⟨0x1c10010+k*0x40, 63, 32⟩
/-- Field ST_TABLE.PHYS_ROWS. -/
def ST_TABLE.PHYS_ROWS (k : Nat) : Fld := ⟨0x1c10010+k*0x40, 31, 0⟩
/-- Field ST_TABLE.REVISION. -/
def ST_TABLE.REVISION (k : Nat) : Fld := ⟨0x1c10018+k*0x40, 63, 32⟩
/-- Field ST_TABLE.SEED. -/
def ST_TABLE.SEED (k : Nat) : Fld := ⟨0x1c10018+k*0x40, 29, 0⟩
/-- Field ST_TABLE.POINTER_BASE. -/
def ST_TABLE.POINTER_BASE (k : Nat) : Fld := ⟨0x1c10020+k*0x40, 51, 0⟩
/-- Field ST_TABLE.SLOT_BASE. -/
def ST_TABLE.SLOT_BASE (k : Nat) : Fld := ⟨0x1c10028+k*0x40, 51, 0⟩
/-- Field ST_TABLE.DEFAULT_ROW. -/
def ST_TABLE.DEFAULT_ROW (k : Nat) : Fld := ⟨0x1c10030+k*0x40, 51, 0⟩
/-- Field ST_TABLE.FREE_BASE. -/
def ST_TABLE.FREE_BASE (k : Nat) : Fld := ⟨0x1c10038+k*0x40, 51, 0⟩
/-- Field TM_STATUS.MODE. -/
def TM_STATUS.MODE : Fld := ⟨0x2000000, 63, 63⟩
/-- Field TM_STATUS.REGION_REFUSED. -/
def TM_STATUS.REGION_REFUSED : Fld := ⟨0x2000000, 62, 62⟩
/-- Field TM_STATUS.UNIT_FAILED. -/
def TM_STATUS.UNIT_FAILED : Fld := ⟨0x2000000, 52, 44⟩
/-- Field TM_STATUS.FREE_FRAMES. -/
def TM_STATUS.FREE_FRAMES : Fld := ⟨0x2000000, 35, 18⟩
/-- Field TM_STATUS.DIRTY_FRAMES. -/
def TM_STATUS.DIRTY_FRAMES : Fld := ⟨0x2000000, 17, 0⟩
/-- Field TM_CTRL.DIRTY_LIMIT. -/
def TM_CTRL.DIRTY_LIMIT : Fld := ⟨0x2000008, 49, 32⟩
/-- Field TM_CTRL.FREE_TARGET. -/
def TM_CTRL.FREE_TARGET : Fld := ⟨0x2000008, 17, 0⟩
/-- Field TM_TIER_TIMEOUT.FLASH_US. -/
def TM_TIER_TIMEOUT.FLASH_US : Fld := ⟨0x2000010, 59, 40⟩
/-- Field TM_TIER_TIMEOUT.BOARD_US. -/
def TM_TIER_TIMEOUT.BOARD_US : Fld := ⟨0x2000010, 39, 20⟩
/-- Field TM_TIER_TIMEOUT.BEAM_US. -/
def TM_TIER_TIMEOUT.BEAM_US : Fld := ⟨0x2000010, 19, 0⟩
/-- Field TM_BOARD_CTRL.PORTS. -/
def TM_BOARD_CTRL.PORTS : Fld := ⟨0x2000018, 2, 0⟩
/-- Field TM_SET_BASE.VALID. -/
def TM_SET_BASE.VALID : Fld := ⟨0x2000020, 63, 63⟩
/-- Field TM_SET_BASE.BASE. -/
def TM_SET_BASE.BASE : Fld := ⟨0x2000020, 51, 21⟩
/-- Field TM_IRQ_STATUS.RO_WRITE. -/
def TM_IRQ_STATUS.RO_WRITE : Fld := ⟨0x2000028, 5, 5⟩
/-- Field TM_IRQ_STATUS.UNMAPPED. -/
def TM_IRQ_STATUS.UNMAPPED : Fld := ⟨0x2000028, 4, 4⟩
/-- Field TM_IRQ_STATUS.PAGE_LOST. -/
def TM_IRQ_STATUS.PAGE_LOST : Fld := ⟨0x2000028, 3, 3⟩
/-- Field TM_IRQ_STATUS.POISONED. -/
def TM_IRQ_STATUS.POISONED : Fld := ⟨0x2000028, 2, 2⟩
/-- Field TM_IRQ_STATUS.UNIT_FAILED. -/
def TM_IRQ_STATUS.UNIT_FAILED : Fld := ⟨0x2000028, 1, 1⟩
/-- Field TM_IRQ_STATUS.PREFETCH_NO_ROOM. -/
def TM_IRQ_STATUS.PREFETCH_NO_ROOM : Fld := ⟨0x2000028, 0, 0⟩
/-- Field TM_IRQ_ENABLE.ENABLE. -/
def TM_IRQ_ENABLE.ENABLE : Fld := ⟨0x2000030, 5, 0⟩
/-- Field TM_PAGE_CMD.GO. -/
def TM_PAGE_CMD.GO : Fld := ⟨0x2000038, 63, 63⟩
/-- Field TM_PAGE_CMD.BUSY. -/
def TM_PAGE_CMD.BUSY : Fld := ⟨0x2000038, 62, 62⟩
/-- Field TM_PAGE_CMD.STATUS. -/
def TM_PAGE_CMD.STATUS : Fld := ⟨0x2000038, 55, 48⟩
/-- Field TM_PAGE_CMD.WINNER. -/
def TM_PAGE_CMD.WINNER : Fld := ⟨0x2000038, 39, 36⟩
/-- Field TM_PAGE_CMD.OP. -/
def TM_PAGE_CMD.OP : Fld := ⟨0x2000038, 35, 32⟩
/-- Field TM_PAGE_CMD.COUNT. -/
def TM_PAGE_CMD.COUNT : Fld := ⟨0x2000038, 31, 0⟩
/-- Field TM_PAGE_ADDR.ADDR. -/
def TM_PAGE_ADDR.ADDR : Fld := ⟨0x2000040, 51, 0⟩
/-- Field TM_PAGE_ARG.ARG. -/
def TM_PAGE_ARG.ARG : Fld := ⟨0x2000048, 63, 0⟩
/-- Field TM_FILL_EVENTS.DEMAND_TILES. -/
def TM_FILL_EVENTS.DEMAND_TILES : Fld := ⟨0x2000050, 63, 32⟩
/-- Field TM_FILL_EVENTS.PREFETCH_TILES. -/
def TM_FILL_EVENTS.PREFETCH_TILES : Fld := ⟨0x2000050, 31, 0⟩
/-- Field TM_PIN_EVENTS.CONFLICT. -/
def TM_PIN_EVENTS.CONFLICT : Fld := ⟨0x2000058, 63, 48⟩
/-- Field TM_PIN_EVENTS.NO_ROOM. -/
def TM_PIN_EVENTS.NO_ROOM : Fld := ⟨0x2000058, 47, 32⟩
/-- Field TM_PIN_EVENTS.PREFETCH_WAIT. -/
def TM_PIN_EVENTS.PREFETCH_WAIT : Fld := ⟨0x2000058, 31, 16⟩
/-- Field TM_PIN_EVENTS.REFUSED. -/
def TM_PIN_EVENTS.REFUSED : Fld := ⟨0x2000058, 15, 0⟩
/-- Field TM_FAULT_LOG.VALID. -/
def TM_FAULT_LOG.VALID : Fld := ⟨0x2000060, 63, 63⟩
/-- Field TM_FAULT_LOG.KIND. -/
def TM_FAULT_LOG.KIND : Fld := ⟨0x2000060, 62, 59⟩
/-- Field TM_FAULT_LOG.UNIT. -/
def TM_FAULT_LOG.UNIT : Fld := ⟨0x2000060, 58, 55⟩
/-- Field TM_FAULT_LOG.ADDR. -/
def TM_FAULT_LOG.ADDR : Fld := ⟨0x2000060, 51, 0⟩
/-- Field TM_FRAMES.RESERVED. -/
def TM_FRAMES.RESERVED : Fld := ⟨0x2000068, 53, 36⟩
/-- Field TM_FRAMES.HOME. -/
def TM_FRAMES.HOME : Fld := ⟨0x2000068, 35, 18⟩
/-- Field TM_FRAMES.PINNED. -/
def TM_FRAMES.PINNED : Fld := ⟨0x2000068, 17, 0⟩
/-- Field TM_WRITE_EVENTS.WRITEBACK_TILES. -/
def TM_WRITE_EVENTS.WRITEBACK_TILES : Fld := ⟨0x2000070, 63, 32⟩
/-- Field TM_WRITE_EVENTS.FLUSHES. -/
def TM_WRITE_EVENTS.FLUSHES : Fld := ⟨0x2000070, 31, 16⟩
/-- Field TM_WRITE_EVENTS.RO_WRITES. -/
def TM_WRITE_EVENTS.RO_WRITES : Fld := ⟨0x2000070, 15, 0⟩
/-- Field TM_TIER_EVENTS.REFETCH. -/
def TM_TIER_EVENTS.REFETCH : Fld := ⟨0x2000078, 63, 48⟩
/-- Field TM_TIER_EVENTS.POISONED. -/
def TM_TIER_EVENTS.POISONED : Fld := ⟨0x2000078, 47, 32⟩
/-- Field TM_TIER_EVENTS.LOST_PAGES. -/
def TM_TIER_EVENTS.LOST_PAGES : Fld := ⟨0x2000078, 31, 16⟩
/-- Field TM_TIER_EVENTS.TWILL_SAVED_KIB. -/
def TM_TIER_EVENTS.TWILL_SAVED_KIB : Fld := ⟨0x2000078, 15, 0⟩
/-- Field TM_BOARD_PORT.BASE. -/
def TM_BOARD_PORT.BASE (p : Nat) : Fld := ⟨0x2000080+p*0x10, 51, 0⟩
/-- Field TM_BOARD_PORT.SIZE. -/
def TM_BOARD_PORT.SIZE (p : Nat) : Fld := ⟨0x2000088+p*0x10, 31, 0⟩
/-- Field TM_FLASH_CTRL.BOUND. -/
def TM_FLASH_CTRL.BOUND : Fld := ⟨0x20000c0, 15, 8⟩
/-- Field TM_FLASH_CTRL.DEPTH. -/
def TM_FLASH_CTRL.DEPTH : Fld := ⟨0x20000c0, 7, 0⟩
/-- Field TM_FLASH_NS.VALID. -/
def TM_FLASH_NS.VALID (j : Nat) : Fld := ⟨0x2000a00+j*0x10, 63, 63⟩
/-- Field TM_FLASH_NS.QUEUES. -/
def TM_FLASH_NS.QUEUES (j : Nat) : Fld := ⟨0x2000a00+j*0x10, 55, 48⟩
/-- Field TM_FLASH_NS.LBA_SHIFT. -/
def TM_FLASH_NS.LBA_SHIFT (j : Nat) : Fld := ⟨0x2000a00+j*0x10, 47, 40⟩
/-- Field TM_FLASH_NS.NSID. -/
def TM_FLASH_NS.NSID (j : Nat) : Fld := ⟨0x2000a00+j*0x10, 31, 0⟩
/-- Field TM_FLASH_NS.LBAS. -/
def TM_FLASH_NS.LBAS (j : Nat) : Fld := ⟨0x2000a08+j*0x10, 63, 0⟩
/-- Field TM_SET_PINNED.PINNED. -/
def TM_SET_PINNED.PINNED (j : Nat) : Fld := ⟨0x2000800+j*0x8, 63, 0⟩
/-- Field TM_STALL_CORE.CYCLES. -/
def TM_STALL_CORE.CYCLES (i : Nat) : Fld := ⟨0x2000100+i*0x10, 63, 0⟩
/-- Field TM_STALL_BOLT.CYCLES. -/
def TM_STALL_BOLT.CYCLES (i : Nat) : Fld := ⟨0x2000108+i*0x10, 63, 0⟩
/-- Field TM_STALL_SNAP.CORE. -/
def TM_STALL_SNAP.CORE (i : Nat) : Fld := ⟨0x2000200+i*0x10, 63, 0⟩
/-- Field TM_STALL_SNAP.BOLT. -/
def TM_STALL_SNAP.BOLT (i : Nat) : Fld := ⟨0x2000208+i*0x10, 63, 0⟩
/-- Field TM_REGION.VALID. -/
def TM_REGION.VALID (k : Nat) : Fld := ⟨0x2001000+k*0x20, 63, 63⟩
/-- Field TM_REGION.POLICY. -/
def TM_REGION.POLICY (k : Nat) : Fld := ⟨0x2001000+k*0x20, 62, 62⟩
/-- Field TM_REGION.BACKING. -/
def TM_REGION.BACKING (k : Nat) : Fld := ⟨0x2001000+k*0x20, 61, 60⟩
/-- Field TM_REGION.PORT. -/
def TM_REGION.PORT (k : Nat) : Fld := ⟨0x2001000+k*0x20, 59, 58⟩
/-- Field TM_REGION.LOOM_BASE. -/
def TM_REGION.LOOM_BASE (k : Nat) : Fld := ⟨0x2001000+k*0x20, 51, 21⟩
/-- Field TM_REGION.PAGES. -/
def TM_REGION.PAGES (k : Nat) : Fld := ⟨0x2001008+k*0x20, 31, 0⟩
/-- Field TM_REGION.BACK_BASE. -/
def TM_REGION.BACK_BASE (k : Nat) : Fld := ⟨0x2001010+k*0x20, 63, 0⟩
/-- Field TM_REGION.NSID. -/
def TM_REGION.NSID (k : Nat) : Fld := ⟨0x2001018+k*0x20, 31, 0⟩
/-- Field BC_CTRL.HOT_SHIFT. -/
def BC_CTRL.HOT_SHIFT : Fld := ⟨0x2800000, 4, 0⟩
/-- Field BC_SLICE_STATUS.VALID_FRAMES. -/
def BC_SLICE_STATUS.VALID_FRAMES (h : Nat) : Fld := ⟨0x2800100+h*0x10, 41, 32⟩
/-- Field BC_SLICE_STATUS.PINNED_FRAMES. -/
def BC_SLICE_STATUS.PINNED_FRAMES (h : Nat) : Fld := ⟨0x2800100+h*0x10, 25, 16⟩
/-- Field BC_SLICE_STATUS.REFERENCED_FRAMES. -/
def BC_SLICE_STATUS.REFERENCED_FRAMES (h : Nat) : Fld := ⟨0x2800100+h*0x10, 9, 0⟩
/-- Field BC_SLICE_EVENTS.HITS. -/
def BC_SLICE_EVENTS.HITS (h : Nat) : Fld := ⟨0x2800108+h*0x10, 63, 32⟩
/-- Field BC_SLICE_EVENTS.FILLS. -/
def BC_SLICE_EVENTS.FILLS (h : Nat) : Fld := ⟨0x2800108+h*0x10, 31, 16⟩
/-- Field BC_SLICE_EVENTS.EVICTIONS. -/
def BC_SLICE_EVENTS.EVICTIONS (h : Nat) : Fld := ⟨0x2800108+h*0x10, 15, 0⟩
/-- Field BC_SLICE_SNAP.EVENTS. -/
def BC_SLICE_SNAP.EVENTS (h : Nat) : Fld := ⟨0x2800200+h*0x8, 63, 0⟩
/-- Field SX_STATUS.RESHARD_ACTIVE. -/
def SX_STATUS.RESHARD_ACTIVE : Fld := ⟨0x2400000, 63, 63⟩
/-- Field SX_STATUS.RESHARD_FAILED. -/
def SX_STATUS.RESHARD_FAILED : Fld := ⟨0x2400000, 62, 62⟩
/-- Field SX_STATUS.PLAN. -/
def SX_STATUS.PLAN : Fld := ⟨0x2400000, 61, 56⟩
/-- Field SX_STATUS.REMOTE_BOLTS. -/
def SX_STATUS.REMOTE_BOLTS : Fld := ⟨0x2400000, 13, 8⟩
/-- Field SX_STATUS.KEYS_READY. -/
def SX_STATUS.KEYS_READY : Fld := ⟨0x2400000, 0, 0⟩
/-- Field SX_NODE.VALID. -/
def SX_NODE.VALID : Fld := ⟨0x2400008, 63, 63⟩
/-- Field SX_NODE.MILL. -/
def SX_NODE.MILL : Fld := ⟨0x2400008, 15, 7⟩
/-- Field SX_NODE.HOST. -/
def SX_NODE.HOST : Fld := ⟨0x2400008, 6, 4⟩
/-- Field SX_NODE.HOSTS. -/
def SX_NODE.HOSTS : Fld := ⟨0x2400008, 3, 0⟩
/-- Field SX_CTRL.RATE_GBS. -/
def SX_CTRL.RATE_GBS : Fld := ⟨0x2400010, 47, 32⟩
/-- Field SX_CTRL.DEADLINE_NS. -/
def SX_CTRL.DEADLINE_NS : Fld := ⟨0x2400010, 31, 0⟩
/-- Field SX_PEER_TIMEOUT.LIMIT_US. -/
def SX_PEER_TIMEOUT.LIMIT_US : Fld := ⟨0x2400018, 19, 0⟩
/-- Field SX_PLAN_BASE.VALID. -/
def SX_PLAN_BASE.VALID : Fld := ⟨0x2400020, 63, 63⟩
/-- Field SX_PLAN_BASE.BASE. -/
def SX_PLAN_BASE.BASE : Fld := ⟨0x2400020, 51, 21⟩
/-- Field SX_RESHARD_CMD.ABORT. -/
def SX_RESHARD_CMD.ABORT : Fld := ⟨0x2400028, 63, 63⟩
/-- Field SX_RESHARD_CMD.STATUS. -/
def SX_RESHARD_CMD.STATUS : Fld := ⟨0x2400028, 55, 48⟩
/-- Field SX_RESHARD_CMD.WINNER. -/
def SX_RESHARD_CMD.WINNER : Fld := ⟨0x2400028, 39, 36⟩
/-- Field SX_EVENTS.ROUNDS. -/
def SX_EVENTS.ROUNDS : Fld := ⟨0x2400030, 63, 48⟩
/-- Field SX_EVENTS.LATE_ROWS. -/
def SX_EVENTS.LATE_ROWS : Fld := ⟨0x2400030, 47, 32⟩
/-- Field SX_EVENTS.FAILED_ROWS. -/
def SX_EVENTS.FAILED_ROWS : Fld := ⟨0x2400030, 31, 16⟩
/-- Field SX_EVENTS.TAG_FAIL. -/
def SX_EVENTS.TAG_FAIL : Fld := ⟨0x2400030, 15, 8⟩
/-- Field SX_EVENTS.BEGIN_REFUSED. -/
def SX_EVENTS.BEGIN_REFUSED : Fld := ⟨0x2400030, 7, 0⟩
/-- Field SX_BYTES.KIB_OUT. -/
def SX_BYTES.KIB_OUT : Fld := ⟨0x2400038, 63, 32⟩
/-- Field SX_BYTES.KIB_IN. -/
def SX_BYTES.KIB_IN : Fld := ⟨0x2400038, 31, 0⟩
/-- Field SX_GATHER_EVENTS.CHUNKS_IN. -/
def SX_GATHER_EVENTS.CHUNKS_IN : Fld := ⟨0x2400040, 63, 32⟩
/-- Field SX_GATHER_EVENTS.VERSION_MISMATCH. -/
def SX_GATHER_EVENTS.VERSION_MISMATCH : Fld := ⟨0x2400040, 31, 16⟩
/-- Field SX_GATHER_EVENTS.ADAPTERS_LOST. -/
def SX_GATHER_EVENTS.ADAPTERS_LOST : Fld := ⟨0x2400040, 15, 0⟩
/-- Field SX_FAULT_LOG.VALID. -/
def SX_FAULT_LOG.VALID : Fld := ⟨0x2400048, 63, 63⟩
/-- Field SX_FAULT_LOG.KIND. -/
def SX_FAULT_LOG.KIND : Fld := ⟨0x2400048, 62, 60⟩
/-- Field SX_FAULT_LOG.MILL. -/
def SX_FAULT_LOG.MILL : Fld := ⟨0x2400048, 59, 51⟩
/-- Field SX_FAULT_LOG.HOST. -/
def SX_FAULT_LOG.HOST : Fld := ⟨0x2400048, 50, 48⟩
/-- Field SX_FAULT_LOG.ADAPTER. -/
def SX_FAULT_LOG.ADAPTER : Fld := ⟨0x2400048, 47, 32⟩
/-- Field SX_FAULT_LOG.SEQ. -/
def SX_FAULT_LOG.SEQ : Fld := ⟨0x2400048, 31, 0⟩
/-- Field SX_EPOCH.VALID. -/
def SX_EPOCH.VALID : Fld := ⟨0x2400050, 63, 63⟩
/-- Field SX_EPOCH.EPOCH. -/
def SX_EPOCH.EPOCH : Fld := ⟨0x2400050, 15, 0⟩
/-- Field ST_OWNER_MAP.VALID. -/
def ST_OWNER_MAP.VALID (m : Nat) : Fld := ⟨0x1e80000+m*0x8, 63, 63⟩
/-- Field ST_OWNER_MAP.HOSTS. -/
def ST_OWNER_MAP.HOSTS (m : Nat) : Fld := ⟨0x1e80000+m*0x8, 59, 56⟩
/-- Field ST_OWNER_MAP.ALIVE. -/
def ST_OWNER_MAP.ALIVE (m : Nat) : Fld := ⟨0x1e80000+m*0x8, 55, 48⟩
/-- Field ST_OWNER_MAP.ENDPOINT. -/
def ST_OWNER_MAP.ENDPOINT (m : Nat) : Fld := ⟨0x1e80000+m*0x8, 31, 0⟩
/-- Field LS_SPRINT_ROWS.HOLD_US. -/
def LS_SPRINT_ROWS.HOLD_US : Fld := ⟨0x1000068, 47, 32⟩
/-- Field LS_SPRINT_ROWS.ENABLE. -/
def LS_SPRINT_ROWS.ENABLE : Fld := ⟨0x1000068, 8, 8⟩
/-- Field LS_SPRINT_ROWS.ROWS. -/
def LS_SPRINT_ROWS.ROWS : Fld := ⟨0x1000068, 3, 0⟩
/-- Field LS_SPRINT_EVENTS.SPRINT_BOLTS. -/
def LS_SPRINT_EVENTS.SPRINT_BOLTS : Fld := ⟨0x1000070, 63, 32⟩
/-- Field LS_SPRINT_EVENTS.INELIGIBLE. -/
def LS_SPRINT_EVENTS.INELIGIBLE : Fld := ⟨0x1000070, 31, 16⟩
/-- Field LS_SPRINT_EVENTS.LAST_CYCLES. -/
def LS_SPRINT_EVENTS.LAST_CYCLES : Fld := ⟨0x1000070, 15, 0⟩
/-- Field LS_ANGLE_LAG.OLDEST_US. -/
def LS_ANGLE_LAG.OLDEST_US : Fld := ⟨0x1000078, 63, 32⟩
/-- Field LS_ANGLE_LAG.LAG. -/
def LS_ANGLE_LAG.LAG : Fld := ⟨0x1000078, 21, 0⟩
/-- Field SD_TURN_CTRL.WINDOW_FRAMES. -/
def SD_TURN_CTRL.WINDOW_FRAMES : Fld := ⟨0x1800018, 9, 0⟩
/-- Field SD_TURN_EVENTS.TURNS. -/
def SD_TURN_EVENTS.TURNS : Fld := ⟨0x1800020, 63, 32⟩
/-- Field SD_TURN_EVENTS.SLICED_WINDOWS. -/
def SD_TURN_EVENTS.SLICED_WINDOWS : Fld := ⟨0x1800020, 31, 16⟩
/-- Field SD_TURN_EVENTS.OVERSIZE. -/
def SD_TURN_EVENTS.OVERSIZE : Fld := ⟨0x1800020, 15, 0⟩
/-- Field SD_TURN_STATUS.PTR. -/
def SD_TURN_STATUS.PTR (h : Nat) : Fld := ⟨0x1800300+h*0x8, 43, 32⟩
/-- Field SD_TURN_STATUS.TURN. -/
def SD_TURN_STATUS.TURN (h : Nat) : Fld := ⟨0x1800300+h*0x8, 15, 0⟩
/-- Field SD_TENANT_WEIGHT.WEIGHT. -/
def SD_TENANT_WEIGHT.WEIGHT (j i : Nat) : Fld := ⟨0x1820000+j*0x8, 8*i+7, 8*i⟩
/-- Field SS_STATUS.LIFECYCLE. -/
def SS_STATUS.LIFECYCLE : Fld := ⟨0xc00000, 60, 58⟩
/-- Field SS_STATUS.PENDING_LIFECYCLE. -/
def SS_STATUS.PENDING_LIFECYCLE : Fld := ⟨0xc00000, 57, 55⟩
/-- Field SS_STATUS.LEVEL. -/
def SS_STATUS.LEVEL : Fld := ⟨0xc00000, 54, 53⟩
/-- Field SS_STATUS.POWER. -/
def SS_STATUS.POWER : Fld := ⟨0xc00000, 52, 51⟩
/-- Field SS_STATUS.DEBUGGED. -/
def SS_STATUS.DEBUGGED : Fld := ⟨0xc00000, 50, 50⟩
/-- Field SS_STATUS.GRANT_PENDING. -/
def SS_STATUS.GRANT_PENDING : Fld := ⟨0xc00000, 49, 49⟩
/-- Field SS_STATUS.LOCKOUT. -/
def SS_STATUS.LOCKOUT : Fld := ⟨0xc00000, 48, 48⟩
/-- Field SS_STATUS.RETIRE_AUTH. -/
def SS_STATUS.RETIRE_AUTH : Fld := ⟨0xc00000, 47, 47⟩
/-- Field SS_STATUS.KIK_PRESENT. -/
def SS_STATUS.KIK_PRESENT : Fld := ⟨0xc00000, 46, 46⟩
/-- Field SS_STATUS.DEBUG_KEY_PRESENT. -/
def SS_STATUS.DEBUG_KEY_PRESENT : Fld := ⟨0xc00000, 45, 45⟩
/-- Field SS_STATUS.FAILS. -/
def SS_STATUS.FAILS : Fld := ⟨0xc00000, 39, 36⟩
/-- Field SS_STATUS.KEYS_LOADED. -/
def SS_STATUS.KEYS_LOADED : Fld := ⟨0xc00000, 12, 0⟩
/-- Field SS_DEBUG_CTRL.GO. -/
def SS_DEBUG_CTRL.GO : Fld := ⟨0xc00008, 63, 63⟩
/-- Field SS_DEBUG_CTRL.STATUS. -/
def SS_DEBUG_CTRL.STATUS : Fld := ⟨0xc00008, 15, 8⟩
/-- Field SS_DEBUG_CTRL.REQUEST. -/
def SS_DEBUG_CTRL.REQUEST : Fld := ⟨0xc00008, 1, 0⟩
/-- Field SS_UNLOCK_CMD.NEW. -/
def SS_UNLOCK_CMD.NEW : Fld := ⟨0xc00010, 63, 63⟩
/-- Field SS_UNLOCK_CMD.GO. -/
def SS_UNLOCK_CMD.GO : Fld := ⟨0xc00010, 62, 62⟩
/-- Field SS_UNLOCK_CMD.BUSY. -/
def SS_UNLOCK_CMD.BUSY : Fld := ⟨0xc00010, 61, 61⟩
/-- Field SS_UNLOCK_CMD.STATUS. -/
def SS_UNLOCK_CMD.STATUS : Fld := ⟨0xc00010, 55, 48⟩
/-- Field SS_UNLOCK_CMD.PURPOSE. -/
def SS_UNLOCK_CMD.PURPOSE : Fld := ⟨0xc00010, 7, 0⟩
/-- Field SS_KEY_CMD.GO. -/
def SS_KEY_CMD.GO : Fld := ⟨0xc00020, 63, 63⟩
/-- Field SS_KEY_CMD.BUSY. -/
def SS_KEY_CMD.BUSY : Fld := ⟨0xc00020, 62, 62⟩
/-- Field SS_KEY_CMD.STATUS. -/
def SS_KEY_CMD.STATUS : Fld := ⟨0xc00020, 55, 48⟩
/-- Field SS_KEY_CMD.OP. -/
def SS_KEY_CMD.OP : Fld := ⟨0xc00020, 35, 34⟩
/-- Field SS_KEY_CMD.KIND. -/
def SS_KEY_CMD.KIND : Fld := ⟨0xc00020, 33, 32⟩
/-- Field SS_KEY_CMD.SLOT. -/
def SS_KEY_CMD.SLOT : Fld := ⟨0xc00020, 11, 0⟩
/-- Field SS_LIFECYCLE_CMD.GO. -/
def SS_LIFECYCLE_CMD.GO : Fld := ⟨0xc00028, 63, 63⟩
/-- Field SS_LIFECYCLE_CMD.BUSY. -/
def SS_LIFECYCLE_CMD.BUSY : Fld := ⟨0xc00028, 62, 62⟩
/-- Field SS_LIFECYCLE_CMD.STATUS. -/
def SS_LIFECYCLE_CMD.STATUS : Fld := ⟨0xc00028, 55, 48⟩
/-- Field SS_LIFECYCLE_CMD.TARGET. -/
def SS_LIFECYCLE_CMD.TARGET : Fld := ⟨0xc00028, 2, 0⟩
/-- Field SS_IRQ_STATUS.LIFECYCLE_BURNED. -/
def SS_IRQ_STATUS.LIFECYCLE_BURNED : Fld := ⟨0xc00030, 5, 5⟩
/-- Field SS_IRQ_STATUS.GRANTED. -/
def SS_IRQ_STATUS.GRANTED : Fld := ⟨0xc00030, 4, 4⟩
/-- Field SS_IRQ_STATUS.UNLOCK_FAIL. -/
def SS_IRQ_STATUS.UNLOCK_FAIL : Fld := ⟨0xc00030, 3, 3⟩
/-- Field SS_IRQ_STATUS.LOCKOUT. -/
def SS_IRQ_STATUS.LOCKOUT : Fld := ⟨0xc00030, 2, 2⟩
/-- Field SS_IRQ_STATUS.KEY_ABSENT. -/
def SS_IRQ_STATUS.KEY_ABSENT : Fld := ⟨0xc00030, 1, 1⟩
/-- Field SS_IRQ_STATUS.MISMATCH. -/
def SS_IRQ_STATUS.MISMATCH : Fld := ⟨0xc00030, 0, 0⟩
/-- Field SS_IRQ_ENABLE.ENABLE. -/
def SS_IRQ_ENABLE.ENABLE : Fld := ⟨0xc00038, 5, 0⟩
/-- Field SS_CHALLENGE.WORD. -/
def SS_CHALLENGE.WORD (i : Nat) : Fld := ⟨0xc00040+i*0x8, 63, 0⟩
/-- Field SS_UNLOCK_BUF.WORD. -/
def SS_UNLOCK_BUF.WORD (i : Nat) : Fld := ⟨0xc00080+i*0x8, 63, 0⟩
/-- Field SS_KEY_BUF.WORD. -/
def SS_KEY_BUF.WORD (i : Nat) : Fld := ⟨0xc00180+i*0x8, 63, 0⟩
/-- Field SS_REGION_KEY.ENCRYPT. -/
def SS_REGION_KEY.ENCRYPT (k : Nat) : Fld := ⟨0xc00200+k*0x8, 63, 63⟩
/-- Field SS_REGION_KEY.TENANT. -/
def SS_REGION_KEY.TENANT (k : Nat) : Fld := ⟨0xc00200+k*0x8, 11, 0⟩
/-- Field SS_KEY_VALID.VALID. -/
def SS_KEY_VALID.VALID (j : Nat) : Fld := ⟨0xc00400+j*0x8, 63, 0⟩
/-- Field SS_PROV_BUF.WORD. -/
def SS_PROV_BUF.WORD (i : Nat) : Fld := ⟨0xc00600+i*0x8, 63, 0⟩
/-- Field SS_TENANT_EVENTS.MISMATCH. -/
def SS_TENANT_EVENTS.MISMATCH : Fld := ⟨0xc00700, 63, 32⟩
/-- Field SS_TENANT_EVENTS.KEY_ABSENT. -/
def SS_TENANT_EVENTS.KEY_ABSENT : Fld := ⟨0xc00700, 31, 0⟩
/-- Field SS_TENANT_LOG.VALID. -/
def SS_TENANT_LOG.VALID : Fld := ⟨0xc00708, 63, 63⟩
/-- Field SS_TENANT_LOG.TENANT. -/
def SS_TENANT_LOG.TENANT : Fld := ⟨0xc00708, 59, 48⟩
/-- Field SS_TENANT_LOG.ADAPTER. -/
def SS_TENANT_LOG.ADAPTER : Fld := ⟨0xc00708, 47, 32⟩
/-- Field SS_TENANT_LOG.OWNER. -/
def SS_TENANT_LOG.OWNER : Fld := ⟨0xc00708, 31, 20⟩
/-- Field CU_STATUS.ENGINE_FAILED. -/
def CU_STATUS.ENGINE_FAILED : Fld := ⟨0x1000, 63, 63⟩
/-- Field CU_STATUS.RING_WRAPPED. -/
def CU_STATUS.RING_WRAPPED : Fld := ⟨0x1000, 62, 62⟩
/-- Field CU_STATUS.TALLY_OVERFLOW. -/
def CU_STATUS.TALLY_OVERFLOW : Fld := ⟨0x1000, 61, 61⟩
/-- Field CU_STATUS.HARNESS_RETIRED. -/
def CU_STATUS.HARNESS_RETIRED : Fld := ⟨0x1000, 47, 40⟩
/-- Field CU_STATUS.HARNESS_PENDING. -/
def CU_STATUS.HARNESS_PENDING : Fld := ⟨0x1000, 39, 32⟩
/-- Field CU_STATUS.CORES_RETIRED. -/
def CU_STATUS.CORES_RETIRED : Fld := ⟨0x1000, 25, 16⟩
/-- Field CU_STATUS.CORES_ACTIVE. -/
def CU_STATUS.CORES_ACTIVE : Fld := ⟨0x1000, 9, 0⟩
/-- Field CU_CTRL.IRQ_ENABLE. -/
def CU_CTRL.IRQ_ENABLE : Fld := ⟨0x1008, 63, 63⟩
/-- Field CU_CTRL.TALLY_ALL. -/
def CU_CTRL.TALLY_ALL : Fld := ⟨0x1008, 62, 62⟩
/-- Field CU_CTRL.REPLAY_LIMIT. -/
def CU_CTRL.REPLAY_LIMIT : Fld := ⟨0x1008, 55, 48⟩
/-- Field CU_CTRL.RETURN_LIMIT. -/
def CU_CTRL.RETURN_LIMIT : Fld := ⟨0x1008, 47, 40⟩
/-- Field CU_CTRL.BLOCK_LIMIT. -/
def CU_CTRL.BLOCK_LIMIT : Fld := ⟨0x1008, 31, 0⟩
/-- Field CU_SERVICE_CMD.GO. -/
def CU_SERVICE_CMD.GO : Fld := ⟨0x1010, 63, 63⟩
/-- Field CU_SERVICE_CMD.BUSY. -/
def CU_SERVICE_CMD.BUSY : Fld := ⟨0x1010, 62, 62⟩
/-- Field CU_SERVICE_CMD.STATUS. -/
def CU_SERVICE_CMD.STATUS : Fld := ⟨0x1010, 55, 48⟩
/-- Field CU_SERVICE_CMD.WINNER. -/
def CU_SERVICE_CMD.WINNER : Fld := ⟨0x1010, 39, 36⟩
/-- Field CU_SERVICE_CMD.OP. -/
def CU_SERVICE_CMD.OP : Fld := ⟨0x1010, 35, 32⟩
/-- Field CU_SERVICE_CMD.HARNESS. -/
def CU_SERVICE_CMD.HARNESS : Fld := ⟨0x1010, 10, 8⟩
/-- Field CU_SERVICE_CMD.CORE. -/
def CU_SERVICE_CMD.CORE : Fld := ⟨0x1010, 6, 0⟩
/-- Field CU_FAULT_PTR.SEQ_NEXT. -/
def CU_FAULT_PTR.SEQ_NEXT : Fld := ⟨0x1018, 63, 32⟩
/-- Field CU_FAULT_PTR.HEAD. -/
def CU_FAULT_PTR.HEAD : Fld := ⟨0x1018, 24, 16⟩
/-- Field CU_FAULT_PTR.TAIL. -/
def CU_FAULT_PTR.TAIL : Fld := ⟨0x1018, 8, 0⟩
/-- Field CU_FAULT_EVENTS.RECORDS. -/
def CU_FAULT_EVENTS.RECORDS : Fld := ⟨0x1020, 63, 32⟩
/-- Field CU_FAULT_EVENTS.OVERWRITTEN. -/
def CU_FAULT_EVENTS.OVERWRITTEN : Fld := ⟨0x1020, 31, 16⟩
/-- Field CU_FAULT_EVENTS.REPLAYS. -/
def CU_FAULT_EVENTS.REPLAYS : Fld := ⟨0x1020, 15, 0⟩
/-- Field CU_LOSS_EVENTS.LOST_RESULTS. -/
def CU_LOSS_EVENTS.LOST_RESULTS : Fld := ⟨0x1028, 63, 32⟩
/-- Field CU_LOSS_EVENTS.ENDED_PICKS. -/
def CU_LOSS_EVENTS.ENDED_PICKS : Fld := ⟨0x1028, 31, 16⟩
/-- Field CU_LOSS_EVENTS.GRADIENT_INCOMPLETE. -/
def CU_LOSS_EVENTS.GRADIENT_INCOMPLETE : Fld := ⟨0x1028, 15, 0⟩
/-- Field CU_ECC_EVENTS.CORRECTED. -/
def CU_ECC_EVENTS.CORRECTED : Fld := ⟨0x1030, 63, 32⟩
/-- Field CU_ECC_EVENTS.BOBBIN_UNCORRECTED. -/
def CU_ECC_EVENTS.BOBBIN_UNCORRECTED : Fld := ⟨0x1030, 31, 16⟩
/-- Field CU_ECC_EVENTS.REPLAY_UNCORRECTED. -/
def CU_ECC_EVENTS.REPLAY_UNCORRECTED : Fld := ⟨0x1030, 15, 0⟩
/-- Field CU_TALLY_RING.VALID. -/
def CU_TALLY_RING.VALID : Fld := ⟨0x1038, 63, 63⟩
/-- Field CU_TALLY_RING.LOG2_ENTRIES. -/
def CU_TALLY_RING.LOG2_ENTRIES : Fld := ⟨0x1038, 56, 52⟩
/-- Field CU_TALLY_RING.BASE. -/
def CU_TALLY_RING.BASE : Fld := ⟨0x1038, 51, 21⟩
/-- Field CU_TALLY_PTR.HEAD. -/
def CU_TALLY_PTR.HEAD : Fld := ⟨0x1040, 52, 32⟩
/-- Field CU_TALLY_PTR.TAIL. -/
def CU_TALLY_PTR.TAIL : Fld := ⟨0x1040, 20, 0⟩
/-- Field CU_TALLY_CTRL.DRAIN. -/
def CU_TALLY_CTRL.DRAIN : Fld := ⟨0x1048, 63, 63⟩
/-- Field CU_TALLY_CTRL.BUSY. -/
def CU_TALLY_CTRL.BUSY : Fld := ⟨0x1048, 62, 62⟩
/-- Field CU_TALLY_CTRL.BUFFERED. -/
def CU_TALLY_CTRL.BUFFERED : Fld := ⟨0x1048, 44, 32⟩
/-- Field CU_TALLY_CTRL.AUTO_MARK. -/
def CU_TALLY_CTRL.AUTO_MARK : Fld := ⟨0x1048, 12, 0⟩
/-- Field CU_TALLY_EVENTS.ENTRIES. -/
def CU_TALLY_EVENTS.ENTRIES : Fld := ⟨0x1050, 63, 32⟩
/-- Field CU_TALLY_EVENTS.DROPPED. -/
def CU_TALLY_EVENTS.DROPPED : Fld := ⟨0x1050, 31, 16⟩
/-- Field CU_TALLY_EVENTS.ENDED_DROPPED. -/
def CU_TALLY_EVENTS.ENDED_DROPPED : Fld := ⟨0x1050, 15, 0⟩
/-- Field CU_FAULT_SNAP.EVENTS. -/
def CU_FAULT_SNAP.EVENTS (i : Nat) : Fld := ⟨0x1060+i*0x8, 63, 0⟩
/-- Field CU_PROOF_STATUS.RUNNING. -/
def CU_PROOF_STATUS.RUNNING (h : Nat) : Fld := ⟨0x1100+h*0x8, 63, 63⟩
/-- Field CU_PROOF_STATUS.CORE. -/
def CU_PROOF_STATUS.CORE (h : Nat) : Fld := ⟨0x1100+h*0x8, 62, 56⟩
/-- Field CU_PROOF_STATUS.RESULT. -/
def CU_PROOF_STATUS.RESULT (h : Nat) : Fld := ⟨0x1100+h*0x8, 55, 48⟩
/-- Field CU_PROOF_STATUS.SIGNATURE. -/
def CU_PROOF_STATUS.SIGNATURE (h : Nat) : Fld := ⟨0x1100+h*0x8, 31, 0⟩
/-- Field CU_FAULT_RING.RECORD. -/
def CU_FAULT_RING.RECORD (i w : Nat) : Fld := ⟨0x2000+i*0x20+w*0x8, 63, 0⟩
/-- Field PM_STATUS.POWER. -/
def PM_STATUS.POWER : Fld := ⟨0x800000, 63, 62⟩
/-- Field PM_STATUS.PROTECT_HOLD. -/
def PM_STATUS.PROTECT_HOLD : Fld := ⟨0x800000, 61, 61⟩
/-- Field PM_STATUS.DUTY. -/
def PM_STATUS.DUTY : Fld := ⟨0x800000, 60, 56⟩
/-- Field PM_STATUS.PIN_THROTTLE. -/
def PM_STATUS.PIN_THROTTLE : Fld := ⟨0x800000, 55, 55⟩
/-- Field PM_STATUS.THERMAL_THROTTLE. -/
def PM_STATUS.THERMAL_THROTTLE : Fld := ⟨0x800000, 54, 54⟩
/-- Field PM_STATUS.THERMAL_CRIT. -/
def PM_STATUS.THERMAL_CRIT : Fld := ⟨0x800000, 53, 53⟩
/-- Field PM_STATUS.LIMIT_THROTTLE. -/
def PM_STATUS.LIMIT_THROTTLE : Fld := ⟨0x800000, 52, 52⟩
/-- Field PM_STATUS.SUPPLY_LOW. -/
def PM_STATUS.SUPPLY_LOW : Fld := ⟨0x800000, 51, 51⟩
/-- Field PM_STATUS.STUCK_THROTTLE. -/
def PM_STATUS.STUCK_THROTTLE : Fld := ⟨0x800000, 50, 50⟩
/-- Field PM_STATUS.SENSOR_FAILED. -/
def PM_STATUS.SENSOR_FAILED : Fld := ⟨0x800000, 31, 16⟩
/-- Field PM_STATUS.T_MAX. -/
def PM_STATUS.T_MAX : Fld := ⟨0x800000, 15, 0⟩
/-- Field PM_POWER_CMD.GO. -/
def PM_POWER_CMD.GO : Fld := ⟨0x800008, 63, 63⟩
/-- Field PM_POWER_CMD.BUSY. -/
def PM_POWER_CMD.BUSY : Fld := ⟨0x800008, 62, 62⟩
/-- Field PM_POWER_CMD.STATUS. -/
def PM_POWER_CMD.STATUS : Fld := ⟨0x800008, 55, 48⟩
/-- Field PM_POWER_CMD.WINNER. -/
def PM_POWER_CMD.WINNER : Fld := ⟨0x800008, 39, 36⟩
/-- Field PM_POWER_CMD.OP. -/
def PM_POWER_CMD.OP : Fld := ⟨0x800008, 35, 32⟩
/-- Field PM_IDLE_CTRL.ENABLE. -/
def PM_IDLE_CTRL.ENABLE : Fld := ⟨0x800010, 63, 63⟩
/-- Field PM_IDLE_CTRL.DELAY_US. -/
def PM_IDLE_CTRL.DELAY_US : Fld := ⟨0x800010, 15, 0⟩
/-- Field PM_THROTTLE_CTRL.PIN_DUTY. -/
def PM_THROTTLE_CTRL.PIN_DUTY : Fld := ⟨0x800018, 20, 16⟩
/-- Field PM_THROTTLE_CTRL.THERMAL_DUTY. -/
def PM_THROTTLE_CTRL.THERMAL_DUTY : Fld := ⟨0x800018, 12, 8⟩
/-- Field PM_THROTTLE_CTRL.LIMIT_DUTY. -/
def PM_THROTTLE_CTRL.LIMIT_DUTY : Fld := ⟨0x800018, 4, 0⟩
/-- Field PM_THROTTLE_MAX.LIMIT_MS. -/
def PM_THROTTLE_MAX.LIMIT_MS : Fld := ⟨0x800020, 15, 0⟩
/-- Field PM_THERMAL.CRIT_HOLD_MS. -/
def PM_THERMAL.CRIT_HOLD_MS : Fld := ⟨0x800028, 47, 40⟩
/-- Field PM_THERMAL.CRIT. -/
def PM_THERMAL.CRIT : Fld := ⟨0x800028, 39, 32⟩
/-- Field PM_THERMAL.THROTTLE. -/
def PM_THERMAL.THROTTLE : Fld := ⟨0x800028, 31, 24⟩
/-- Field PM_THERMAL.WARN. -/
def PM_THERMAL.WARN : Fld := ⟨0x800028, 23, 16⟩
/-- Field PM_THERMAL.HYST. -/
def PM_THERMAL.HYST : Fld := ⟨0x800028, 3, 0⟩
/-- Field PM_POWER_LIMIT.WATTS. -/
def PM_POWER_LIMIT.WATTS : Fld := ⟨0x800030, 9, 0⟩
/-- Field PM_INPUTS.CHATTER_RESET_N. -/
def PM_INPUTS.CHATTER_RESET_N : Fld := ⟨0x800038, 63, 56⟩
/-- Field PM_INPUTS.CHATTER_PWROK. -/
def PM_INPUTS.CHATTER_PWROK : Fld := ⟨0x800038, 55, 48⟩
/-- Field PM_INPUTS.CHATTER_THROTTLE. -/
def PM_INPUTS.CHATTER_THROTTLE : Fld := ⟨0x800038, 47, 40⟩
/-- Field PM_INPUTS.CHATTER_WAKE. -/
def PM_INPUTS.CHATTER_WAKE : Fld := ⟨0x800038, 39, 32⟩
/-- Field PM_INPUTS.COUNTED. -/
def PM_INPUTS.COUNTED : Fld := ⟨0x800038, 7, 4⟩
/-- Field PM_INPUTS.SYNC. -/
def PM_INPUTS.SYNC : Fld := ⟨0x800038, 3, 0⟩
/-- Field PM_RESET_CAUSE.POWER_ON. -/
def PM_RESET_CAUSE.POWER_ON : Fld := ⟨0x800040, 3, 3⟩
/-- Field PM_RESET_CAUSE.CLOCK_LOSS. -/
def PM_RESET_CAUSE.CLOCK_LOSS : Fld := ⟨0x800040, 2, 2⟩
/-- Field PM_RESET_CAUSE.PWROK_LOSS. -/
def PM_RESET_CAUSE.PWROK_LOSS : Fld := ⟨0x800040, 1, 1⟩
/-- Field PM_RESET_CAUSE.RESET_PIN. -/
def PM_RESET_CAUSE.RESET_PIN : Fld := ⟨0x800040, 0, 0⟩
/-- Field PM_HARNESS_HOLD.HELD. -/
def PM_HARNESS_HOLD.HELD : Fld := ⟨0x800048, 7, 0⟩
/-- Field PM_SUPPLY.VDD_ZQS_MV. -/
def PM_SUPPLY.VDD_ZQS_MV : Fld := ⟨0x800050, 47, 32⟩
/-- Field PM_SUPPLY.VDD_ZQ_MV. -/
def PM_SUPPLY.VDD_ZQ_MV : Fld := ⟨0x800050, 15, 0⟩
/-- Field PM_EVENTS.THROTTLE_CYCLES. -/
def PM_EVENTS.THROTTLE_CYCLES : Fld := ⟨0x800058, 63, 32⟩
/-- Field PM_EVENTS.IDLE_ENTRIES. -/
def PM_EVENTS.IDLE_ENTRIES : Fld := ⟨0x800058, 31, 16⟩
/-- Field PM_EVENTS.HOLD_ENTRIES. -/
def PM_EVENTS.HOLD_ENTRIES : Fld := ⟨0x800058, 15, 0⟩
/-- Field PM_TEMP.READING. -/
def PM_TEMP.READING (j i : Nat) : Fld := ⟨0x800100+j*0x8, 16*i+15, 16*i⟩
/-- Field BD_BOOT_STATUS.CODE. -/
def BD_BOOT_STATUS.CODE : Fld := ⟨0x400000, 63, 56⟩
/-- Field BD_BOOT_STATUS.SECTION. -/
def BD_BOOT_STATUS.SECTION : Fld := ⟨0x400000, 55, 48⟩
/-- Field BD_BOOT_STATUS.DONE. -/
def BD_BOOT_STATUS.DONE : Fld := ⟨0x400000, 43, 43⟩
/-- Field BD_BOOT_STATUS.SINGLE_IO. -/
def BD_BOOT_STATUS.SINGLE_IO : Fld := ⟨0x400000, 42, 42⟩
/-- Field BD_BOOT_STATUS.SIGNED. -/
def BD_BOOT_STATUS.SIGNED : Fld := ⟨0x400000, 41, 41⟩
/-- Field BD_BOOT_STATUS.FACTORY. -/
def BD_BOOT_STATUS.FACTORY : Fld := ⟨0x400000, 40, 40⟩
/-- Field BD_BOOT_STATUS.EARLY_WRITES. -/
def BD_BOOT_STATUS.EARLY_WRITES : Fld := ⟨0x400000, 39, 32⟩
/-- Field BD_BOOT_STATUS.IMAGE_VERSION. -/
def BD_BOOT_STATUS.IMAGE_VERSION : Fld := ⟨0x400000, 31, 0⟩
/-- Field BD_BOOT_DETAIL.RECORD. -/
def BD_BOOT_DETAIL.RECORD : Fld := ⟨0x400008, 63, 32⟩
/-- Field BD_BOOT_DETAIL.BOOT_US. -/
def BD_BOOT_DETAIL.BOOT_US : Fld := ⟨0x400008, 31, 0⟩
/-- Field BD_FLASH_INFO.DENSITY_KIB. -/
def BD_FLASH_INFO.DENSITY_KIB : Fld := ⟨0x400010, 63, 32⟩
/-- Field BD_FLASH_INFO.JEDEC_ID. -/
def BD_FLASH_INFO.JEDEC_ID : Fld := ⟨0x400010, 31, 8⟩
/-- Field BD_FLASH_INFO.ADDR4. -/
def BD_FLASH_INFO.ADDR4 : Fld := ⟨0x400010, 7, 7⟩
/-- Field BD_FLASH_INFO.QUAD. -/
def BD_FLASH_INFO.QUAD : Fld := ⟨0x400010, 6, 6⟩
/-- Field BD_FLASH_INFO.QER. -/
def BD_FLASH_INFO.QER : Fld := ⟨0x400010, 5, 3⟩
/-- Field BD_CTRL.LOCK. -/
def BD_CTRL.LOCK : Fld := ⟨0x400018, 1, 1⟩
/-- Field BD_CTRL.WRITE_ENABLE. -/
def BD_CTRL.WRITE_ENABLE : Fld := ⟨0x400018, 0, 0⟩
/-- Field BD_FLASH_CMD.GO. -/
def BD_FLASH_CMD.GO : Fld := ⟨0x400020, 63, 63⟩
/-- Field BD_FLASH_CMD.BUSY. -/
def BD_FLASH_CMD.BUSY : Fld := ⟨0x400020, 62, 62⟩
/-- Field BD_FLASH_CMD.STATUS. -/
def BD_FLASH_CMD.STATUS : Fld := ⟨0x400020, 55, 48⟩
/-- Field BD_FLASH_CMD.OP. -/
def BD_FLASH_CMD.OP : Fld := ⟨0x400020, 41, 40⟩
/-- Field BD_FLASH_CMD.ADDR. -/
def BD_FLASH_CMD.ADDR : Fld := ⟨0x400020, 31, 0⟩
/-- Field BD_FLASH_LEN.LENGTH. -/
def BD_FLASH_LEN.LENGTH : Fld := ⟨0x400028, 8, 0⟩
/-- Field BD_FLASH_BUF.WORD. -/
def BD_FLASH_BUF.WORD (i : Nat) : Fld := ⟨0x401000+i*0x8, 63, 0⟩
/-- Field CU_ID_LOT.LOT. -/
def CU_ID_LOT.LOT : Fld := ⟨0x0, 39, 0⟩
/-- Field CU_ID_DIE.WAFER. -/
def CU_ID_DIE.WAFER : Fld := ⟨0x8, 20, 16⟩
/-- Field CU_ID_DIE.DIE_X. -/
def CU_ID_DIE.DIE_X : Fld := ⟨0x8, 15, 8⟩
/-- Field CU_ID_DIE.DIE_Y. -/
def CU_ID_DIE.DIE_Y : Fld := ⟨0x8, 7, 0⟩
/-- Field CU_ID_PART.INSTANCE. -/
def CU_ID_PART.INSTANCE : Fld := ⟨0x10, 31, 24⟩
/-- Field CU_ID_PART.STEPPING. -/
def CU_ID_PART.STEPPING : Fld := ⟨0x10, 23, 16⟩
/-- Field CU_ID_PART.FUSE_REV. -/
def CU_ID_PART.FUSE_REV : Fld := ⟨0x10, 15, 8⟩
/-- Field BD_DBG_STATUS.ENGINE_HALTED. -/
def BD_DBG_STATUS.ENGINE_HALTED : Fld := ⟨0x402000, 63, 63⟩
/-- Field BD_DBG_STATUS.STEP_BUSY. -/
def BD_DBG_STATUS.STEP_BUSY : Fld := ⟨0x402000, 62, 62⟩
/-- Field BD_DBG_STATUS.HARNESS_HALTED. -/
def BD_DBG_STATUS.HARNESS_HALTED : Fld := ⟨0x402000, 55, 48⟩
/-- Field BD_DBG_STATUS.LAST_HIT. -/
def BD_DBG_STATUS.LAST_HIT : Fld := ⟨0x402000, 47, 44⟩
/-- Field BD_DBG_STATUS.LAST_INDEX. -/
def BD_DBG_STATUS.LAST_INDEX : Fld := ⟨0x402000, 35, 32⟩
/-- Field BD_DBG_STATUS.CORES_HALTED. -/
def BD_DBG_STATUS.CORES_HALTED : Fld := ⟨0x402000, 9, 0⟩
/-- Field BD_DBG_HALT.GO. -/
def BD_DBG_HALT.GO : Fld := ⟨0x402008, 63, 63⟩
/-- Field BD_DBG_HALT.BUSY. -/
def BD_DBG_HALT.BUSY : Fld := ⟨0x402008, 62, 62⟩
/-- Field BD_DBG_HALT.STATUS. -/
def BD_DBG_HALT.STATUS : Fld := ⟨0x402008, 55, 48⟩
/-- Field BD_DBG_HALT.OP. -/
def BD_DBG_HALT.OP : Fld := ⟨0x402008, 41, 40⟩
/-- Field BD_DBG_HALT.SCOPE. -/
def BD_DBG_HALT.SCOPE : Fld := ⟨0x402008, 35, 34⟩
/-- Field BD_DBG_HALT.HARNESS. -/
def BD_DBG_HALT.HARNESS : Fld := ⟨0x402008, 10, 8⟩
/-- Field BD_DBG_HALT.CORE. -/
def BD_DBG_HALT.CORE : Fld := ⟨0x402008, 6, 0⟩
/-- Field BD_DBG_CTRL.FREEZE_ANGLE. -/
def BD_DBG_CTRL.FREEZE_ANGLE : Fld := ⟨0x402010, 2, 2⟩
/-- Field BD_DBG_CTRL.SPINDLE_FINE. -/
def BD_DBG_CTRL.SPINDLE_FINE : Fld := ⟨0x402010, 1, 1⟩
/-- Field BD_DBG_CTRL.ARM. -/
def BD_DBG_CTRL.ARM : Fld := ⟨0x402010, 0, 0⟩
/-- Field BD_DBG_XTRIG.MODE_OUT. -/
def BD_DBG_XTRIG.MODE_OUT : Fld := ⟨0x402018, 63, 63⟩
/-- Field BD_DBG_XTRIG.OUT_ON_HALT. -/
def BD_DBG_XTRIG.OUT_ON_HALT : Fld := ⟨0x402018, 62, 62⟩
/-- Field BD_DBG_XTRIG.IN_COUNT. -/
def BD_DBG_XTRIG.IN_COUNT : Fld := ⟨0x402018, 47, 32⟩
/-- Field BD_DBG_XTRIG.IN_ACTION. -/
def BD_DBG_XTRIG.IN_ACTION : Fld := ⟨0x402018, 1, 0⟩
/-- Field BD_DBG_BP.ENABLE. -/
def BD_DBG_BP.ENABLE (i : Nat) : Fld := ⟨0x402100+i*0x20, 63, 63⟩
/-- Field BD_DBG_BP.KIND. -/
def BD_DBG_BP.KIND (i : Nat) : Fld := ⟨0x402100+i*0x20, 62, 61⟩
/-- Field BD_DBG_BP.ACTION. -/
def BD_DBG_BP.ACTION (i : Nat) : Fld := ⟨0x402100+i*0x20, 60, 59⟩
/-- Field BD_DBG_BP.XTRIG. -/
def BD_DBG_BP.XTRIG (i : Nat) : Fld := ⟨0x402100+i*0x20, 58, 58⟩
/-- Field BD_DBG_BP.ONCE. -/
def BD_DBG_BP.ONCE (i : Nat) : Fld := ⟨0x402100+i*0x20, 57, 57⟩
/-- Field BD_DBG_BP.HITS. -/
def BD_DBG_BP.HITS (i : Nat) : Fld := ⟨0x402100+i*0x20, 31, 0⟩
/-- Field BD_DBG_BP.VALUE. -/
def BD_DBG_BP.VALUE (i : Nat) : Fld := ⟨0x402108+i*0x20, 63, 0⟩
/-- Field BD_DBG_BP.MASK. -/
def BD_DBG_BP.MASK (i : Nat) : Fld := ⟨0x402110+i*0x20, 63, 0⟩
/-- Field BD_DBG_WP.ENABLE. -/
def BD_DBG_WP.ENABLE (j : Nat) : Fld := ⟨0x402400+j*0x20, 63, 63⟩
/-- Field BD_DBG_WP.ACCESS. -/
def BD_DBG_WP.ACCESS (j : Nat) : Fld := ⟨0x402400+j*0x20, 62, 61⟩
/-- Field BD_DBG_WP.ACTION. -/
def BD_DBG_WP.ACTION (j : Nat) : Fld := ⟨0x402400+j*0x20, 60, 59⟩
/-- Field BD_DBG_WP.XTRIG. -/
def BD_DBG_WP.XTRIG (j : Nat) : Fld := ⟨0x402400+j*0x20, 58, 58⟩
/-- Field BD_DBG_WP.ONCE. -/
def BD_DBG_WP.ONCE (j : Nat) : Fld := ⟨0x402400+j*0x20, 57, 57⟩
/-- Field BD_DBG_WP.DATA_MATCH. -/
def BD_DBG_WP.DATA_MATCH (j : Nat) : Fld := ⟨0x402400+j*0x20, 56, 56⟩
/-- Field BD_DBG_WP.HITS. -/
def BD_DBG_WP.HITS (j : Nat) : Fld := ⟨0x402400+j*0x20, 31, 0⟩
/-- Field BD_DBG_WP.BASE. -/
def BD_DBG_WP.BASE (j : Nat) : Fld := ⟨0x402408+j*0x20, 51, 0⟩
/-- Field BD_DBG_WP.LIMIT. -/
def BD_DBG_WP.LIMIT (j : Nat) : Fld := ⟨0x402410+j*0x20, 51, 0⟩
/-- Field BD_DBG_WP.DATA. -/
def BD_DBG_WP.DATA (j : Nat) : Fld := ⟨0x402418+j*0x20, 63, 0⟩
/-- Field BD_DBG_WLOG.VALID. -/
def BD_DBG_WLOG.VALID : Fld := ⟨0x402500, 63, 63⟩
/-- Field BD_DBG_WLOG.SOURCE. -/
def BD_DBG_WLOG.SOURCE : Fld := ⟨0x402500, 62, 59⟩
/-- Field BD_DBG_WLOG.INDEX. -/
def BD_DBG_WLOG.INDEX : Fld := ⟨0x402500, 58, 56⟩
/-- Field BD_DBG_WLOG.WRITE. -/
def BD_DBG_WLOG.WRITE : Fld := ⟨0x402500, 55, 55⟩
/-- Field BD_DBG_WLOG.ADDR. -/
def BD_DBG_WLOG.ADDR : Fld := ⟨0x402500, 51, 0⟩
/-- Field BD_DBG_MEM_CMD.GO. -/
def BD_DBG_MEM_CMD.GO : Fld := ⟨0x402600, 63, 63⟩
/-- Field BD_DBG_MEM_CMD.BUSY. -/
def BD_DBG_MEM_CMD.BUSY : Fld := ⟨0x402600, 62, 62⟩
/-- Field BD_DBG_MEM_CMD.STATUS. -/
def BD_DBG_MEM_CMD.STATUS : Fld := ⟨0x402600, 55, 48⟩
/-- Field BD_DBG_MEM_CMD.WRITE. -/
def BD_DBG_MEM_CMD.WRITE : Fld := ⟨0x402600, 40, 40⟩
/-- Field BD_DBG_MEM_CMD.TIER. -/
def BD_DBG_MEM_CMD.TIER : Fld := ⟨0x402600, 39, 36⟩
/-- Field BD_DBG_MEM_CMD.HARNESS. -/
def BD_DBG_MEM_CMD.HARNESS : Fld := ⟨0x402600, 34, 32⟩
/-- Field BD_DBG_MEM_CMD.CORE. -/
def BD_DBG_MEM_CMD.CORE : Fld := ⟨0x402600, 30, 24⟩
/-- Field BD_DBG_MEM_ADDR.ADDR. -/
def BD_DBG_MEM_ADDR.ADDR : Fld := ⟨0x402608, 51, 0⟩
/-- Field BD_DBG_MEM_DATA.DATA. -/
def BD_DBG_MEM_DATA.DATA : Fld := ⟨0x402610, 63, 0⟩

end Sys2Proof.Machine
end

