-- ==== Sys2Proof/Machine/State.lean ====
section
/-! DEFINITION. The state of the engine, as plain data: the register window (one sparse file of 64-bit words), and
for each subsystem what the spec gives it beside its registers: queues, stores, buffers, counters, modes and pins.
Fault and Refusal, and the machine right after reset. -/

namespace Sys2Proof.Machine

/-! ## Tiers (chapter 10) -/

/-- Table 10.3, but for FAILED: an ABSENT page whose backing unit has failed is FAILED (`pageFailed`). -/
inductive PageSt where
  | absent | clean | dirty | writing | home | lost
  deriving DecidableEq, Repr

/-- R249. -/
inductive TileSt where
  | invalid | fetching | valid | poisoned
  deriving DecidableEq, Repr

/-- A tile of a resident page: its state and its dirty bit (R249). -/
structure TileRec where
  st : TileSt := .invalid
  dirty : Bool := false
  deriving DecidableEq, Repr

/-- A page of the Loom range (R248, R255, R257). -/
structure Page where
  st : PageSt := .absent
  /-- the stack that holds its frame -/
  stack : Nat := 0
  /-- tiles by index 0 to 63; an unlisted tile is `base`, not dirty -/
  tiles : SMap TileRec := []
  base : TileSt := .invalid
  /-- pins of prefetch sets, read references, fills and engine writes -/
  pins : Nat := 0
  rtPin : Bool := false
  dirPin : Bool := false
  lastUse : Nat := 0
  /-- WRITING for an eviction -/
  evicting : Bool := false
  /-- tiles still to be accepted by the backing while WRITING -/
  wb : List Nat := []
  deriving DecidableEq, Repr

/-- A frame of a Bobbin slice (R246, R253). Sectors and bytes are those the fill brought. -/
structure BFrame where
  tile : Nat
  sectors : List Nat := []
  filling : Bool := false
  count : Nat := 0
  /-- prefetch sets that pin it -/
  sets : List Nat := []
  refs : Nat := 0
  lastRead : Nat := 0
  data : SMap Byte := []
  deriving DecidableEq, Repr

/-- Who owns the tile for R253. -/
inductive FillOwner where
  | none | key (k : Nat)
  /-- a row slot of an embedding table, read with a reference held (R238): sketch key, table, slot -/
  | row (k table slot : Nat)
  deriving DecidableEq, Repr

/-- A fill waiting or in flight (R251): into a slice, or, with no slice, into Beam alone (R249). -/
structure Fill where
  tile : Nat
  slice : Option Nat := none
  demand : Bool := true
  /-- the pinned prefetch sets that asked for it (R262) -/
  sets : List Nat := []
  owner : FillOwner := .none
  sectors : List Nat := []
  /-- the subsystem that reads the tile, where no slice does (Table 1.3) -/
  source : Nat := 7
  issued : Bool := false
  /-- the slice that the crossbar copies it from (R247) -/
  copied : Option Nat := none
  /-- the unit that serves it once issued: Beam stack 0 to 3, Board port 4 to 7, Flash 8 -/
  unit : Nat := 0
  /-- the Bobbin frame taken -/
  frame : Option Nat := none
  queue : Nat := 0
  /-- its cipher work began with the key in the slot (R321) -/
  keyed : Bool := false
  deriving DecidableEq, Repr

/-- A write-back of one page, in flight to its backing unit (R266). -/
structure WriteBack where
  page : Nat
  unit : Nat
  issued : Bool := false
  /-- its cipher work began with the key in the slot (R321) -/
  keyed : Bool := false
  deriving DecidableEq, Repr

/-- An engine write on its way to Beam (R265). -/
structure EngWrite where
  addr : Nat
  bytes : List Byte
  /-- the subsystem that issued it (Table 1.3) -/
  source : Nat := 7
  /-- the Harness of the unit that issued it -/
  harness : Option Nat := none
  deriving DecidableEq, Repr

/-- A resolved extent of a pinned set: tiles, slices (as a mask), and the adapter and layer of a SKEIN extent. -/
structure PinExt where
  first : Nat
  count : Nat
  mask : Nat
  skein : Option (Nat × Nat)
  deriving DecidableEq, Repr

/-- What a pinned prefetch set holds (R262, R264): its resolved extents, whose pages it pins, and the (tile, slice)
pairs it pins. -/
structure PinSet where
  exts : List PinExt := []
  tiles : List (Nat × Nat) := []
  deriving DecidableEq, Repr

/-- A page command in progress (Table 10.13): the page it is at (of READ64 and WRITE64 the address), the pages left, where
COPY writes the page (of WRITE64 the data), and whether the page is under way: what it waits for has begun. -/
structure PageCmd where
  op : Nat
  page : Nat
  left : Nat
  arg : Nat
  begun : Bool := false
  deriving DecidableEq, Repr

/-- Work that waits for tiles of the Loom range to come into Beam (R249), or for the end of a boundary's actions (R218). -/
inductive Work where
  /-- a directory command: op and adapter -/
  | directory (op a : Nat)
  /-- PREFETCH_SET and RELEASE_SET, in the order they took effect (R262) -/
  | prefetch (k : Nat) (pin : Bool)
  | release (k : Nat)
  /-- the SKEIN extents of an adapter in a pinned set, after a commit (R264) -/
  | reresolve (k a : Nat)
  /-- DRAIN_VERSION of an adapter, once no pick names it (R224) -/
  | drained (a : Nat)
  /-- the pending version of an adapter is discarded, with LOST in its learn record or without (R278, R303) -/
  | discard (a : Nat) (lost : Bool)
  /-- the adapters whose learning data lay on lost pages (R278) -/
  | lostPages (pages : List Nat)
  /-- a reshard plan to be read (R300) -/
  | reshard (plan : Nat)
  /-- a verified payload from another host: its kind, source and ANGLE (R297, R298, R301, R302) -/
  | payload (kind src : Nat) (angle : W64) (bytes : List Byte)
  /-- gradients of closed layers to be sent (R297) -/
  | gradients
  /-- a PICK_T_ROWS pick whose stashed operands cannot be read, or lie in pages whose fetch has ended (R277) -/
  | stashFailed (pick : Nat) (pages : List Nat)
  /-- Harness h takes the pointers of the bags that a window of a bolt formed (R236) -/
  | lookup (h bolt window : Nat)
  /-- an access of the debugger to the Loom range: address and the bytes it writes (R420) -/
  | debugMem (a : Nat) (w : Option (List Byte))
  deriving DecidableEq, Repr

/-- The Tier Manager and the Bobbin Cache. -/
structure Tiers where
  pages : SMap Page := []
  /-- bytes of Beam, by Loom address -/
  beam : SMap Byte := []
  /-- bytes behind the Board ports: port · 2^64 + offset -/
  board : SMap Byte := []
  /-- bytes of the namespaces: NSID · 2^80 + 4,096 · LBA + offset -/
  flash : SMap Byte := []
  slices : List (SMap BFrame) := [[], [], [], [], [], [], [], []]
  /-- order of reads, for the least recently read frame -/
  readClock : Nat := 0
  fills : List Fill := []
  wbs : List WriteBack := []
  writes : List EngWrite := []
  sets : SMap PinSet := []
  /-- an operation is being tried (R249): the tiles it finds out of Beam, and that it found no frame for a write -/
  trying : Bool := false
  wanted : List Nat := []
  starved : Bool := false
  /-- work that waits, oldest first -/
  work : List Work := []
  /-- engine writes that were dropped, for the subsystems that issued them (R265) -/
  dropped : List EngWrite := []
  cmd : Option PageCmd := none
  /-- stack of the second page table copy, and of the copy being made (R245, R278) -/
  tableStacks : List Nat := [0, 2]
  tableCopying : Option Nat := none
  /-- stacks of the frames that Reed Network spills hold (R256) -/
  spillFrames : List Nat := []
  deriving DecidableEq, Repr

/-! ## Weft (chapter 3) -/

/-- A row of a bolt as its record brought it (R67, R74). -/
structure Row where
  index : Nat
  link : Nat
  meta0 : W64
  meta1 : W64
  payload : List Byte
  /-- still in the replay buffer -/
  held : Bool := true
  grouped : Bool := false
  /-- of an EMBED row: its bag has been formed (R232) -/
  pooled : Bool := false
  /-- the replay-buffer copy is unusable (R434) -/
  spoiled : Bool := false
  deriving DecidableEq, Repr

/-- A result: one row for one projection (R76). -/
structure Result where
  row : Nat
  proj : Nat
  /-- Table 3.6 -/
  status : Nat
  version : Nat := 0
  adapter : Nat := 0
  /-- the Harness its list part was placed in -/
  harness : Nat := 0
  committed : Bool := false
  emitted : Bool := false
  lost : Bool := false
  replayed : Bool := false
  /-- a row of a learning adapter grouped before its layer's close: it writes stash entries (R191, R193, R200) -/
  learn : Bool := false
  /-- APPLIED as it was grouped here: a row of its adapter's list (R226) -/
  fed : Bool := false
  /-- of an EMBED row: `adapter` names a table -/
  table : Bool := false
  deriving DecidableEq, Repr

/-- A part of a bolt on a link (R61). -/
structure Part where
  link : Nat
  first : Nat
  count : Nat
  got : Nat := 0
  /-- rows that a failed link will not bring (R355) -/
  short : Nat := 0
  deriving DecidableEq, Repr

/-- Where a bolt stands on its way to its completion. -/
inductive BoltSt where
  | running | emitted
  deriving DecidableEq, Repr

/-- A row record waiting on a link's egress (R71, R72), or a record of a remote bolt's row for its requester (R288). -/
structure Egress where
  bolt : Nat
  row : Nat
  proj : Nat
  /-- the record's 8 B of metadata and its data -/
  bytes : List Byte
  deriving DecidableEq, Repr

/-- A value written to a stream. -/
structure Stored where
  stream : Nat
  row : Nat
  col : Nat
  v : F32
  sat : Bool
  nan : Bool
  deriving DecidableEq, Repr

/-- A bolt in the bolt table (R61 to R66, R76 to R79). -/
structure Bolt where
  id : Nat
  desc : List W64
  parts : List Part := []
  rows : List Row := []
  results : List Result := []
  /-- refused outright with this code (R78) -/
  refused : Option Nat := none
  /-- refused at its arrival: it does not count toward the 64 (R65) -/
  turnedAway : Bool := false
  /-- BOLT_INVALID after grouping began: stopped (R78) -/
  stopped : Bool := false
  overrun : Bool := false
  /-- a row without MASK has come (R76) -/
  unmasked : Bool := false
  /-- the part with FIRST_ROW 0 has been accepted; its order has been dispatched (R66) -/
  begun : Bool := false
  orderDone : Bool := false
  orderLost : Bool := false
  winner : Nat := 0
  windows : Nat := 0
  /-- windows that formed more than one turn in some Harness (SD_TURN_EVENTS) -/
  sliced : List Nat := []
  sprint : Bool := false
  /-- it is known whether the bolt runs in flying-shuttle mode (R310) -/
  modeKnown : Bool := false
  emptySeen : Bool := false
  nanSeen : Bool := false
  satSeen : Bool := false
  tierTimeout : Bool := false
  tierError : Bool := false
  coreRetired : Bool := false
  partialLoss : Bool := false
  internal : Bool := false
  /-- ACLK cycles charged to each cause (R77) -/
  stalls : List Nat := []
  /-- ACLK count at its first part, and at its last row record -/
  aclk : Nat := 0
  lastBeat : Nat := 0
  st : BoltSt := .running
  /-- a bolt formed from REQUEST messages: its source host (R287) -/
  remote : Option Nat := none
  /-- of a remote bolt: more sections of its round may come (R287) -/
  roundOpen : Bool := false
  /-- the records of a remote bolt's rows, until they go back to the requester (R288) -/
  answers : List Egress := []
  /-- acceptance order of the part with FIRST_ROW 0 (R198) -/
  order : Nat := 0
  /-- the sequencer has accepted a word at or beyond its angle (R45, R64) -/
  opened : Bool := false
  /-- a window of it waits for the tenant check of its rows (R225) -/
  checking : Bool := false
  /-- delta values written and not yet in a record: projection and value (R71) -/
  outs : List (Nat × Stored) := []
  deriving DecidableEq, Repr

/-- One link (R57, R435). -/
structure Link where
  up : Bool := true
  desync : Bool := false
  crcFails : Nat := 0
  /-- the part whose row records are arriving: bolt and records still to come -/
  cursor : Option (Nat × Nat) := none
  egress : List Egress := []
  /-- bytes of each row record of that part -/
  size : Nat := 0
  /-- bytes of the present ingress beat that have come (R56), and whether the beat has been discarded and counted (R59) -/
  inPos : Nat := 0
  inGone : Bool := false
  /-- the run last emitted (R73), and the bytes of the present egress beat filled up to its end (R56) -/
  out : List Byte := []
  outPos : Nat := 0
  deriving DecidableEq, Repr

/-- The Weft port. -/
structure Weft where
  links : List Link := [{}, {}, {}, {}, {}, {}, {}, {}]
  bolts : List Bolt := []
  /-- the oldest counted completion has waited HOLDOFF_US -/
  holdoffHit : Bool := false
  /-- parts accepted so far, for the order of R198 -/
  orderClock : Nat := 0
  deriving DecidableEq, Repr

/-! ## Heddle array, Shuttle, Reed Network (chapters 4 to 6, 12) -/

/-- HA[h].CORE[c].CORE_STATUS.SERVICE. -/
inductive Service where
  | spareUnused | active | retirePending | retired | proving | fusedOut
  deriving DecidableEq, Repr

/-- HA[h].CORE[c].CORE_STATUS.POWER; HELD_ON is what an ON core that is held reads (R112, R314, R413). -/
inductive CorePower where
  | gated | ramping | on
  deriving DecidableEq, Repr

/-- The kinds of pick (Table 4.3). -/
inductive PickKind where
  | r | w | tStored | tRows
  deriving DecidableEq, Repr

/-- What a pick computes: the lines of Table 8.2, the two passes of flying-shuttle mode, the proof pick. -/
inductive Purpose where
  | hidden | delta | dA | dHidden | dX | dB | sprintDown | sprintUp | proof
  deriving DecidableEq, Repr

/-- A pick (Table 4.3), with what the Shuttle knows of it. -/
structure Pick where
  id : Nat
  bolt : Nat
  kind : PickKind
  statFmt : EFmt
  streamFmt : EFmt
  proj : Nat
  layer : Nat := 0
  adapter : Nat
  tenant : Nat := 0
  h : Nat
  c : Nat
  /-- segments of this core, each with its index in the gang -/
  segs : List (Nat × Nat)
  /-- segments of the whole copy -/
  gang : Nat
  rank : Nat
  /-- row indices, in list order -/
  rows : List Nat
  /-- the K range of the gang: its first element and its length -/
  kOff : Nat := 0
  kLen : Nat
  kTiles : Nat
  kBase : Nat := 0
  /-- output columns of the gang: the first, and how many -/
  colLo : Nat := 0
  n : Nat
  outTiles : Nat
  version : Nat
  copy : Nat := 0
  lastCopy : Nat := 0
  group : Nat := 0
  purpose : Purpose
  /-- number of the pick's first term in its long sum (R145) -/
  firstTerm : Nat := 0
  /-- PICK_T_ROWS: where the stashed operand of each row lies (R196) -/
  stash : List Nat := []
  /-- blocks issued so far, and reed tiles drained so far -/
  issued : Nat := 0
  drained : Nat := 0
  committed : List Nat := []
  /-- rows whose results are lost: the pick takes nothing more of them (R348, R434) -/
  void : List Nat := []
  queued : Bool := false
  /-- replacements before this one of the original pick (R347) -/
  replay : Nat := 0
  /-- reed tiles that the ended pick it replaces had drained already (R346) -/
  carried : Nat := 0
  /-- copies per row group of the gang (R109) -/
  split : Nat := 1
  /-- one more than the index of the last block counted in HAZARD_BLOCKS -/
  hazards : Nat := 0
  window : Nat := 0
  deriving DecidableEq, Repr

/-- An output value of a block on its way out of the reed file: its place in the tile (8 · slot + lane), its row, its
output, its bits. In a PICK_T_ROWS block `row` and `col` are the K index and the column of a matrix element. -/
structure OutVal where
  place : Nat
  row : Nat
  col : Nat
  slot : Slot
  deriving DecidableEq, Repr

/-- The values of one reed tile of a block, with its flags (R143) and the output tile they form. -/
structure TileOut where
  tile : Nat
  outTile : Nat
  outs : List OutVal
  isInt : Bool
  sat : Bool
  nan : Bool
  deriving DecidableEq, Repr

/-- The identity of a stationary tile in a bank (R92). -/
inductive StatTile where
  | none
  | weights (adapter version proj outTile kTile : Nat) (isB other : Bool)
  | rows (bolt : Nat) (rows : List Nat) (kTile proj : Nat) (purpose : Purpose)
  deriving DecidableEq, Repr

/-- A block from its issue until its last drain is accepted (R97, R99). -/
structure Block where
  pick : Nat
  index : Nat
  /-- K-tiles passed so far, and all of them -/
  ktDone : Nat := 0
  kTiles : Nat
  /-- the back banks hold the next stationary tile (R91) -/
  loaded : Bool := false
  /-- tiles held by read references (R121) -/
  refs : List Nat
  /-- its reed tiles, as far as its passes have summed them -/
  drains : List TileOut
  firstTerm : Nat := 0
  /-- its rows with the bytes they bring, and the stashed operands of a gradient block, as they left their stores -/
  fed : List (Nat × List Byte) := []
  stash : List (List Byte) := []
  deriving DecidableEq, Repr

/-- A core position (chapter 4). -/
structure Core where
  service : Service := .spareUnused
  power : CorePower := .gated
  /-- the pick that a single step lets run (R415) -/
  stepping : Option Nat := none
  front : BitVec 32 := 0
  /-- what the front and back banks of a segment hold -/
  frontTile : SMap StatTile := []
  backTile : SMap StatTile := []
  /-- tile_sel of each segment -/
  tileSel : BitVec 32 := 0
  /-- bank bytes: (lane · 2 + bank) · 512 + byte -/
  banks : SMap Byte := []
  /-- scale store entries: (lane · 2 + bank) · 256 + entry; entries 0 to 31 are the store's bytes (log entry 108) -/
  scales : SMap Byte := []
  /-- reed words: tile · 512 + slot · 8 + column -/
  reed : SMap (BitVec 32) := []
  /-- picks queued, oldest first -/
  queue : List Nat := []
  blocks : List Block := []
  /-- the core's own segments lie in the allocator's map -/
  inMap : Bool := false
  /-- a fault retires it: place() treats its segments as taken (R352) -/
  withdrawn : Bool := false
  /-- retirements since reset (R364) -/
  returns : Nat := 0
  /-- the fault retirement that stands behind a retirement (R358) -/
  skewFailed : Bool := false
  deriving DecidableEq, Repr

/-- What a row-stage entry holds for a row (R126, R163, R192, R197). -/
inductive StageKind where
  | row | hid | dY | dHid
  deriving DecidableEq, Repr

/-- A row-stage entry: a row copy, its H, its dY' or its dH', as BF16 or payload bytes. -/
structure StageEntry where
  bolt : Nat
  row : Nat
  kind : StageKind
  proj : Nat := 0
  adapter : Nat := 0
  bytes : List Byte := []
  sat : Bool := false
  nan : Bool := false
  /-- the copy is unusable (R434) -/
  spoiled : Bool := false
  deriving DecidableEq, Repr

/-- A gang of a window in one Harness, waiting for its turn (R110, R306): the picks it forms are those of its
purposes, on the same segments. -/
structure Gang where
  bolt : Nat
  window : Nat
  proj : Nat
  adapter : Nat
  tenant : Nat
  layer : Nat
  rank : Nat
  version : Nat
  fmt : EFmt
  rows : List Nat
  kind : PickKind
  purposes : List Purpose
  /-- d_in and d_out of the projection, and the format of the rows -/
  din : Nat
  dout : Nat
  rowFmt : EFmt
  /-- skein tiles its picks read -/
  tiles : List Nat
  firstTerm : Nat := 0
  /-- PICK_T_ROWS: where the stashed operand of each row lies (R196) -/
  stash : List Nat := []
  /-- replacements of the original picks so far (R347) -/
  replay : Nat := 0
  deriving DecidableEq, Repr

/-- R307: a tenant's adapters of a window that wait for a turn, in ascending ID, each with its gangs, and the tenant's weight as the
window was formed (R309). -/
structure TenantQueue where
  tenant : Nat
  weight : Nat
  gangs : List (List Gang)
  deriving DecidableEq, Repr

/-- A window of a bolt in one Harness while turns of it are still to be placed (R306 to R308). -/
structure Turns where
  bolt : Nat
  window : Nat
  /-- queue[k] of R307: tenants ascending -/
  queues : List TenantQueue
  /-- SD_TURN_CTRL.WINDOW_FRAMES as the window was formed (R309) -/
  frames : Nat := 1
  deferred : List Gang := []
  start : Nat := 0
  placed : Nat := 0
  deriving DecidableEq, Repr

/-- A row copy waiting for the crossbar (R126). -/
structure StageReq where
  bolt : Nat
  row : Nat
  deriving DecidableEq, Repr

/-- The per-Harness part of the Shuttle and of the allocator. -/
structure Harness where
  ptr : Nat := 0
  turns : List Turns := []
  stage : List StageEntry := []
  reqs : List StageReq := []
  heldOn : Bool := false
  /-- issue is granted in the present window (R379) -/
  granted : Bool := true
  deriving DecidableEq, Repr

/-- A strand of one tile of a long sum, waiting in the network (R145, R146). -/
structure Strand where
  harness : Nat
  core : Nat
  tile : Nat
  pick : Nat
  firstTerm : Nat
  outTile : Nat
  elems : List (Nat × Partial)
  deriving DecidableEq, Repr

/-- A partial that the network holds for one tile (R146): at level 0 a cell, the sum of the strands that begin in one span
of 65,536 terms; above it a node of the tree, over the spans of its two children. -/
structure Cell where
  level : Nat := 0
  index : Nat
  outTile : Nat
  harness : Nat
  elems : List (Nat × Partial)
  /-- after a spill: the stack of the Beam frame that holds it, and its values in FP32 as they stand there (R149, R256) -/
  frame : Option Nat := none
  spilled : List F32 := []
  deriving DecidableEq, Repr

/-- The long sums of one adapter, layer, projection and matrix (R198): an element is k · 65,536 + n. -/
structure LongSum where
  rev : Nat
  adapter : Nat
  layer : Nat
  proj : Nat
  isB : Bool
  terms : Nat := 0
  isInt : Bool := false
  strands : List Strand := []
  cells : List Cell := []
  /-- Harness, core, reed tile and pick of the strand drained last -/
  last : Nat × Nat × Nat × Nat := (0, 0, 0, 0)
  incomplete : Bool := false
  deriving DecidableEq, Repr

/-- A flying-shuttle bolt at work (R310 to R313). -/
structure Sprint where
  bolt : Nat
  /-- usable cores, by 66 · h + c, ascending -/
  cores : List Nat
  /-- partial tiles received by the network, by core and adapter -/
  parts : List (Nat × Nat × TileOut) := []
  /-- the picks of its rows have been formed -/
  formed : Bool := false
  /-- H has returned down the tree -/
  hDone : Bool := false
  startAclk : Nat := 0
  deriving DecidableEq, Repr

/-- Cores, Shuttle and Reed Network. -/
structure Heddle where
  /-- core positions by 66·h + c; an unlisted one is the default core -/
  cores : SMap Core := []
  harnesses : List Harness := [{}, {}, {}, {}, {}, {}, {}, {}]
  picks : List Pick := []
  nextPick : Nat := 1
  sums : List LongSum := []
  sprint : Option Sprint := none
  sprintHold : Bool := false
  deriving DecidableEq, Repr

/-! ## Spindle (chapter 7) -/

/-- A value in vector assembly: its destination (row, element) and its flags (R164). -/
structure Lane where
  v : F32
  row : Nat
  col : Nat
  sat : Bool := false
  nan : Bool := false
  deriving DecidableEq, Repr

/-- A closed vector: the class's input streams V0 to V3 by lane. -/
structure Vec where
  v0 : List Lane
  v1 : List F32 := []
  v2 : List F32 := []
  v3 : List F32 := []
  deriving DecidableEq, Repr

/-- A vector register: its lanes from lane 0, and what every further lane holds. -/
structure VReg where
  lanes : List F32 := []
  rest : F32 := 0
  deriving DecidableEq, Repr

/-- The registers of a running program (Table 7.2): V0 to V15, S0 to S15, M1 to M7 (a lane not listed is not set). -/
structure SpRegs where
  v : List VReg := []
  s : List F32 := []
  m : List (List Bool) := []
  deriving DecidableEq, Repr

/-- A run of a program on one vector: its registers, VL, the vector and scalar writes to streams so far, and its events. -/
structure Run1 where
  regs : SpRegs
  vl : Nat
  /-- stream, values of lanes 0 to VL − 1, and which of them were active -/
  vst : List (Nat × List (F32 × Bool)) := []
  sst : List (Nat × F32) := []
  permRange : Nat := 0
  empty : Nat := 0
  deriving DecidableEq, Repr

/-- The key of a job (Table 7.1); a stream class of a bolt adds its window as `chunk`. -/
structure JobKey where
  cls : Nat
  bolt : Nat := 0
  adapter : Nat := 0
  proj : Nat := 0
  layer : Nat := 0
  isB : Bool := false
  row : Nat := 0
  chunk : Nat := 0
  deriving DecidableEq, Repr

/-- An embedding table's definition (R228). -/
structure Table where
  k : Nat
  kind : Nat
  passMode : Bool
  pool : Nat
  shared : Bool
  mul : Bool
  format : Nat
  tenant : Nat
  compA : Nat
  compB : Nat
  width : Nat
  shadow : Nat
  logical : Nat
  m : Nat
  phys : Nat
  seed : Nat
  pointers : Nat
  slots : Nat
  deflt : Nat
  free : Nat
  deriving DecidableEq, Repr

/-- A row an embedding bag reads (R234, R236): where it lies, its element format, its table and slot while a reference
on the slot stands (R238), and its bytes once they have reached the slice. -/
structure RowRead where
  addr : Nat
  len : Nat
  table : Nat
  /-- no slot for the default row -/
  slot : Option Nat
  got : Option (List Byte) := none
  failed : Bool := false
  /-- a unit's failure stands behind it (R277) -/
  gone : Bool := false
  deriving DecidableEq, Repr

/-- One index of a bag: the reads it combines, by position, and the operation of a composed row. -/
structure BagIndex where
  first : Nat
  second : Option Nat := none
  mul : Bool := false
  deriving DecidableEq, Repr

/-- A job: what Table 7.1 runs for one key. A row of an element class is one job, whose chunks run one after another. -/
structure Job where
  key : JobKey
  started : Bool := false
  slot : Nat := 0
  regs : SpRegs := {}
  /-- S0 to S7 at its start, where they are fixed as the job is formed (R206) -/
  params : List F32 := []
  /-- lane width of the mode it started in (R162) -/
  width : Nat := 2048
  open_ : List Lane := []
  vecs : List Vec := []
  largest : Nat := 0
  /-- element classes: the first element of the running chunk, and the elements of the row -/
  pos : Nat := 0
  total : Nat := 0
  outs : List Stored := []
  reads : List RowRead := []
  bag : List BagIndex := []
  /-- of a bag: its indices, until they are resolved (R230); the definitions that it was grouped under, its table's first
  (R234, R432); the window that formed it -/
  indices : List Nat := []
  defs : List Table := []
  window : Nat := 0
  /-- rows of the bag -/
  rows : List Nat := []
  /-- the picks whose drains fed it (R187) -/
  fed : List Pick := []
  deriving DecidableEq, Repr

/-- An output tile open in the combine store (R167, R168). -/
structure Combine where
  bolt : Nat
  adapter : Nat
  proj : Nat
  purpose : Purpose
  window : Nat
  group : Nat
  outTile : Nat
  next : Nat := 0
  last : Nat := 0
  sum : List OutVal := []
  sat : Bool := false
  nan : Bool := false
  /-- partials ahead of their turn, by copy -/
  early : List (Nat × List OutVal × Bool × Bool) := []
  fed : List Pick := []
  deriving DecidableEq, Repr

/-- A run that a Spindle stopped between instructions has in progress (R412, R416): whose it is, of the body or the tail,
the words executed so far, and what they have done. -/
structure MidRun where
  key : JobKey
  tail : Bool
  pc : Nat
  run : Run1
  deriving DecidableEq, Repr

/-- One Spindle Vector Unit. -/
structure Spindle where
  forced : Bool := false
  blockFault : BitVec 8 := 0
  /-- every block is marked by a parity error in a program slot (R187) -/
  progFault : Bool := false
  failed : Bool := false
  jobs : List Job := []
  combines : List Combine := []
  /-- a run stopped between two instructions (R412) -/
  mid : Option MidRun := none
  /-- the register file as the last run left it, its VL, and whose run it was -/
  file : SpRegs := {}
  vl : Nat := 0
  last : Option JobKey := none
  deriving DecidableEq, Repr

/-! ## Skein Table Unit and learning (chapters 8 and 9) -/

/-- A COMMIT_VERSION received (R223). -/
structure Commit where
  all : Bool
  adapter : Nat
  expected : Nat
  deriving DecidableEq, Repr

/-- A flip of a PASS-mode table held for the boundary (R239). -/
structure HeldFlip where
  table : Nat
  row : Nat
  slot : Nat
  deriving DecidableEq, Repr

/-- The free-list ring of a table (R229). -/
structure Ring where
  head : Nat := 0
  count : Nat := 0
  deriving DecidableEq, Repr

/-- A stash entry (R191, R193). -/
structure Stash where
  layer : Nat
  proj : Nat
  bolt24 : Nat
  row : Nat
  isDh : Bool
  adapter : Nat
  tenant : Nat
  request : Nat
  position : Nat
  addr : Nat
  len : Nat
  used : Bool := false
  deriving DecidableEq, Repr

/-- An adapter that contributed in a LEARN revolution (R190, R203 to R207). -/
structure Learner where
  adapter : Nat
  rev : Nat
  learns : Bool
  record : List W64
  /-- a long sum lost terms (R349), or a message of its exchange was lost (R298) -/
  incomplete : Bool := false
  normDone : Bool := false
  skipped : Bool := false
  /-- Table 8.4: c, c · s, then S1 to S7; empty until they are fixed -/
  scalars : List F32 := []
  /-- (layer, projection) of the updates started, and of those that wait for the scalars (R207) -/
  started : List (Nat × Nat) := []
  waiting : List (Nat × Nat) := []
  /-- R210: the pending version of this revolution is open -/
  opened : Bool := false
  /-- layers whose run found the pool empty (R221) -/
  poolFailed : List Nat := []
  /-- (layer, projection, B) of the matrices whose GRAD_OUT work has ended (R201) -/
  outDone : List (Nat × Nat × Bool) := []
  /-- layers whose gradients have gone to the exchange (R297) -/
  sent : List Nat := []
  deriving DecidableEq, Repr

/-- The Skein Table Unit. -/
structure Skein where
  latches : SMap Nat := []
  pendList : List Nat := []
  commits : List Commit := []
  updates : List (Nat × List W64) := []
  /-- tiles of the run pool in use -/
  poolUsed : List Nat := []
  revHarness : SMap (List Nat) := []
  lastHarness : SMap (List Nat) := []
  /-- adapters referenced in this revolution -/
  referenced : List Nat := []
  sketch : SMap Nat := []
  rings : SMap Ring := []
  flips : List HeldFlip := []
  /-- a replacement waiting for a free slot or a hold place: table, row, source, clear -/
  replacing : Option (Nat × Nat × Nat × Bool) := none
  /-- old slots waiting for their read references (R238): table, slot -/
  retiring : List (Nat × Nat) := []
  /-- values in force of boundary-deferred registers that hold a newer value (R432) -/
  deferred : SMap W64 := []
  /-- the descriptor cache: the adapters whose entries it holds, the latest first (R225) -/
  cache : List Nat := []
  learners : List Learner := []
  stashes : List Stash := []
  stashNext : Nat := 0
  /-- the last LEARN revolution (R301) -/
  learnRev : Nat := 0
  /-- the layers from here on have closed their gradients (R199) -/
  closedFrom : Nat := 1024
  deriving DecidableEq, Repr

/-! ## Loom Sequencer (chapter 2) -/

/-- An order of Table 2.7 that waits to be dispatched: a fired action with the index of its card (R47), or the mailbox
order (R55). `target` is the effective target. -/
structure Waiting where
  index : Nat := 0
  action : Nat
  target : Nat
  argument : W64
  deriving DecidableEq, Repr

/-- The Loom Sequencer. -/
structure Loom where
  queue : List W64 := []
  /-- indices of exact cards fired in this revolution (R47) -/
  fired : List Nat := []
  /-- fired actions not yet dispatched, in card order (R40, R41) -/
  actions : List Waiting := []
  mbox : Option Waiting := none
  commitValid : Bool := false
  deriving DecidableEq, Repr

/-! ## Shed Exchange (chapter 11) -/

/-- A remote row waiting in an outgoing batch (R284, R285). -/
structure RemoteRow where
  bolt : Nat
  row : Nat
  proj : Nat
  adapter : Nat
  owner : Nat
  sent : Bool := false
  deriving DecidableEq, Repr

/-- A round of remote rows (R285, R286), or the follow-up round of a bolt. -/
structure Round where
  angle : W64
  late : Option Nat := none
  launched : Bool := false
  rows : List RemoteRow := []
  deriving DecidableEq, Repr

/-- A message sent whose outstanding time has not ended (R293). Hosts are numbered 8 · Mill + host. -/
structure Sent where
  id : Nat
  dst : Nat
  kind : Nat
  /-- header, ciphertext and tag, as the Fabric port carries them -/
  bytes : List Byte
  /-- rows (bolt, row) that a REQUEST carries, and records of a RESPONSE -/
  rows : List (Nat × Nat) := []
  adapter : Option Nat := none
  deriving DecidableEq, Repr

/-- A REQUEST section that waits for a remote bolt to end (R287): source, round, its descriptor, its row records. -/
structure HeldSection where
  src : Nat
  angle : W64
  desc : List W64
  rows : List (Nat × List Byte)
  last : Bool
  deriving DecidableEq, Repr

/-- A chunk under reduction (R297), by its number in the adapter: partials by host. -/
structure Reduction where
  adapter : Nat
  chunk : Nat
  parts : SMap (List F32) := []
  done : Bool := false
  deriving DecidableEq, Repr

/-- The norm slots of an adapter under exchange (R298): partials by host. -/
structure NormExchange where
  adapter : Nat
  parts : SMap (List F32) := []
  done : Bool := false
  deriving DecidableEq, Repr

/-- A reshard under way (R300 to R303). -/
structure Reshard where
  plan : Nat
  /-- chunks expected: adapter, source host, how many -/
  gathers : List (Nat × Nat × Nat) := []
  /-- move entries expected: source, first tile, tiles still to come -/
  moves : List (Nat × Nat × Nat) := []
  /-- messages not yet delivered -/
  sends : List Nat := []
  /-- its plan has been read: all it sends has been sent -/
  started : Bool := false
  deriving DecidableEq, Repr

/-- The Shed Exchange. -/
structure Exchange where
  rounds : List Round := []
  /-- the deadline that SET_EXCHANGE_DEADLINE set for the current word, in ns; 0: SX_CTRL.DEADLINE_NS -/
  deadlineNs : Nat := 0
  /-- the round of the current word has launched or its deadline has passed -/
  roundDone : Bool := false
  nextSeq : Nat := 0
  nextMsg : Nat := 1
  /-- (EPOCH, SEQ) kept for each source -/
  kept : SMap (Nat × Nat) := []
  outstanding : List Sent := []
  held : List HeldSection := []
  reductions : List Reduction := []
  norms : List NormExchange := []
  reshard : Option Reshard := none
  /-- verified GATHER and MOVE payloads that came before this host's BEGIN_RESHARD: kind, source, payload -/
  early : List (Nat × Nat × List Byte) := []
  /-- a GATHER or MOVE message that was lost before it (R303): KIND of SX_FAULT_LOG, host, SEQ -/
  earlyLost : Option (Nat × Nat × Nat) := none
  /-- bytes sent and received that do not yet make up a KiB -/
  outRest : Nat := 0
  inRest : Nat := 0
  deriving DecidableEq, Repr

/-! ## Selvedge Security Unit (chapter 13) -/

/-- Stages of the grant procedure (R332). -/
inductive GrantStage where
  | none | draining | erasing
  deriving DecidableEq, Repr

/-- The Selvedge Security Unit. -/
structure Security where
  /-- tenant key slots (64 B each) by slot -/
  keys : SMap (List Byte) := []
  /-- exchange keys: INTRA 0, INTER 1 -/
  xkeys : SMap (List Byte) := []
  level : Nat := 0
  debugged : Bool := false
  grant : GrantStage := .none
  lockout : Bool := false
  retireAuth : Bool := false
  fails : Nat := 0
  /-- a challenge stands and is not consumed; its purpose -/
  challenge : Option Nat := none
  challenges : Nat := 0
  /-- a verification runs: its purpose, and the result it will give (R331) -/
  verifying : Option (Nat × Nat) := none
  /-- a request for FULL waits for the grant procedure (R332) -/
  levelWaits : Bool := false
  /-- steps 3 to 5 of R332 are to be finished after a protection HOLD (R336) -/
  unfinished : Bool := false
  /-- key slots (kind, slot) whose ERASE waits for uses in flight (R321) -/
  erasing : List (Nat × Nat) := []
  deriving DecidableEq, Repr

/-! ## Custody Unit (chapter 14) -/

/-- An entry of the Tally (Table 14.7), as bytes. -/
structure TallyEntry where
  words : List W64
  deriving DecidableEq, Repr

/-- The Custody Unit. -/
structure Custody where
  engineFailed : Bool := false
  harnessPending : BitVec 8 := 0
  harnessRetired : BitVec 8 := 0
  tally : List TallyEntry := []
  draining : Bool := false
  /-- entries of the present drain still to be written -/
  drainLeft : Nat := 0
  /-- proof picks: Harness, core, angle -/
  proofs : List (Nat × Nat) := []
  joins : List Nat := []
  aclk : Nat := 0
  deriving DecidableEq, Repr

/-! ## Power and Clock Manager (chapter 15) -/

/-- PM_STATUS.POWER, and OFF (R370, R433). -/
inductive Power where
  | run | idle | hold | enteringHold | off
  deriving DecidableEq, Repr

/-- The Power and Clock Manager. -/
structure PowerMgr where
  st : Power := .run
  protect : Bool := false
  /-- exit from HOLD: none, waiting for VDD_ZQS and temperature, reconnecting -/
  exiting : Bool := false
  reconnecting : Bool := false
  exitCmd : Bool := false
  holdCmd : Bool := false
  /-- counted levels of RESET_N, PWROK, THROTTLE, WAKE -/
  resetN : Bool := true
  pwrok : Bool := true
  throttle : Bool := false
  wake : Bool := false
  thermal : Bool := false
  crit : Bool := false
  limit : Bool := false
  /-- estimates below the limit in a row (R382) -/
  limitClear : Nat := 0
  supplyLow : Bool := false
  stuck : Bool := false
  warned : Bool := false
  sensors : List Nat := [0, 0, 0, 0, 0, 0, 0, 0, 0, 0, 0, 0, 0, 0, 0, 0]
  sensorFailed : BitVec 16 := 0
  vddMv : Nat := 750
  vddsMv : Nat := 750
  /-- w of R379 -/
  window : Nat := 0
  /-- levels of the four interrupt lines at the entry to HOLD (Table 15.8): DONE, TIER, SEC, FAULT from bit 0 -/
  irqHeld : Nat := 0
  /-- chatter counts of each input in the present ms, and which ms that is (R383) -/
  chatterMs : List Nat := [0, 0, 0, 0]
  chatterAt : List Nat := [0, 0, 0, 0]
  /-- R378: after a clock loss 1, once RESET_N has counted low 2, else 0: reset ends only at 0 -/
  lossGate : Nat := 0
  deriving DecidableEq, Repr

/-! ## Boot, fuses, flash, debug (chapters 13, 16 and 17) -/

/-- Stages of boot (R402). -/
inductive Stage where
  | inReset | bootRead | bootTest | up
  deriving DecidableEq, Repr

/-- The OTP fuse bank (R325, R402, R407). -/
structure Fuses where
  lifecycle : Nat := 0
  pending : Nat := 0
  kik : List Byte := []
  kikDestroyed : Bool := false
  debugHash : List Byte := []
  imageHash : List Byte := []
  lot : Nat := 0
  wafer : Nat := 0
  dieX : Nat := 0
  dieY : Nat := 0
  inst : Nat := 3
  stepping : Nat := 0x10
  rev : Nat := 2
  /-- fuse records of the core positions, by 66·h + c; unlisted: 0x0000 -/
  cores : SMap (BitVec 16) := []
  /-- the JTAG manufacturer code of R408 -/
  manufacturer : Nat := 0
  deriving DecidableEq, Repr

/-- A flash command in progress (R405). -/
structure FlashOp where
  op : Nat
  addr : Nat
  /-- the bytes that PROGRAM writes, as they left BD_FLASH_BUF -/
  data : List Byte := []
  deriving DecidableEq, Repr

/-- Boot state and the configuration flash. -/
structure Boot where
  stage : Stage := .inReset
  code : Nat := 0
  sectionType : Nat := 0
  record : Nat := 0
  us : Nat := 0
  singleIo : Bool := false
  signed : Bool := false
  factory : Bool := true
  earlyWrites : Nat := 0
  imageVersion : Nat := 0
  done : Bool := false
  flash : FlashFound := ⟨0, false, 0, false, 0, false⟩
  /-- content of the NOR flash; an unlisted byte reads 0xFF (erased) -/
  nor : SMap Byte := []
  cmd : Option FlashOp := none
  /-- words of the program slots as the Warp image gave them, by offset (R188) -/
  progs : SMap W64 := []
  deriving DecidableEq, Repr

/-- The scope of a halt (R411): engine 0, Harness 1, core 2, Spindle 3; a field that the scope does not use is 0. -/
structure HaltReq where
  scope : Nat
  h : Nat
  c : Nat
  deriving DecidableEq, Repr

/-- The Treadle port and the Debug Module's memory access. -/
structure Debug where
  /-- TAP instruction: IDCODE 0, BYPASS 1, TREADLE 2 -/
  tapIr : Nat := 0
  /-- the 96-bit access register's captured response: status, data -/
  tapStatus : Nat := 0
  tapData : W64 := 0
  /-- what the port shows at a single step: the four words of Table 4.3 of the stepped pick (R95) -/
  stepPick : List W64 := []
  pendingHalts : List HaltReq := []
  /-- halts in force (R411): what they cover is halted -/
  halts : List HaltReq := []
  lastHit : Nat := 0
  lastIndex : Nat := 0
  xtrigOut : Bool := false
  deriving DecidableEq, Repr

/-- What the register port answered last: data of a read, acceptance of a write, or an error (R10). -/
inductive PortResp where
  | none | data (v : W64) | written | error
  deriving DecidableEq, Repr

/-! ## The whole -/

/-- The state of the engine. -/
structure State where
  /-- commands waiting, first in, first out (the model's own) -/
  pending : List Instr := []
  /-- the register window: offset to word; an unlisted offset holds its reset value -/
  regs : SMap W64 := []
  /-- WL fields that have taken their first write: offset · 64 + low bit -/
  locked : List Nat := []
  resp : PortResp := .none
  loom : Loom := {}
  weft : Weft := {}
  heddle : Heddle := {}
  spindles : List Spindle := [{}, {}, {}, {}, {}, {}, {}, {}]
  skein : Skein := {}
  tiers : Tiers := {}
  exch : Exchange := {}
  sec : Security := {}
  cust : Custody := {}
  pm : PowerMgr := {}
  fuses : Fuses := {}
  boot : Boot := {}
  dbg : Debug := {}
  /-- ordinal of the next free value (the model's own) -/
  free : Nat := 0
  deriving DecidableEq, Repr

/-- Faults: the engine reports its faults in its records, registers and interrupt lines, and goes on. No command
of the spec stops the machine, so no meaning raises a fault. -/
inductive Fault where
  /-- Raised by nothing: kept so that the type names what a stop would be. Safe. -/
  | none
  deriving DecidableEq, Repr

/-- Refusals. -/
inductive Refusal where
  /-- Raised by the arms of `exec` whose command has no meaning yet, and by nothing else. Safe. -/
  | notModelled (mnemonic : String)
  deriving DecidableEq, Repr

/-- The machine right after reset (R13, R386): every register at its reset entry, every store empty, POWER_ON set in
PM_RESET_CAUSE (bit 3, offset 0x080_0040), the inputs counted inactive. Log entries 1 to 3. -/
def State.reset : State := { regs := [(0x800040, 8#64)] }

end Sys2Proof.Machine
end

