-- ==== Sys2Proof/Machine/Regs.lean ====
section
/-! DEFINITION. The register file: reset values (R13), and reads and writes of words and fields by hardware.
Every register has one home, `State.regs`; the port's access codes are in Machine/Registers.lean. -/

namespace Sys2Proof.Machine

/-- Tables 7.7 and 8.5: the words of the factory programs, by slot. -/
def factoryProgram : Nat → List Nat
  | 0 => [0x6000000000000000]
  | 1 => [0x1200000800000000, 0x6000000000000000]
  | 2 => [0x1200010800000000, 0x6000000000000000]
  | 3 => [0x1200000800000000, 0x6000000000000000]
  | 4 => [0x4101000000000000, 0x5008810000000000, 0x6000000000000000, 0, 0x6100800000000001]
  | 5 => [0x1200000800000000, 0x1202210800000000, 0x1302022800000000, 0x1204000000000000,
          0x1203330800000000, 0x1303443800000000, 0x1505300000000000, 0x1005560800000000,
          0x1406250000000000, 0x1201170800000000, 0x1206650800000000, 0x1101160000000000,
          0x6000100000000000, 0x6000200000000001, 0x6000300000000002]
  | 6 => [0x1008800000000000, 0, 0x6000800000000000]
  | 7 => [0x1608800000000000, 0, 0x6000800000000000]
  | _ => []

/-- Table 7.7: instruction i of slot s, END (all zero) elsewhere. -/
def factoryWord (slot i : Nat) : W64 := BitVec.ofNat 64 ((factoryProgram slot).getD i 0)

/-- The factory word of HA[h].SV_MAP[k]: slot k, and MINUS_INF for V8 of class 0x7. -/
def factoryMap (k : Nat) : W64 := BitVec.ofNat 64 (k + (if k = 7 then 2 ^ 32 else 0))

/-- A word put together from its fields' reset entries. -/
def assembleReset (r : RegWord) : W64 :=
  BitVec.ofNat 64 ((r.fields.map (fun f => f.dflt * 2 ^ f.lo)).sum)

/-- R13: the reset value of the word at an offset; 0 where no register is assigned (R11). -/
def resetWord (off : Nat) : W64 :=
  let b := blockOffset off
  if 0x3000000 ≤ off && 0x14000 ≤ b && b < 0x18000 then factoryWord ((b - 0x14000) / 0x200) ((b - 0x14000) % 0x200 / 8)
  else if 0x3000000 ≤ off && 0x10040 ≤ b && b < 0x10080 then factoryMap ((b - 0x10040) / 8)
  else match findReg off with
    | some r => assembleReset r
    | none => 0

/-- The word at an offset. -/
def State.word (s : State) (off : Nat) : W64 :=
  match mapFind s.regs off with
  | some v => v
  | none => resetWord off

/-- The word at an offset replaced. -/
def State.setWord (s : State) (off : Nat) (v : W64) : State :=
  { s with regs := mapPut (resetWord off) s.regs off v }

/-- The width of a field. -/
def fldWidth (f : Fld) : Nat := f.hi + 1 - f.lo

/-- A field's value. -/
def State.get (s : State) (f : Fld) : Nat := bitsOf (s.word f.off).toNat f.hi f.lo

/-- A 1-bit field as a truth value. -/
def State.flag (s : State) (f : Fld) : Bool := s.get f != 0

/-- A word with bits [hi:lo] replaced. -/
def putBits (w : W64) (hi lo v : Nat) : W64 :=
  let m : W64 := BitVec.ofNat 64 (2 ^ (hi + 1) - 2 ^ lo)
  (w &&& ~~~m) ||| (BitVec.ofNat 64 (v % 2 ^ (hi + 1 - lo) * 2 ^ lo))

/-- A field's value replaced. -/
def State.set (s : State) (f : Fld) (v : Nat) : State :=
  s.setWord f.off (putBits (s.word f.off) f.hi f.lo v)

/-- A 1-bit field from a truth value. -/
def State.setFlag (s : State) (f : Fld) (b : Bool) : State := s.set f (if b then 1 else 0)

/-- A counter increased; it saturates at its largest value. -/
def State.bump (s : State) (f : Fld) (n : Nat := 1) : State :=
  s.set f (min (s.get f + n) (2 ^ fldWidth f - 1))

end Sys2Proof.Machine
end

