-- ==== Sys2Proof/Machine/Element.lean ====
section
/-! DEFINITION. Element programs of the Spindle (chapter 7): the instruction word (Table 7.3), the instructions (Table
7.4), permutes (R176), reductions (R177, R178), a run of a body or a tail (R171), the conversion of stream values (R179,
R180), and the validation of a map entry (R184). -/

namespace Sys2Proof.Machine

/-! ## The instruction word (Table 7.3) -/

/-- Table 7.3: OPCODE. -/
def iOp (w : W64) : Nat := bitsOf w.toNat 63 56
/-- Table 7.3: MASK. -/
def iMask (w : W64) : Nat := bitsOf w.toNat 55 53
/-- Table 7.3: ZERO. -/
def iZero (w : W64) : Bool := bitOf w.toNat 52
/-- Table 7.3: DST. -/
def iDst (w : W64) : Nat := bitsOf w.toNat 51 48
/-- Table 7.3: A. -/
def iA (w : W64) : Nat := bitsOf w.toNat 47 44
/-- Table 7.3: B. -/
def iB (w : W64) : Nat := bitsOf w.toNat 43 40
/-- Table 7.3: C. -/
def iC (w : W64) : Nat := bitsOf w.toNat 39 36
/-- Table 7.3: B_S. -/
def iBS (w : W64) : Bool := bitOf w.toNat 35
/-- Table 7.3: C_S. -/
def iCS (w : W64) : Bool := bitOf w.toNat 34
/-- Table 7.3: IMM. -/
def iImm (w : W64) : F32 := BitVec.ofNat 32 (bitsOf w.toNat 31 0)

/-- Table 7.4: the assigned opcodes with their issue cycles. -/
def issueTable : List (Nat × Nat) :=
  [(0x00, 0), (0x01, 1), (0x10, 1), (0x11, 1), (0x12, 1), (0x13, 1), (0x14, 4), (0x15, 4), (0x16, 1), (0x17, 1),
   (0x18, 1), (0x19, 1), (0x1A, 4), (0x1B, 4), (0x1C, 1), (0x20, 1), (0x21, 1), (0x22, 1), (0x24, 0), (0x25, 0),
   (0x26, 0)] ++
  [(0x30, 2), (0x31, 1), (0x32, 1), (0x33, 1), (0x40, 1), (0x41, 1), (0x42, 1), (0x43, 1), (0x44, 1), (0x50, 0),
   (0x51, 0), (0x52, 0), (0x53, 0), (0x54, 0), (0x55, 0), (0x60, 0), (0x61, 0)]

/-- Issue cycles of an opcode; none where it is reserved. -/
def issueCycles (op : Nat) : Option Nat := (issueTable.find? (·.1 == op)).map (·.2)

/-- R171: the body of a program: the instructions before its first END. -/
def progBody (p : List W64) : List W64 := p.takeWhile (fun w => iOp w != 0)

/-- R171: the tail: those between its first two ENDs. -/
def progTail (p : List W64) : List W64 := progBody ((p.dropWhile (fun w => iOp w != 0)).drop 1)

/-- R186: issue cycles of a list of instructions. -/
def progCost (l : List W64) : Nat := (l.map (fun w => (issueCycles (iOp w)).getD 0)).sum

/-! ## Registers (Table 7.2) -/

/-- Lane i of a vector register. -/
def VReg.get (r : VReg) (i : Nat) : F32 := r.lanes.getD i r.rest

/-- Vector register n. -/
def Run1.v (r : Run1) (n : Nat) : VReg := r.regs.v.getD n {}
/-- Scalar register n. -/
def Run1.s (r : Run1) (n : Nat) : F32 := r.regs.s.getD n 0
/-- Lane i of mask register n; M0 has lanes 0 to VL − 1 set. -/
def Run1.m (r : Run1) (n i : Nat) : Bool :=
  decide (i < r.vl) && (n == 0 || (r.regs.m.getD n []).getD i false)
/-- Is lane i active for an instruction? -/
def Run1.active (r : Run1) (w : W64) (i : Nat) : Bool := r.m (iMask w) i

/-- Source B in lane i: a vector lane, or a scalar. -/
def Run1.b (r : Run1) (w : W64) (i : Nat) : F32 := if iBS w then r.s (iB w) else (r.v (iB w)).get i
/-- Source C in lane i. -/
def Run1.c (r : Run1) (w : W64) (i : Nat) : F32 := if iCS w then r.s (iC w) else (r.v (iC w)).get i

/-- Table 7.3: a vector result: active lanes take their value, the others +0 or what they hold. -/
def Run1.putV (r : Run1) (w : W64) (f : Nat → F32) : Run1 :=
  let old := r.v (iDst w)
  let n := max r.vl (if iZero w then 0 else old.lanes.length)
  let lanes := (List.range n).map (fun i =>
    if r.active w i then f i else if iZero w then 0 else old.get i)
  { r with regs := { r.regs with v := setAt r.regs.v (iDst w) ⟨lanes, if iZero w then 0 else old.rest⟩ } }

/-- A scalar result. -/
def Run1.putS (r : Run1) (w : W64) (x : F32) : Run1 := { r with regs := { r.regs with s := setAt r.regs.s (iDst w) x } }

/-- A mask result on active lanes; the others keep their bit. -/
def Run1.putM (r : Run1) (w : W64) (f : Nat → Bool) : Run1 :=
  let bits := (List.range r.vl).map (fun i => if r.active w i then f i else r.m (iDst w) i)
  { r with regs := { r.regs with m := setAt r.regs.m (iDst w) bits } }

/-! ## Reductions (R177, R178) -/

/-- One level of the aligned pairwise tree: an absent child passes its sibling. -/
def treeLevel (add : F32 → F32 → F32) : List (Option F32) → List (Option F32)
  | a :: b :: t =>
    (match a, b with
     | some x, some y => some (add x y)
     | some x, none => some x
     | none, y => y) :: treeLevel add t
  | l => l

/-- The root of the tree over at most 2^n leaves. -/
def treeRoot (add : F32 → F32 → F32) : Nat → List (Option F32) → Option F32
  | 0, l => l.headD none
  | n + 1, l => treeRoot add n (treeLevel add l)

/-- The active lanes of source A, as leaves. -/
def Run1.leaves (r : Run1) (w : W64) (f : F32 → F32) : List (Option F32) :=
  (List.range r.vl).map (fun i => if r.active w i then some (f ((r.v (iA w)).get i)) else none)

/-- R173, R178, Table 7.5: a reduction, whose NaN is the one of R173, or its identity with the EMPTY event. -/
def Run1.reduce (r : Run1) (w : W64) (x : Option F32) (identity : F32) : Run1 :=
  match x with
  | some v => r.putS w (canonNan v)
  | none => { r.putS w identity with empty := r.empty + 1 }

/-- R174: the lane of the largest value among active lanes; the lowest NaN lane where one is NaN. -/
def argMax : Option (Nat × F32) → List (Nat × F32) → Option Nat
  | b, [] => b.map (·.1)
  | none, x :: t => if f32IsNan x.2 then some x.1 else argMax (some x) t
  | some b, x :: t =>
    if f32IsNan x.2 then some x.1 else if f32Key b.2 < f32Key x.2 then argMax (some x) t else argMax (some b) t

/-! ## Instructions (R173 to R178, Table 7.4) -/

/-- Numeric ≤, false with a NaN (R174). -/
def f32Le (a b : F32) : Bool := f32Lt a b || f32Eq a b

/-- R176: the permute result: lane i from a source lane, +0 where that lies outside the vector. -/
def Run1.permute (r : Run1) (w : W64) (src : Nat → Option Nat) : Run1 :=
  let out := ((List.range r.vl).filter (fun i => r.active w i && (src i).isNone)).length
  { r.putV w (fun i => match src i with | some j => (r.v (iA w)).get j | none => 0) with
      permRange := r.permRange + out }

/-- One instruction. A reserved opcode does nothing: R184 admits none to a map entry. -/
def Run1.step (r : Run1) (w : W64) : Run1 :=
  let a := fun i => (r.v (iA w)).get i
  match iOp w with
  | 0x10 => r.putV w (fun i => f32Add (a i) (r.b w i))
  | 0x11 => r.putV w (fun i => f32Sub (a i) (r.b w i))
  | 0x12 => r.putV w (fun i => f32Mul (a i) (r.b w i))
  | 0x13 => r.putV w (fun i => f32Fma (a i) (r.b w i) (r.c w i))
  | 0x14 => r.putV w (fun i => f32Div (a i) (r.b w i))
  | 0x15 => r.putV w (fun i => f32Sqrt (a i))
  | 0x16 => r.putV w (fun i => f32Max (a i) (r.b w i))
  | 0x17 => r.putV w (fun i => f32Min (a i) (r.b w i))
  | 0x18 => r.putV w (fun i => f32Abs (a i))
  | 0x19 => r.putV w (fun i => f32Neg (a i))
  | 0x1A => r.putV w (fun i => f32Exp2 (a i))
  | 0x1B => r.putV w (fun i => f32Log2 (a i))
  | 0x1C => r.putV w (fun i => if r.m (iC w) i then a i else r.b w i)
  | 0x20 => r.putM w (fun i => f32Lt (a i) (r.b w i))
  | 0x21 => r.putM w (fun i => f32Le (a i) (r.b w i))
  | 0x22 => r.putM w (fun i => f32Eq (a i) (r.b w i))
  | 0x24 => r.putM w (fun i => r.m (iA w) i && r.m (iB w) i)
  | 0x25 => r.putM w (fun i => r.m (iA w) i || r.m (iB w) i)
  | 0x26 => r.putM w (fun i => !r.m (iA w) i)
  | 0x30 => r.permute w (fun i => let j := (r.b w i).toNat; if j < r.vl then some j else none)
  | 0x31 => r.permute w (fun i =>
      let j := (i : Int) + (iImm w).toInt
      if 0 ≤ j && decide (j < r.vl) then some j.toNat else none)
  | 0x32 => r.putV w (fun _ => r.s (iB w))
  | 0x33 => r.putV w (fun i => BitVec.ofNat 32 i)
  | 0x40 => r.reduce w (treeRoot f32Add 11 (r.leaves w id)) 0
  | 0x41 => r.reduce w (treeRoot f32Add 11 (r.leaves w (fun x => f32Mul x x))) 0
  | 0x42 => r.reduce w (treeRoot f32Max 11 (r.leaves w id)) 0xFF800000
  | 0x43 => r.reduce w (treeRoot f32Min 11 (r.leaves w id)) 0x7F800000
  | 0x44 => r.reduce w ((argMax none (((List.range r.vl).filter (r.active w)).map (fun i => (i, a i)))).map
      (BitVec.ofNat 32)) 0x0000FFFF
  | 0x50 => r.putS w (f32Add (r.s (iA w)) (r.s (iB w)))
  | 0x51 => r.putS w (f32Mul (r.s (iA w)) (r.s (iB w)))
  | 0x52 => r.putS w (f32Div (r.s (iA w)) (r.s (iB w)))
  | 0x53 => r.putS w (f32Sqrt (r.s (iA w)))
  | 0x54 => r.putS w (f32Max (r.s (iA w)) (r.s (iB w)))
  | 0x55 => r.putS w (iImm w)
  | 0x60 =>
    -- R181: a second write of a stream within one vector run replaces the first
    let k := (iImm w).toNat % 4
    let vals := (List.range r.vl).map (fun i => if r.active w i then (a i, true) else (0, false))
    { r with vst := r.vst.filter (fun x => x.1 != k) ++ [(k, vals)] }
  | 0x61 =>
    let k := (iImm w).toNat % 4
    { r with sst := r.sst.filter (fun x => x.1 != k) ++ [(k, r.s (iA w))] }
  | _ => r

/-- R171: every instruction sees the results of all earlier ones. -/
def Run1.run (r : Run1) (l : List W64) : Run1 := l.foldl Run1.step r

/-- Table 7.2: V0 to V3 as a vector brings them, V4 to V7 +0, M1 to M7 equal to M0. -/
def SpRegs.atVector (g : SpRegs) (v : Vec) : SpRegs :=
  { g with
    v := [⟨v.v0.map (·.v), 0⟩, ⟨v.v1, 0⟩, ⟨v.v2, 0⟩, ⟨v.v3, 0⟩, {}, {}, {}, {}] ++ g.v.drop 8,
    m := List.replicate 8 (List.replicate v.v0.length true) }

/-- Table 7.2, SV_MAP: the initial value of a 2-bit carry code. -/
def carryInit (code : Nat) : F32 := if code == 1 then 0xFF800000 else if code == 2 then 0x7F800000 else 0

/-- R170: the registers at instance start, with the parameters of the class. -/
def SpRegs.atStart (map : W64) (params : List F32) : SpRegs :=
  { v := List.replicate 8 {} ++ (List.range 8).map (fun i => ⟨[], carryInit (bitsOf map.toNat (33 + 2 * i) (32 + 2 * i))⟩),
    s := (List.range 8).map (fun i => params.getD i 0) ++
         (List.range 8).map (fun i => carryInit (bitsOf map.toNat (49 + 2 * i) (48 + 2 * i))),
    m := List.replicate 8 [] }

/-! ## Conversion of stream values (R179, R180) -/

/-- Convert the lanes of a VST: codes with the NAN and SAT events of active lanes, and, for an MX format, the scale of
each block of 32 lanes. None as format: FP32. -/
def convLanes (f : Option EFmt) (vals : List (F32 × Bool)) : List Conv × List Nat :=
  match f with
  | none => (vals.map (fun x => if x.2 then convF32 x.1 else ⟨0, false, false⟩), [])
  | some f =>
    if f.isMx then
      let bs := (groupsOf 32 vals).map (fun g =>
        let r := mxBlock f (g.map (fun x => if x.2 then x.1 else 0))
        (r.1, r.2.mapIdx (fun i c => if (g.getD i (0, false)).2 then c else { c with sat := false, nan := false })))
      (bs.flatMap (·.2), bs.map (·.1))
    else (vals.map (fun x => if x.2 then f.convert x.1 else ⟨0, false, false⟩), [])

/-! ## Validation of a map entry (R184) -/

/-- Table 7.1: streams of a class. -/
def classStreams : Nat → Nat
  | 4 => 2 | 5 => 3 | _ => 1

/-- Table 7.1: a stream class (its lanes carry tags). -/
def streamClass (k : Nat) : Bool := k == 0 || k == 1 || k == 3 || k == 4

/-- Does an instruction write M0, or name a mask register where a vector is due, or the reverse? -/
def badRegister (w : W64) : Bool :=
  let op := iOp w
  let maskOps := op == 0x20 || op == 0x21 || op == 0x22 || op == 0x24 || op == 0x25 || op == 0x26
  (maskOps && (iDst w == 0 || 7 < iDst w)) ||
    ((op == 0x24 || op == 0x25) && (7 < iA w || 7 < iB w || iBS w)) || (op == 0x26 && 7 < iA w) ||
    (op == 0x1C && (7 < iC w || iCS w))

/-- R184: REFUSE_REASON of a map write for class k naming a slot that holds `p`; 0 where it is admitted. -/
def mapReason (k : Nat) (v : W64) (p : List W64) : Nat :=
  let code := progBody p ++ progTail p
  if p.any (fun w => (issueCycles (iOp w)).isNone || bitsOf w.toNat 33 32 != 0) then 1
  else if (p.filter (fun w => iOp w == 0)).length < 2 then 2
  else if code.any badRegister then 3
  else if code.any (fun w => (iOp w == 0x60 || iOp w == 0x61) && decide (classStreams k ≤ (iImm w).toNat % 4)) then 4
  else if streamClass k && (progTail p).any (fun w => iOp w == 0x60) then 5
  else if (List.range 16).any (fun i => bitsOf v.toNat (33 + 2 * i) (32 + 2 * i) == 3) then 6
  else 0

end Sys2Proof.Machine
end

