-- ==== Sys2Proof/Machine/Crypto.lean ====
section
/-! DEFINITION. The ciphers and digests the spec names by their standards: AES-256 (FIPS 197), XTS (IEEE 1619,
R323), GCM (SP 800-38D, R290), key unwrap (RFC 3394, R320), SHA-384 (FIPS 180-4) and ECDSA on P-384 (FIPS 186-4,
R331). PRESUMED from those standards; log entry 12. -/

namespace Sys2Proof.Machine

/-- FIPS 197: the S-box, byte x at bits [8x + 7 : 8x]. -/
def sboxBits : Nat :=
  0x16bb54b00f2d99416842e6bf0d89a18cdf2855cee9871e9b948ed9691198f8e19e1dc186b95735610ef6034866b53e708a8bbd4b1f74dde8c6b4a61c2e2578ba08ae7a65eaf4566ca94ed58d6d37c8e779e4959162acd3c25c2406490a3a32e0db0b5ede14b8ee4688902a22dc4f816073195d643d7ea7c41744975fec130ccdd2f3ff1021dab6bcf5389d928f40a351a89f3c507f02f94585334d43fbaaefd0cf584c4a39becb6a5bb1fc20ed00d153842fe329b3d63b52a05a6e1b1a2c830975b227ebe28012079a059618c323c7041531d871f1e5a534ccf73f362693fdb7c072a49cafa2d4adf04759fa7dc982ca76abd7fe2b670130c56f6bf27b777c63

/-- FIPS 197: the inverse S-box, packed as `sboxBits`. -/
def invSboxBits : Nat :=
  0x7d0c2155631469e126d677ba7e042b17619953833cbbebc8b0f52aae4d3be0a0ef9cc9939f7ae52d0d4ab519a97f51605fec8027591012b131c7078833a8dd1ff45acd78fec0db9a2079d2c64b3e56fc1bbe18aa0e62b76f89c5291d711af1476edf751ce837f9e28535ade72274ac9673e6b4f0cecff297eadc674f4111913a6b8a130103bdafc1020f3fca8f1e2cd00645b3b80558e4f70ad3bc8c00abd890849d8da75746155edab9edfd5048706c92b6655dcc5ca4d41698688664f6f87225d18b6d49a25b76b224d92866a12e084ec3fa420b954cee3d23c2a632947b54cbe9dec444438e3487ff2f9b8239e37cfbd7f3819ea340bf38a53630d56a0952

/-- FIPS 197: SubBytes of one byte. -/
def sbox (x : Nat) : Nat := sboxBits / 2 ^ (8 * x) % 256
/-- FIPS 197: InvSubBytes of one byte. -/
def invSbox (x : Nat) : Nat := invSboxBits / 2 ^ (8 * x) % 256

/-- Multiplication by x in GF(2^8). -/
def xtime (a : Nat) : Nat := if a ≥ 128 then (2 * a % 256) ^^^ 0x1B else 2 * a

/-- Multiplication in GF(2^8) by a constant below 16. -/
def gmul (c a : Nat) : Nat :=
  let a2 := xtime a
  let a4 := xtime a2
  let a8 := xtime a4
  (if c % 2 = 1 then a else 0) ^^^ (if c / 2 % 2 = 1 then a2 else 0) ^^^
    (if c / 4 % 2 = 1 then a4 else 0) ^^^ (if c / 8 % 2 = 1 then a8 else 0)

/-- Bytewise exclusive or. -/
def xorList : List Nat → List Nat → List Nat
  | a :: s, b :: t => (a ^^^ b) :: xorList s t
  | _, _ => []

/-- FIPS 197: one step of the AES-256 key expansion: word i from words i − 8 and i − 1. -/
def keyWord (i rcon : Nat) (w8 w1 : List Nat) : List Nat :=
  let t :=
    if i % 8 = 0 then
      match (w1.drop 1 ++ w1.take 1).map sbox with
      | a :: r => (a ^^^ rcon) :: r
      | [] => []
    else if i % 8 = 4 then w1.map sbox
    else w1
  xorList w8 t

/-- FIPS 197: the words of the AES-256 key schedule, latest first. -/
def keyWords : Nat → Nat → Nat → List (List Nat) → List (List Nat)
  | 0, _, _, ws => ws
  | n + 1, i, rcon, ws =>
    keyWords n (i + 1) (if i % 8 = 0 then xtime rcon else rcon)
      (keyWord i rcon (ws.getD 7 []) (ws.headD []) :: ws)

/-- FIPS 197: the 15 round keys of a 32-byte key. -/
def roundKeys (key : List Nat) : List (List Nat) :=
  (groupsOf 4 (keyWords 52 8 1 (groupsOf 4 key).reverse).reverse).map (·.flatten)

/-- FIPS 197: ShiftRows by an index list. -/
def permute (ix : List Nat) (s : List Nat) : List Nat := ix.map (fun i => s.getD i 0)

/-- FIPS 197: MixColumns with a row of coefficients. -/
def mixCol (c0 c1 c2 c3 : Nat) : List Nat → List Nat
  | [a, b, c, d] =>
    [gmul c0 a ^^^ gmul c1 b ^^^ gmul c2 c ^^^ gmul c3 d,
     gmul c3 a ^^^ gmul c0 b ^^^ gmul c1 c ^^^ gmul c2 d,
     gmul c2 a ^^^ gmul c3 b ^^^ gmul c0 c ^^^ gmul c1 d,
     gmul c1 a ^^^ gmul c2 b ^^^ gmul c3 c ^^^ gmul c0 d]
  | l => l

/-- FIPS 197: the middle rounds of encryption and the last one. -/
def aesRounds : List (List Nat) → List Nat → List Nat
  | [], s => s
  | [k], s => xorList (permute [0, 5, 10, 15, 4, 9, 14, 3, 8, 13, 2, 7, 12, 1, 6, 11] (s.map sbox)) k
  | k :: ks, s =>
    let t := permute [0, 5, 10, 15, 4, 9, 14, 3, 8, 13, 2, 7, 12, 1, 6, 11] (s.map sbox)
    aesRounds ks (xorList ((groupsOf 4 t).flatMap (mixCol 2 3 1 1)) k)

/-- FIPS 197: AES encryption of a block under expanded round keys. -/
def aesEnc (rk : List (List Nat)) (block : List Nat) : List Nat :=
  match rk with
  | [] => block
  | k :: ks => aesRounds ks (xorList block k)

/-- FIPS 197: the middle rounds of decryption and the last one. -/
def aesInvRounds : List (List Nat) → List Nat → List Nat
  | [], s => s
  | [k], s => xorList ((permute [0, 13, 10, 7, 4, 1, 14, 11, 8, 5, 2, 15, 12, 9, 6, 3] s).map invSbox) k
  | k :: ks, s =>
    let t := xorList ((permute [0, 13, 10, 7, 4, 1, 14, 11, 8, 5, 2, 15, 12, 9, 6, 3] s).map invSbox) k
    aesInvRounds ks ((groupsOf 4 t).flatMap (mixCol 14 11 13 9))

/-- FIPS 197: AES decryption of a block under expanded round keys. -/
def aesDec (rk : List (List Nat)) (block : List Nat) : List Nat :=
  match rk.reverse with
  | [] => block
  | k :: ks => aesInvRounds ks (xorList block k)

/-- Bytes as numbers. -/
def natsOf (l : List Byte) : List Nat := l.map (·.toNat)
/-- Numbers as bytes. -/
def bytesOf (l : List Nat) : List Byte := l.map (fun x => BitVec.ofNat 8 x)

/-- Little-endian number of byte numbers. -/
def leOf : List Nat → Nat
  | [] => 0
  | b :: t => b + 256 * leOf t
/-- `n` little-endian byte numbers. -/
def leBytes : Nat → Nat → List Nat
  | 0, _ => []
  | n + 1, x => x % 256 :: leBytes n (x / 256)
/-- Big-endian number of byte numbers. -/
def beOf (l : List Nat) : Nat := l.foldl (fun a b => a * 256 + b) 0
/-- `n` big-endian byte numbers. -/
def beBytes (n x : Nat) : List Nat := (leBytes n x).reverse

/-- IEEE 1619: multiplication of a tweak by α. -/
def xtsNext (t : Nat) : Nat :=
  if t ≥ 2 ^ 127 then (2 * t - 2 ^ 128) ^^^ 0x87 else 2 * t

/-- IEEE 1619: the blocks of a data unit from a running tweak. -/
def xtsBlocks (f : List Nat → List Nat) : List (List Nat) → Nat → List (List Nat)
  | [], _ => []
  | b :: bs, t =>
    let tb := leBytes 16 t
    xorList (f (xorList b tb)) tb :: xtsBlocks f bs (xtsNext t)

/-- R323: XTS-AES-256 of one data unit (a multiple of 16 B): K1 the first 32 bytes of the key, K2 the last. -/
def xtsUnit (enc : Bool) (key : List Byte) (tweak : Nat) (data : List Byte) : List Byte :=
  let k1 := roundKeys (natsOf (key.take 32))
  let k2 := roundKeys (natsOf (key.drop 32))
  let t := leOf (aesEnc k2 (leBytes 16 tweak))
  bytesOf (xtsBlocks (if enc then aesEnc k1 else aesDec k1) (groupsOf 16 (natsOf data)) t).flatten

/-- SP 800-38D: one step of the product in GF(2^128), high bit first. -/
def ghashMulStep : Nat → Nat → Nat → Nat → Nat
  | 0, _, _, z => z
  | n + 1, x, v, z =>
    ghashMulStep n x (if v % 2 = 1 then (v / 2) ^^^ (0xE1 * 2 ^ 120) else v / 2)
      (if bitOf x n then z ^^^ v else z)

/-- SP 800-38D: GHASH over 16-byte blocks. -/
def ghash (h : Nat) (blocks : List (List Nat)) : Nat :=
  blocks.foldl (fun y b => ghashMulStep 128 (y ^^^ beOf (b ++ List.replicate (16 - b.length) 0)) h 0) 0

/-- SP 800-38D: the counter blocks' key stream. -/
def gcmStream (rk : List (List Nat)) (iv : List Nat) : Nat → Nat → List Nat
  | 0, _ => []
  | n + 1, c => aesEnc rk (iv ++ beBytes 4 c) ++ gcmStream rk iv n (c + 1)

/-- SP 800-38D: AES-256-GCM with a 12-byte IV: the ciphertext (or plaintext) of the body, and the tag over the
additional data and the ciphertext given. -/
def gcmCrypt (key iv : List Byte) (body : List Byte) : List Byte :=
  let rk := roundKeys (natsOf key)
  bytesOf (xorList (natsOf body) (gcmStream rk (natsOf iv) (ceilDiv body.length 16) 2))

/-- SP 800-38D: the 16-byte tag. -/
def gcmTag (key iv aad cipher : List Byte) : List Byte :=
  let rk := roundKeys (natsOf key)
  let h := beOf (aesEnc rk (List.replicate 16 0))
  let lens := beBytes 8 (8 * aad.length) ++ beBytes 8 (8 * cipher.length)
  let g := ghash h (groupsOf 16 (natsOf aad) ++ groupsOf 16 (natsOf cipher) ++ [lens])
  bytesOf (xorList (beBytes 16 g) (aesEnc rk (natsOf iv ++ [0, 0, 0, 1])))

/-- RFC 3394: one pass over the blocks, last first, with counter t. -/
def kwInner (rk : List (List Nat)) : List (List Nat) → Nat → List Nat → List (List Nat) → List Nat × List (List Nat)
  | [], _, a, done => (a, done)
  | r :: rs, t, a, done =>
    let b := aesDec rk (xorList a (beBytes 8 t) ++ r)
    kwInner rk rs (t - 1) (b.take 8) (b.drop 8 :: done)

/-- RFC 3394: the six passes. -/
def kwOuter (rk : List (List Nat)) (n : Nat) : Nat → List Nat → List (List Nat) → List Nat × List (List Nat)
  | 0, a, rs => (a, rs)
  | j + 1, a, rs =>
    let x := kwInner rk rs.reverse (n * (j + 1)) a []
    kwOuter rk n j x.1 x.2

/-- R320: the key a wrapped key holds, none when the integrity check fails. -/
def keyUnwrap (kek wrapped : List Byte) : Option (List Byte) :=
  let bs := groupsOf 8 (natsOf wrapped)
  let r := kwOuter (roundKeys (natsOf kek)) (bs.length - 1) 6 (bs.headD []) (bs.drop 1)
  if r.1 = List.replicate 8 0xA6 then some (bytesOf r.2.flatten) else none

/-- The primes below 410: 80 of them. -/
def firstPrimes : List Nat :=
  (List.range 410).filter (fun p => 2 ≤ p && (List.range 21).all (fun d => d < 2 || d == p || p % d != 0))

/-- The greatest r below 2^n (beyond acc) whose k-th power is at most v, bit by bit from the highest. -/
def rootFloor (k v : Nat) : Nat → Nat → Nat
  | 0, acc => acc
  | n + 1, acc => rootFloor k v n (if (acc + 2 ^ n) ^ k ≤ v then acc + 2 ^ n else acc)

/-- The first 64 bits of the fractional part of the k-th root of p. -/
def rootFraction (k p : Nat) : Nat := rootFloor k (p * 2 ^ (64 * k)) 69 0 % 2 ^ 64

/-- FIPS 180-4 section 4.2.3: the round constants are the cube roots' fractions of the first eighty primes. -/
def shaK : List Nat := firstPrimes.map (rootFraction 3)

/-- FIPS 180-4 section 5.3.4: SHA-384 begins from the square roots' fractions of the ninth to sixteenth primes. -/
def shaInit : List Nat := ((firstPrimes.drop 8).take 8).map (rootFraction 2)

/-- Rotate a 64-bit number right. -/
def rotr (x n : Nat) : Nat := x / 2 ^ n + x % 2 ^ n * 2 ^ (64 - n)

/-- FIPS 180-4: the message schedule, latest word first. -/
def shaSchedule : Nat → List Nat → List Nat
  | 0, w => w
  | n + 1, w =>
    let a := w.getD 1 0
    let b := w.getD 14 0
    let s1 := rotr a 19 ^^^ rotr a 61 ^^^ a / 2 ^ 6
    let s0 := rotr b 1 ^^^ rotr b 8 ^^^ b / 2 ^ 7
    shaSchedule n ((s1 + w.getD 6 0 + s0 + w.getD 15 0) % 2 ^ 64 :: w)

/-- FIPS 180-4: one round. -/
def shaRound (st : List Nat) (kw : Nat × Nat) : List Nat :=
  match st with
  | [a, b, c, d, e, f, g, h] =>
    let t1 := h + (rotr e 14 ^^^ rotr e 18 ^^^ rotr e 41) + ((e &&& f) ^^^ ((2 ^ 64 - 1 - e) &&& g)) + kw.1 + kw.2
    let t2 := (rotr a 28 ^^^ rotr a 34 ^^^ rotr a 39) + ((a &&& b) ^^^ (a &&& c) ^^^ (b &&& c))
    [(t1 + t2) % 2 ^ 64, a, b, c, (d + t1) % 2 ^ 64, e, f, g]
  | l => l

/-- FIPS 180-4: one 128-byte block. -/
def shaBlock (h : List Nat) (b : List Nat) : List Nat :=
  let w := (shaSchedule 64 ((groupsOf 8 b).map beOf).reverse).reverse
  let r := (shaK.zip w).foldl shaRound h
  (h.zip r).map (fun p => (p.1 + p.2) % 2 ^ 64)

/-- FIPS 180-4: SHA-384. -/
def sha384 (m : List Byte) : List Byte :=
  let l := m.length
  let pad := List.replicate ((239 - l % 128) % 128) 0
  let p := natsOf m ++ [0x80] ++ pad ++ beBytes 16 (8 * l)
  bytesOf (((groupsOf 128 p).foldl shaBlock shaInit).flatMap (beBytes 8) |>.take 48)

/-- FIPS 186-4, P-384: the prime. -/
def p384P : Nat := 0xfffffffffffffffffffffffffffffffffffffffffffffffffffffffffffffffeffffffff0000000000000000ffffffff
/-- FIPS 186-4, P-384: the group order. -/
def p384N : Nat := 0xffffffffffffffffffffffffffffffffffffffffffffffffc7634d81f4372ddf581a0db248b0a77aecec196accc52973
/-- FIPS 186-4, P-384: the coefficient b. -/
def p384B : Nat := 0xb3312fa7e23ee7e4988e056be3f82d19181d9c6efe8141120314088f5013875ac656398d8a2ed19d2a85c8edd3ec2aef
/-- FIPS 186-4, P-384: the base point. -/
def p384Gx : Nat := 0xaa87ca22be8b05378eb1c71ef320ad746e1d3b628ba79b9859f741e082542a385502f25dbf55296c3a545e3872760ab7
/-- FIPS 186-4, P-384: the base point. -/
def p384Gy : Nat := 0x3617de4a96262c6f5d9e98bf9292dc29f8f41dbd289a147ce9da3113b5f0b8c00a60b1ce1d7e819d7a431d7c90ea0e5f

/-- b^e modulo m, by the bits of e. -/
def powMod (m b : Nat) : Nat → Nat → Nat → Nat
  | 0, _, acc => acc
  | n + 1, e, acc => powMod m b n e (acc * acc % m * (if bitOf e n then b else 1) % m)

/-- The inverse modulo a prime. -/
def invMod (m a : Nat) : Nat := powMod m (a % m) 384 (m - 2) 1

/-- The sum of two points (none is the point at infinity) of P-384. -/
def ecAdd : Option (Nat × Nat) → Option (Nat × Nat) → Option (Nat × Nat)
  | none, q => q
  | p, none => p
  | some (x1, y1), some (x2, y2) =>
    let p := p384P
    if x1 = x2 && (y1 + y2) % p = 0 then none else
    let l :=
      if x1 = x2 then (3 * x1 * x1 + p - 3) % p * invMod p (2 * y1) % p
      else (y2 + p - y1) % p * invMod p (x2 + p - x1) % p
    let x3 := (l * l + 2 * p - x1 - x2) % p
    some (x3, (l * (x1 + p - x3) + p - y1) % p)

/-- k·P by the bits of k. -/
def ecMul (pt : Option (Nat × Nat)) : Nat → Nat → Option (Nat × Nat) → Option (Nat × Nat)
  | 0, _, acc => acc
  | n + 1, k, acc => ecMul pt n k (let d := ecAdd acc acc; if bitOf k n then ecAdd d pt else d)

/-- FIPS 186-4: does (r, s) sign the digest under the public key (x, y)? -/
def ecdsaVerify (x y r s digest : Nat) : Bool :=
  let p := p384P
  let n := p384N
  if x ≥ p || y ≥ p || y * y % p != (x * x % p * x + (p - 3) * x + p384B) % p then false
  else if r = 0 || s = 0 || r ≥ n || s ≥ n then false
  else
    let w := invMod n s
    let u1 := digest * w % n
    let u2 := r * w % n
    match ecAdd (ecMul (some (p384Gx, p384Gy)) 384 u1 none) (ecMul (some (x, y)) 384 u2 none) with
    | none => false
    | some (vx, _) => vx % n = r

end Sys2Proof.Machine
end

