-- ==== Sys2Proof/Machine/Ops.lean ====
section
/-! DEFINITION. The named operations every family uses: reading and changing one unit of the state, the present
angle (R23, R27), which Harnesses are in service (R353, R354), the fault ring (R341, R342), the Tally buffer (R359 to
R362), free values, and the precedence of contradicting orders (R51 to R53). -/

namespace Sys2Proof.Machine

/-! ## What a command leaves standing -/

/-- The state that a command leaves: the queue of the commands that wait is none of its business, and the OTP fuse bank
stands, whatever the command does (R325: only a burn, and the release of reset, change what the engine holds of it). -/
def State.after (s t : State) : State := { t with pending := s.pending, fuses := s.fuses }

/-! ## One unit of the state -/

/-- The key of a core position. -/
def coreKey (h c : Nat) : Nat := 66 * h + c

/-- The core position (h, c). -/
def State.core (s : State) (h c : Nat) : Core := mapGet {} s.heddle.cores (coreKey h c)

/-- Change core position (h, c). -/
def State.modCore (s : State) (h c : Nat) (f : Core → Core) : State :=
  { s with heddle := { s.heddle with cores := mapPut {} s.heddle.cores (coreKey h c) (f (s.core h c)) } }

/-- Change every core position of Harness h. -/
def State.modCores (s : State) (h : Nat) (f : Nat → Core → Core) : State :=
  (List.range 66).foldl (fun s c => s.modCore h c (f c)) s

/-- The Shuttle's part of Harness h. -/
def State.harness (s : State) (h : Nat) : Harness := s.heddle.harnesses.getD h {}

/-- Change the Shuttle's part of Harness h. -/
def State.modHarness (s : State) (h : Nat) (f : Harness → Harness) : State :=
  { s with heddle := { s.heddle with harnesses := modAt s.heddle.harnesses h f } }

/-- The Spindle of Harness h. -/
def State.spindle (s : State) (h : Nat) : Spindle := s.spindles.getD h {}

/-- Change the Spindle of Harness h. -/
def State.modSpindle (s : State) (h : Nat) (f : Spindle → Spindle) : State :=
  { s with spindles := modAt s.spindles h f }

/-- Link h of the Weft port. -/
def State.link (s : State) (h : Nat) : Link := s.weft.links.getD h {}

/-- Change link h. -/
def State.modLink (s : State) (h : Nat) (f : Link → Link) : State :=
  { s with weft := { s.weft with links := modAt s.weft.links h f } }

/-- The bolt of an ID, if it is in the bolt table. -/
def State.bolt? (s : State) (id : Nat) : Option Bolt := s.weft.bolts.find? (·.id == id)

/-- Change the bolt of an ID. -/
def State.modBolt (s : State) (id : Nat) (f : Bolt → Bolt) : State :=
  { s with weft := { s.weft with bolts := modWhere (·.id == id) f s.weft.bolts } }

/-- The pick of an ID, if it has not retired. -/
def State.pick? (s : State) (id : Nat) : Option Pick := s.heddle.picks.find? (·.id == id)

/-- Change the pick of an ID. -/
def State.modPick (s : State) (id : Nat) (f : Pick → Pick) : State :=
  { s with heddle := { s.heddle with picks := modWhere (·.id == id) f s.heddle.picks } }

/-- The next free value (R12 of the log: what the spec leaves open), and the state that has used it. -/
def State.fresh (s : State) : W64 × State := (Config.freeWord s.free, { s with free := s.free + 1 })

/-! ## The angle (R23, R27) -/

/-- The word last accepted. -/
def State.angle (s : State) : W64 := s.word LS_ANGLE_CURRENT.ANGLE.off

/-- REVOLUTION of an angle word. -/
def angleRev (w : W64) : Nat := bitsOf w.toNat 39 0
/-- PHASE of an angle word. -/
def anglePhase (w : W64) : Nat := bitsOf w.toNat 63 62
/-- PASS of an angle word. -/
def anglePass (w : W64) : Nat := bitsOf w.toNat 61 60
/-- LAYER of an angle word. -/
def angleLayer (w : W64) : Nat := bitsOf w.toNat 59 50
/-- PROJ of an angle word. -/
def angleProj (w : W64) : Nat := bitsOf w.toNat 49 46
/-- STEP of an angle word. -/
def angleStep (w : W64) : Nat := bitsOf w.toNat 45 40

/-- R27: the layer key of a pass. -/
def layerKey (pass layer : Nat) : Nat := if pass == 1 then 1023 - layer else layer

/-- R27: the ordinal of an angle word inside its revolution. -/
def angleOrdinal (w : W64) : Nat :=
  anglePass w * 2 ^ 20 + layerKey (anglePass w) (angleLayer w) * 2 ^ 10 + angleProj w * 2 ^ 6 + angleStep w

/-- LS_STATUS.PHASE: IDLE 0, GENERATE 1, LEARN 2, RESHARD 3. -/
def State.phase (s : State) : Nat := s.get LS_STATUS.PHASE

/-- LS_STATUS.REVOLUTION_VALID. -/
def State.revValid (s : State) : Bool := s.flag LS_STATUS.REVOLUTION_VALID

/-- The current revolution. -/
def State.revolution (s : State) : Nat := angleRev s.angle

/-- LS_STATUS.IN_BOUNDARY (R25). -/
def State.inBoundary (s : State) : Bool := s.flag LS_STATUS.IN_BOUNDARY

/-! ## Service of the Harnesses (R353, R354) -/

/-- Is Harness h neither retiring nor retired? -/
def State.inService (s : State) (h : Nat) : Bool :=
  !(s.cust.harnessPending.getLsbD h) && !(s.cust.harnessRetired.getLsbD h)

/-- The Harnesses in service, ascending. -/
def State.servingHarnesses (s : State) : List Nat := (List.range 8).filter s.inService

/-- R354: the Harness that does the work assigned to Harness x by number. -/
def State.standIn (s : State) (x : Nat) : Nat :=
  (((List.range 8).map (fun i => (x + i) % 8)).find? s.inService).getD (x % 8)

/-- Is the engine booted, powered and not in HOLD (Table 15.8)? -/
def State.powered (s : State) : Bool := s.boot.stage == .up && s.pm.st != .off && s.pm.st != .hold

/-- Is the engine at work: powered, and not failed (R356)? -/
def State.serving (s : State) : Bool := s.powered && !s.cust.engineFailed

/-- R332, R336: is a grant of FULL in progress, or what it began still to be finished after a protection HOLD? -/
def State.scrubbing (s : State) : Bool := s.sec.grant != .none || s.sec.unfinished

/-- Table 13.5: PROVISIONED or SECURED with DEBUGGED at 1: what is served is the FULL row's. -/
def State.fullRow (s : State) : Bool := s.sec.debugged && (s.fuses.lifecycle == 2 || s.fuses.lifecycle == 3)

/-- Table 13.5: are bolts served in the present lifecycle and debug level? RETIRED is lifecycle 4. -/
def State.boltsAllowed (s : State) : Bool := s.fuses.lifecycle != 4 && !s.fullRow && !s.scrubbing

/-- R373: the gated clocks restart, and the engine leaves IDLE. -/
def State.leaveIdle (s : State) : State :=
  if s.pm.st == .idle then { s with pm := { s.pm with st := .run } } else s

/-- The lowest-numbered link that is up, or h itself while it is up (R355). -/
def State.linkFor (s : State) (h : Nat) : Nat :=
  if (s.link h).up then h else ((List.range 8).find? (fun i => (s.link i).up)).getD h

/-! ## The fault ring (R338, R341, R342) -/

/-- What a fault record names (Table 14.3). -/
structure FaultInfo where
  cls : Nat
  source : Nat
  action : Nat := 0
  harness : Nat := 0
  core : Nat := 0
  bolt : Option Nat := none
  pick : Option Nat := none
  detail : Nat := 0
  deriving DecidableEq, Repr

/-- Table 14.3: the four words of a record. -/
def faultWords (s : State) (seq : Nat) (f : FaultInfo) : List W64 :=
  [BitVec.ofNat 64 (seq * 2 ^ 32 + f.cls * 2 ^ 24 + f.source * 2 ^ 20 + f.action * 2 ^ 16 + f.harness % 8 * 2 ^ 12 +
     f.core % 128 * 2 ^ 5 + (if f.bolt.isSome then 2 ^ 4 else 0) + (if f.pick.isSome then 2 ^ 3 else 0)),
   BitVec.ofNat 64 (s.revolution * 2 ^ 24 + (if s.phase == 0 then 0 else angleOrdinal s.angle)),
   BitVec.ofNat 64 (f.pick.getD 0 * 2 ^ 32 + f.bolt.getD 0 % 2 ^ 32),
   BitVec.ofNat 64 f.detail]

/-- R341, R342: a fault record is written, HEAD and SEQ advance, an overwritten record is counted. -/
def State.recordFault (s : State) (f : FaultInfo) : State :=
  let seq := s.get CU_FAULT_PTR.SEQ_NEXT
  let ws := faultWords s seq f
  let head := s.get CU_FAULT_PTR.HEAD
  let tail := s.get CU_FAULT_PTR.TAIL
  let s := (List.range 4).foldl (fun s i => s.setWord (CU_FAULT_RING.RECORD (seq % 256) i).off (ws.getD i 0)) s
  let s := s.set CU_FAULT_PTR.SEQ_NEXT (seq + 1)
  let s := s.set CU_FAULT_PTR.HEAD (head + 1)
  let s := s.bump CU_FAULT_EVENTS.RECORDS
  if 256 ≤ (head + 512 - tail) % 512 then
    ((s.set CU_FAULT_PTR.TAIL (tail + 1)).set CU_STATUS.RING_WRAPPED 1).bump CU_FAULT_EVENTS.OVERWRITTEN
  else s

/-- The SEQ of the record last written. -/
def State.lastFaultSeq (s : State) : Nat := (s.get CU_FAULT_PTR.SEQ_NEXT + 2 ^ 32 - 1) % 2 ^ 32

/-! ## The Tally buffer (R359 to R362) -/

/-- Table 14.5, END. -/
inductive TallyEnd where
  | retired | replayed | lost
  deriving DecidableEq, Repr

/-- Table 14.5: the code of an END. -/
def TallyEnd.code : TallyEnd → Nat
  | .retired => 0 | .replayed => 1 | .lost => 2

/-- Table 14.5: the entry of a pick. -/
def tallyWords (p : Pick) (e : TallyEnd) (faultSeq replayPick : Nat) : List W64 :=
  [BitVec.ofNat 64 (p.id * 2 ^ 32 + p.bolt % 2 ^ 32),
   BitVec.ofNat 64 (e.code * 2 ^ 62 + p.h * 2 ^ 59 + p.c * 2 ^ 52 + p.proj * 2 ^ 48 + p.adapter * 2 ^ 32 +
     p.copy * 2 ^ 24 + p.lastCopy * 2 ^ 16 + faultSeq % 2 ^ 16),
   BitVec.ofNat 64 (p.rows.length * 2 ^ 43 + p.committed.length * 2 ^ 22 + p.rows.headD 0),
   BitVec.ofNat 64 (replayPick * 2 ^ 32 + (p.committed.getLast?).getD 0)]

/-- R361: the buffer has reached AUTO_MARK, so a drain starts. -/
def State.tallyAutoDrain (s : State) : State :=
  let m := s.get CU_TALLY_CTRL.AUTO_MARK
  if m != 0 && m ≤ s.cust.tally.length && !s.cust.draining then
    { s with cust := { s.cust with draining := true } }
  else s

/-- R359 to R362: an entry enters the buffer of 4,096 places, of which 256 serve only REPLAYED and LOST entries, or is
dropped and counted. -/
def State.tallyAdd (s : State) (p : Pick) (e : TallyEnd) (faultSeq replayPick : Nat) : State :=
  let room := if e == .retired then 4096 - 256 else 4096
  if s.cust.tally.length < room then
    let s := { s with cust := { s.cust with tally := s.cust.tally ++ [TallyEntry.mk (tallyWords p e faultSeq replayPick)] } }
    (s.bump CU_TALLY_EVENTS.ENTRIES).tallyAutoDrain
  else if e == .retired then s.bump CU_TALLY_EVENTS.DROPPED
  else
    let s := (s.bump CU_TALLY_EVENTS.ENDED_DROPPED).set CU_STATUS.TALLY_OVERFLOW 1
    s.recordFault { cls := 0x12, source := 11, harness := p.h, core := p.c, bolt := some p.bolt, pick := some p.id,
                    detail := p.id }

/-! ## Contradicting orders (R51 to R53) -/

/-- Table 2.10: the rank of a master; a fault action is never rejected. An identical order outranks nothing. -/
def rivalRank : Rival → Nat
  | .fault => 0 | .pm => 1 | .bd => 2 | .mbox => 3 | .card => 4 | .weft => 5 | .same => 6

/-- Table 2.10 and R53: the code of a master. -/
def rivalCode : Rival → Nat
  | .pm => 1 | .bd => 2 | .mbox => 3 | .card => 4 | .weft => 5 | .fault => 6 | .same => 0

/-- The rank of an order by the way it came (Table 2.10); an order in a bolt's descriptor has rank 5. -/
def viaRank : Via → Nat
  | .mailbox => 3 | .card => 4

/-- R51: the master that defeats an order of this rank, if the contradicting order of the cycle outranks it. -/
def defeatedBy (rank : Nat) : Option Rival → Option Rival
  | none => none
  | some r => if rivalRank r < rank then some r else none

/-- R51: does an order of this rank take effect itself: neither defeated, nor identical to one of the same cycle that has? -/
def takesEffect (rank : Nat) (rival : Option Rival) : Bool := (defeatedBy rank rival).isNone && rival != some .same

/-- ORDER_REJECTED, the completion code of R51. -/
def orderRejected : Nat := 0x50

/-- SECURITY_DENIED, the completion code of R54. -/
def securityDenied : Nat := 0x60

/-! ## Register writes (R9 to R12, R375, R387, R404) -/

/-- R12, Table 0.5: the word after a write of `v` to one field. -/
def writeField (v : W64) (locked : Nat → Bool) (w : W64) (f : FieldDesc) : W64 :=
  let new := bitsOf v.toNat f.hi f.lo
  let old := bitsOf w.toNat f.hi f.lo
  match f.acc with
  | .rw => putBits w f.hi f.lo new
  | .w1c => putBits w f.hi f.lo (old &&& (2 ^ (f.hi + 1 - f.lo) - 1 - new))
  | .w1s => putBits w f.hi f.lo (old ||| new)
  | .wl => if locked f.lo then w else putBits w f.hi f.lo new
  | .ro | .rc => w

/-- R12: a write of a word applies every field's access code; a field of access WL takes its first write only. -/
def State.writeFields (s : State) (off : Nat) (v : W64) : State :=
  match findReg off with
  | none => s
  | some r =>
    let lk := fun lo => s.locked.contains (off * 64 + lo)
    let wls := (r.fields.filter (fun f => f.acc == .wl && !lk f.lo)).map (fun f => off * 64 + f.lo)
    let s := s.setWord off (r.fields.foldl (writeField v lk) (s.word off))
    { s with locked := wls.foldl (fun l i => insertSorted i l) s.locked }

/-- What the register port does with an access at an offset in the present state (Table 15.8). -/
inductive PortGate where
  | closed | early | error | made
  deriving DecidableEq, Repr

/-- Table 15.8, R375: the PM window, SS_STATUS and Custody's identity registers, which answer in HOLD. -/
def answersInHold (off : Nat) : Bool :=
  (0x800000 ≤ off && off < 0xC00000) || off == 0xC00000 || off < 0x1000

/-- Table 15.8, R375, R404: may a write at this offset be made? -/
def State.writeGate (s : State) (off : Nat) : PortGate :=
  if s.pm.st == .off || s.boot.stage == .inReset then .closed
  else if s.boot.stage != .up then (if 0xC00000 ≤ off && off < 0x1000000 then .made else .early)
  else if s.pm.st == .hold && !answersInHold off then .error
  else .made

/-- A write that arrives at the register port: made, counted as early (R404), refused with an error response, or not
answered. -/
def State.atPort (s : State) (off : Nat) (f : State → State) : State :=
  match s.writeGate off with
  | .closed => s
  | .early => { s with resp := .written, boot := { s.boot with earlyWrites := min (s.boot.earlyWrites + 1) 255 } }
  | .error => { s with resp := .error }
  | .made => { f s with resp := .written }

/-- A write of a command word: its fields are written; GO with BUSY at 0 issues the command. -/
def State.issue (s : State) (v : W64) (go busy : Fld) (f : State → State) : State :=
  let was := s.flag busy
  let s := s.writeFields go.off v
  if bitOf v.toNat go.lo && !was then f s else s

/-- A command completes: GO and BUSY clear, STATUS takes its code. -/
def State.complete (s : State) (go busy status : Fld) (code : Nat) : State :=
  ((s.set go 0).set busy 0).set status code

/-- A command word put together from fields and values. -/
def cmdWord (l : List (Fld × Nat)) : W64 := l.foldl (fun w p => putBits w p.1.hi p.1.lo p.2) 0

/-! ## Time -/

/-- Cycles of SCLK passed, as the model's ticks count them (ACLK runs at twice SCLK, Table 1.2). -/
def State.tickCycles (s : State) (n : Nat) : State := { s with cust := { s.cust with aclk := s.cust.aclk + 2 * n } }

end Sys2Proof.Machine
end

