-- ==== Sys2Proof/Machine/Hits.lean ====
section
/-! DEFINITION. What the other families need of the Treadle port: halts ordered and in force (R411, R414), the
cross-trigger output (R423), breakpoint and watchpoint hits (R417 to R419). -/

namespace Sys2Proof.Machine

/-- Does a halt of this scope cover core (h, c)? Scopes: engine 0, Harness 1, core 2, Spindle 3. -/
def HaltReq.coversCore (r : HaltReq) (h c : Nat) : Bool :=
  r.scope == 0 || (r.scope == 1 && r.h == h) || (r.scope == 2 && r.h == h && r.c == c)

/-- Does a halt of this scope cover the Spindle of Harness h? -/
def HaltReq.coversSpindle (r : HaltReq) (h : Nat) : Bool :=
  r.scope == 0 || ((r.scope == 1 || r.scope == 3) && r.h == h)

/-- Does scope `a` lie within scope `b` (R414)? -/
def HaltReq.within (a b : HaltReq) : Bool :=
  b.scope == 0 || (b.scope == 1 && a.scope != 0 && a.h == b.h) ||
    (a.scope == b.scope && a.h == b.h && (a.scope != 2 || a.c == b.c))

/-- R411: a halt is ordered. -/
def State.orderHalt (s : State) (r : HaltReq) : State :=
  if s.dbg.pendingHalts.contains r then s
  else { s with dbg := { s.dbg with pendingHalts := s.dbg.pendingHalts ++ [r] } }

/-- R411: does a halt in force cover core (h, c)? A running proof pick is not halted. -/
def State.haltCovers (s : State) (h c : Nat) : Bool :=
  s.dbg.halts.any (·.coversCore h c) && (s.core h c).service != .proving

/-- R411, R415: is core (h, c) halted? While it steps it is not. -/
def State.coreHalted (s : State) (h c : Nat) : Bool := s.haltCovers h c && (s.core h c).stepping.isNone

/-- R411, R412: has the Spindle of Harness h stopped? -/
def State.spindleStopped (s : State) (h : Nat) : Bool := s.dbg.halts.any (·.coversSpindle h)

/-- Condition 1 of Table 4.4 fails for a pick of core (h, c): the core is halted, or a halt that covers it is ordered; the
pick that a step names may issue (R415). -/
def State.haltBlocks (s : State) (h c pick : Nat) : Bool :=
  (s.core h c).stepping != some pick && (s.haltCovers h c || s.dbg.pendingHalts.any (·.coversCore h c))

/-- R411: Harness h is halted while every core of its allocator map is halted and its Spindle has stopped. -/
def State.harnessHalted (s : State) (h : Nat) : Bool :=
  s.spindleStopped h && (List.range 66).all (fun c => !(s.core h c).inMap || s.coreHalted h c)

/-- R411: the engine is halted while every Harness in service is halted. -/
def State.engineHalted (s : State) : Bool :=
  !s.servingHarnesses.isEmpty && s.servingHarnesses.all s.harnessHalted

/-- R423: an event that drives ZQ_XTRIG_OUT in PULSE mode. -/
def State.xtrigPulse (s : State) : State :=
  if s.flag BD_DBG_XTRIG.MODE_OUT then s else { s with dbg := { s.dbg with xtrigOut := true } }

/-- The level of ZQ_XTRIG_OUT (R423), 0 in OFF, reset, boot and HOLD (Table 15.8). -/
def State.xtrigLevel (s : State) : Bool :=
  s.powered && if s.flag BD_DBG_XTRIG.MODE_OUT then s.engineHalted else s.dbg.xtrigOut

/-- R411: an ordered halt takes hold. -/
def State.takeHold (s : State) (r : HaltReq) : State :=
  let halts := if s.dbg.halts.contains r then s.dbg.halts else s.dbg.halts ++ [r]
  let s := { s with dbg := { s.dbg with halts := halts, pendingHalts := s.dbg.pendingHalts.filter (· != r) } }
  if s.flag BD_DBG_XTRIG.OUT_ON_HALT then s.xtrigPulse else s

/-- R414: a resume releases the halts of its scope and of every scope within it, and a step of a core that no halt covers
any more ends with them. -/
def State.release (s : State) (r : HaltReq) : State :=
  let s := { s with dbg := { s.dbg with
    pendingHalts := s.dbg.pendingHalts.filter (fun q => !(q.within r)), halts := s.dbg.halts.filter (fun q => !(q.within r)) } }
  let cores := s.heddle.cores.map (fun k =>
    (k.1, if s.haltCovers (k.1 / 66) (k.1 % 66) then k.2 else { k.2 with stepping := none }))
  { s with heddle := { s.heddle with cores := cores.filter (fun k => k.2 != {}) } }

/-- R417 to R419: a hit of a breakpoint (code 1) or a watchpoint (code 2). `ctrl` is the offset of its CTRL word: ACTION is
bits [60:59], XTRIG bit 58, ONCE bit 57, HITS bits [31:0] in both kinds. `loc` is the Harness a HALT_LOCAL names. -/
def State.debugHit (s : State) (code index ctrl : Nat) (loc : Option Nat) : State :=
  let s := s.bump ⟨ctrl, 31, 0⟩
  let w := (s.word ctrl).toNat
  let s := { s with dbg := { s.dbg with lastHit := code, lastIndex := index } }
  let s := if bitOf w 57 then s.set ⟨ctrl, 63, 63⟩ 0 else s
  let s := if bitOf w 58 then s.xtrigPulse else s
  match bitsOf w 60 59, loc with
  | 0, _ => s.orderHalt ⟨0, 0, 0⟩
  | 1, none => s.orderHalt ⟨0, 0, 0⟩
  | 1, some h => s.orderHalt ⟨1, h, 0⟩
  | _, _ => s

/-- Watchpoint j matches an access of Loom bytes [lo, lo + bytes.length) (R418): the first address that matches. -/
def State.watchMatch (s : State) (j : Nat) (write : Bool) (lo n : Nat) (bytes : List Byte) : Option Nat :=
  let acc := s.get (BD_DBG_WP.ACCESS j)
  let a := max lo (s.get (BD_DBG_WP.BASE j))
  let b := min (lo + n) (s.get (BD_DBG_WP.LIMIT j))
  if !s.flag (BD_DBG_WP.ENABLE j) || !(if write then bitOf acc 0 else bitOf acc 1) || b ≤ a then none
  else if s.flag (BD_DBG_WP.DATA_MATCH j) then
    if !write then some a
    else
      let data := s.get (BD_DBG_WP.DATA j)
      ((List.range ((b - a) / 8 + 2)).map (fun i => a / 8 * 8 + 8 * i)).find? (fun q =>
        q < b && leNat ((bytes.drop (q - lo)).take 8) == data && decide (lo ≤ q))
  else some a

/-- R418, R419: the watchpoints see an access that has completed; an access of the Treadle port (source 13) never matches. `bytes` are the bytes at [lo, lo + n) then;
`source` is the accessing subsystem (Table 1.3), `loc` the Harness of the reading or writing unit. -/
def State.watchAccess (s : State) (write : Bool) (source : Nat) (loc : Option Nat) (lo n : Nat) (bytes : List Byte) :
    State :=
  if !s.flag BD_DBG_CTRL.ARM || source == 13 then s else
  (List.range 8).foldl (fun s j =>
    match s.watchMatch j write lo n bytes with
    | none => s
    | some a =>
      let s := if s.flag BD_DBG_WLOG.VALID then s else
        ((((s.set BD_DBG_WLOG.VALID 1).set BD_DBG_WLOG.SOURCE source).set BD_DBG_WLOG.INDEX j).setFlag
          BD_DBG_WLOG.WRITE write).set BD_DBG_WLOG.ADDR a
      s.debugHit 2 j (BD_DBG_WP.ENABLE j).off loc) s

/-- R417: ANGLE breakpoints see an accepted word. -/
def State.breakAngle (s : State) (w : W64) : State :=
  if !s.flag BD_DBG_CTRL.ARM then s else
  (List.range 16).foldl (fun s i =>
    if s.flag (BD_DBG_BP.ENABLE i) && s.get (BD_DBG_BP.KIND i) == 0 &&
        (w ^^^ s.word (BD_DBG_BP.VALUE i).off) &&& s.word (BD_DBG_BP.MASK i).off == 0 then
      s.debugHit 1 i (BD_DBG_BP.ENABLE i).off none
    else s) s

/-- R417: the PICK and ADDRESS breakpoints that a block meets: its pick, and the Loom addresses of the tiles it reads. -/
def State.blockBreaks (s : State) (pick : Nat) (tiles : List Nat) : List Nat :=
  if !s.flag BD_DBG_CTRL.ARM then [] else
  (List.range 16).filter (fun i =>
    let v := s.get (BD_DBG_BP.VALUE i)
    s.flag (BD_DBG_BP.ENABLE i) &&
      ((s.get (BD_DBG_BP.KIND i) == 1 && bitsOf v 31 0 == pick) ||
       (s.get (BD_DBG_BP.KIND i) == 2 && tiles.any (fun a =>
          decide (bitsOf v 51 0 < a + 32768) && decide (a < bitsOf (s.get (BD_DBG_BP.MASK i)) 51 0)))))

end Sys2Proof.Machine
end

