-- ==== Sys2Proof/Machine/TierOps.lean ====
section
/-! DEFINITION. The Loom range over its tiers: regions (R241, R242), frames (R245, R255), the backing layouts and Twill
(R268 to R271), encryption (R323), fetching a tile, reading and writing Loom bytes (R249, R265), write-backs (R266)
and the Bobbin frames (R246, R254). -/

namespace Sys2Proof.Machine

/-! ## The frequency sketch (R230, R240) -/

/-- R230: mix. -/
def mix (x : W64) : W64 :=
  let x := x ^^^ (x >>> 31)
  let x := x * 0xD6E8FEB86659FD93#64
  let x := x ^^^ (x >>> 32)
  let x := x * 0xD6E8FEB86659FD93#64
  x ^^^ (x >>> 32)

/-- R240: the counter of a key in row j of the sketch, as a key of `Skein.sketch`. -/
def sketchSlot (j key : Nat) : Nat :=
  j * 16384 + (mix (BitVec.ofNat 64 key ^^^ BitVec.ofNat 64 ((2 * j + 1) * 2 ^ 60)) >>> 50).toNat

/-- R240: the estimate of a key, the least of its four counters. -/
def State.sketchEst (s : State) (key : Nat) : Nat :=
  let c := fun j => mapGet 0 s.skein.sketch (sketchSlot j key)
  min (min (c 0) (c 1)) (min (c 2) (c 3))

/-- R240: count a key once in every row; the counters saturate. -/
def State.sketchCount (s : State) (key : Nat) : State :=
  let sk := (List.range 4).foldl (fun m j =>
    mapPut 0 m (sketchSlot j key) (min (mapGet 0 m (sketchSlot j key) + 1) (2 ^ 32 - 1))) s.skein.sketch
  { s with skein := { s.skein with sketch := sk } }

/-! ## Dense and sparse bytes -/

/-- `n` bytes from address `i` of a map whose keys are at or above `i`; an unlisted byte is 0. -/
def denseFrom : SMap Byte → Nat → Nat → List Byte
  | _, _, 0 => []
  | [], i, n + 1 => 0 :: denseFrom [] (i + 1) n
  | (k, v) :: t, i, n + 1 =>
    if k = i then v :: denseFrom t (i + 1) n else 0 :: denseFrom ((k, v) :: t) (i + 1) n

/-- The listed bytes of a run: those that are not 0. -/
def sparseFrom : Nat → List Byte → SMap Byte
  | _, [] => []
  | i, b :: t => if b = 0 then sparseFrom (i + 1) t else (i, b) :: sparseFrom (i + 1) t

/-- `n` bytes at `lo` of a byte map. -/
def getRun (m : SMap Byte) (lo n : Nat) : List Byte := denseFrom (mapRange m lo n) lo n

/-- Write a run of bytes at `lo`. -/
def putRun (m : SMap Byte) (lo : Nat) (bytes : List Byte) : SMap Byte :=
  m.filter (fun p => decide (p.1 < lo)) ++ sparseFrom lo bytes ++
    m.filter (fun p => decide (lo + bytes.length ≤ p.1))

/-! ## Regions (R241, R242) -/

/-- A page is 2 MiB, a tile 32 KiB, a sector 512 B (R241). -/
def pageBytes : Nat := 2097152
/-- R241. -/
def tileBytes : Nat := 32768

/-- A region of TM_REGION (R242). -/
structure Region where
  k : Nat
  base : Nat
  pages : Nat
  wb : Bool
  backing : Nat
  port : Nat
  backBase : Nat
  nsid : Nat
  deriving DecidableEq, Repr

/-- TM_REGION[k] as its words give it, whatever VALID holds. -/
def regionOfWords (k : Nat) (w0 w1 w2 w3 : W64) : Region :=
  ⟨k, bitsOf w0.toNat 51 21, bitsOf w1.toNat 31 0, bitOf w0.toNat 62, bitsOf w0.toNat 61 60, bitsOf w0.toNat 59 58,
   w2.toNat, bitsOf w3.toNat 31 0⟩

/-- TM_REGION[k]. -/
def State.regionWords (s : State) (k : Nat) : Region :=
  let o := (TM_REGION.VALID k).off
  regionOfWords k (s.word o) (s.word (o + 8)) (s.word (o + 16)) (s.word (o + 24))

/-- The valid regions, ascending (an unlisted VALID word is not valid). -/
def State.regions (s : State) : List Region :=
  ((mapRange s.regs (TM_REGION.VALID 0).off 2048).filter (fun p => p.1 % 32 == 0 && bitOf p.2.toNat 63)).map
    (fun p => s.regionWords ((p.1 - (TM_REGION.VALID 0).off) / 32))

/-- The valid region that maps a page. -/
def State.regionOfPage (s : State) (p : Nat) : Option Region :=
  s.regions.find? (fun r => decide (r.base ≤ p) && decide (p < r.base + r.pages))

/-! ## Units and frames (R245, R255, R268) -/

/-- R268: Board ports in use. -/
def State.ports (s : State) : Nat := min (s.get TM_BOARD_CTRL.PORTS) 4

/-- R268: tiles are interleaved, not in Twill form. -/
def State.interleaved (s : State) : Bool := 3 ≤ s.ports

/-- TM_STATUS.UNIT_FAILED, by unit: Beam stack 0 to 3, Board port 4 to 7, Flash 8. -/
def State.unitFailed (s : State) (u : Nat) : Bool := bitOf (s.get TM_STATUS.UNIT_FAILED) u

/-- The unit that serves a region's backing; in interleaved layout the Board ports are one unit, numbered 4. -/
def State.backUnit (s : State) (r : Region) : Nat :=
  match r.backing with
  | 1 => if s.interleaved then 4 else 4 + r.port
  | 2 => 8
  | _ => 15

/-- Has the unit behind a region failed? In interleaved layout any failed port fails every read. -/
def State.backFailed (s : State) (r : Region) : Bool :=
  match r.backing with
  | 1 => if s.interleaved then (List.range 4).any (fun p => s.unitFailed (4 + p)) else s.unitFailed (4 + r.port)
  | 2 => s.unitFailed 8
  | _ => false

/-- The page's record. -/
def State.page (s : State) (p : Nat) : Page := mapGet {} s.tiers.pages p

/-- Change a page's record. -/
def State.modPage (s : State) (p : Nat) (f : Page → Page) : State :=
  { s with tiers := { s.tiers with pages := mapPut {} s.tiers.pages p (f (s.page p)) } }

/-- Table 10.4: an ABSENT page whose backing unit has failed is FAILED. -/
def State.pageFailed (s : State) (p : Nat) : Bool :=
  (s.page p).st == .absent &&
    match s.regionOfPage p with
    | some r => s.backFailed r
    | none => false

/-- Table 10.3: does a page in this state hold a Beam frame? -/
def PageSt.held : PageSt → Bool
  | .clean | .dirty | .writing | .home => true
  | .absent | .lost => false

/-- Does anything but a row read pin the page (R257)? -/
def Page.pinned (q : Page) : Bool := q.pins != 0 || q.rtPin || q.dirPin

/-- The tiles that bytes [addr, addr + n) touch. -/
def tilesOf (addr n : Nat) : List Nat :=
  if n == 0 then [] else
  (List.range ((addr + n - 1) / tileBytes - addr / tileBytes + 1)).map (· + addr / tileBytes)

/-- R238: is the read of a slot still to be delivered to its slice? Its reference stands until then. -/
def RowRead.holds (r : RowRead) : Bool := r.slot.isSome && r.got.isNone && !r.failed

/-- R238, R257: does a row read hold the sectors of a tile in slice h? -/
def State.rowHolds (s : State) (h tile : Nat) : Bool :=
  (s.spindles.getD h {}).jobs.any (fun j => j.reads.any (fun r => r.holds && (tilesOf r.addr r.len).contains tile))

/-- R257: does anything pin page p? -/
def State.pagePinned (s : State) (p : Nat) : Bool :=
  (s.page p).pinned || s.spindles.any (fun v => v.jobs.any (fun j => j.reads.any (fun r =>
    r.holds && (tilesOf r.addr r.len).any (fun t => t / 64 == p))))

/-- R245: frames of one copy of the page table, 16 B for every page of every valid region. -/
def State.tableFrames (s : State) : Nat := ceilDiv ((s.regions.map (·.pages)).sum * 16) pageBytes

/-- Free frames of a stack (R245, R255). -/
def State.stackFree (s : State) (i : Nat) : Nat :=
  if s.unitFailed i then 0 else
  45776 - ((s.tiers.pages.filter (fun p => p.2.st.held && p.2.stack == i)).length +
    s.tableFrames * (s.tiers.tableStacks.filter (· == i)).length + (s.tiers.spillFrames.filter (· == i)).length)

/-- TM_STATUS.FREE_FRAMES. -/
def State.freeFrames (s : State) : Nat := ((List.range 4).map s.stackFree).sum

/-- R245: the stack with the most free frames, the lowest on ties. -/
def State.bestStack (s : State) : Nat :=
  (List.range 4).foldl (fun b i => if s.stackFree b < s.stackFree i then i else b) 0

/-- The dirty tiles of a page (R249): those marked, and those a write-back has still to land. -/
def Page.dirtyTiles (q : Page) : List Nat :=
  sortNub (q.wb ++ (q.tiles.filter (fun t => t.2.dirty)).map (·.1))

/-- Frames of DIRTY or WRITING pages. -/
def State.dirtyFrames (s : State) : Nat :=
  (s.tiers.pages.filter (fun p => p.2.st == .dirty || p.2.st == .writing)).length

/-- A tile's record in its page. -/
def Page.tile (q : Page) (i : Nat) : TileRec := mapGet ⟨q.base, false⟩ q.tiles i

/-- Change a tile's record. -/
def Page.setTile (q : Page) (i : Nat) (t : TileRec) : Page :=
  { q with tiles := mapPut ⟨q.base, false⟩ q.tiles i t }

/-! ## Bobbin frames (R246) -/

/-- Change a slice. -/
def State.modSlice (s : State) (h : Nat) (f : SMap BFrame → SMap BFrame) : State :=
  { s with tiers := { s.tiers with slices := modAt s.tiers.slices h f } }

/-- Slice h. -/
def State.slice (s : State) (h : Nat) : SMap BFrame := s.tiers.slices.getD h []

/-- The frame of a slice that holds a tile. -/
def State.frameOf (s : State) (h tile : Nat) : Option (Nat × BFrame) := (s.slice h).find? (·.2.tile == tile)

/-- R246: when a page leaves Beam, every copy of its tiles leaves every slice. -/
def State.purgePage (s : State) (p : Nat) : State :=
  { s with tiers := { s.tiers with
      slices := s.tiers.slices.map (fun m => m.filter (fun f => f.2.tile / 64 != p)) } }

/-- The sectors of a tile that bytes [lo, lo + n) touch, `lo` within the tile. -/
def sectorsOf (lo n : Nat) : List Nat :=
  (List.range 64).filter (fun i => decide (512 * i < lo + n) && decide (lo < 512 * (i + 1)))

/-- A landed write clears the ready state of the sectors it touched, in every slice. (Log entry 20.) -/
def State.staleSectors (s : State) (tile : Nat) (secs : List Nat) : State :=
  { s with tiers := { s.tiers with
      slices := s.tiers.slices.map (fun m => m.map (fun f =>
        if f.2.tile == tile then (f.1, { f.2 with sectors := f.2.sectors.filter (fun i => !secs.contains i) }) else f)) } }

/-- R250: is a tile ready in slice h, for the sectors named? -/
def State.sliceReady (s : State) (h tile : Nat) (secs : List Nat) : Bool :=
  match s.frameOf h tile with
  | some f => !f.2.filling && secs.all f.2.sectors.contains
  | none => false

/-! ## Twill (R269, R270) -/

/-- 128-byte blocks of a tile. -/
def twillBlocks (bytes : List Byte) : List (List Byte) := chunks 128 256 bytes

/-- R270: the first mode that reproduces a block: its code and body. -/
def twillMode (prev : Option (List Byte)) (b : List Byte) : Nat × List Byte :=
  if b.all (· == 0) then (0, [])
  else if prev == some b then (2, [])
  else if (chunks 8 16 b).all (· == b.take 8) then (3, b.take 8)
  else (1, b)

/-- R270: the modes and bodies of a tile's blocks. -/
def twillModes : Option (List Byte) → List (List Byte) → List (Nat × List Byte)
  | _, [] => []
  | prev, b :: t => twillMode prev b :: twillModes (some b) t

/-- R269: header (64 B) and body of a tile. -/
def twillEncode (bytes : List Byte) : List Byte × List Byte :=
  let ms := twillModes none (twillBlocks bytes)
  (toLe 64 (leNat ((chunks 4 64 ms).map (fun g =>
      BitVec.ofNat 8 ((g.mapIdx (fun i m => m.1 * 4 ^ i)).sum)))),
   ms.flatMap (·.2))

/-- Table 10.9: bytes of a block's body. -/
def twillLen : Nat → Nat
  | 1 => 128 | 3 => 8 | _ => 0

/-- The mode of block b in a header. -/
def headerMode (header : List Byte) (b : Nat) : Nat := (header.getD (b / 4) 0).toNat / 4 ^ (b % 4) % 4

/-- Bytes of the body that a header announces. -/
def bodyLen (header : List Byte) : Nat := ((List.range 256).map (fun b => twillLen (headerMode header b))).sum

/-- R269: decode the blocks of a body; none where block 0 is REPEAT. -/
def twillDecode (header : List Byte) : Nat → Nat → Option (List Byte) → List Byte → Option (List (List Byte))
  | 0, _, _, _ => some []
  | n + 1, b, prev, body =>
    let m := headerMode header b
    match (match m with
      | 0 => some (List.replicate 128 (0 : Byte))
      | 1 => some (body.take 128)
      | 2 => prev
      | _ => some ((List.replicate 16 (body.take 8)).flatten)) with
    | none => none
    | some blk => (twillDecode header n (b + 1) (some blk) (body.drop (twillLen m))).map (blk :: ·)

/-! ## Backing addresses and encryption (R271, R323) -/

/-- Table 10.10: the key in `Tiers.board` of byte offset x of the Board space of a region. -/
def State.boardKey (s : State) (r : Region) (x : Nat) : Nat :=
  if s.interleaved then
    let g := x / 4096
    g % s.ports * 2 ^ 64 + g / s.ports * 4096 + x % 4096
  else r.port * 2 ^ 64 + x

/-- The key in `Tiers.flash` of a byte of a namespace. -/
def flashKey (nsid byte : Nat) : Nat := nsid * 2 ^ 80 + byte

/-- `n` bytes of backing data of tile t of a region, from byte i of its slot. -/
def State.backData (s : State) (r : Region) (t i n : Nat) : List Byte :=
  if r.backing == 2 then getRun s.tiers.flash (flashKey r.nsid (4096 * (r.backBase + 8 * t) + i)) n
  else if s.interleaved then
    -- granules of 4,096 B lie on successive ports
    let x := r.backBase + tileBytes * t + i
    ((List.range (n / 4096 + 2)).flatMap (fun g =>
      let lo := max x ((x / 4096 + g) * 4096)
      let hi := min (x + n) ((x / 4096 + g + 1) * 4096)
      if hi ≤ lo then [] else getRun s.tiers.board (s.boardKey r lo) (hi - lo)))
  else getRun s.tiers.board (s.boardKey r (r.backBase + tileBytes * t + i)) n

/-- Table 10.10: the key and map of the Twill header of tile t. -/
def State.backHeader (s : State) (r : Region) (t : Nat) : List Byte :=
  if r.backing == 2 then
    getRun s.tiers.flash (flashKey r.nsid (4096 * (r.backBase + 512 * r.pages + t / 64) + 64 * (t % 64))) 64
  else getRun s.tiers.board (s.boardKey r (r.backBase + r.pages * pageBytes + 64 * t)) 64

/-- SS_REGION_KEY[k]: is the region encrypted (R322)? -/
def State.encrypted (s : State) (r : Region) : Bool := r.backing != 0 && s.flag (SS_REGION_KEY.ENCRYPT r.k)

/-- The key of a region's tenant slot. An access that takes the key once ERASE is issued finds none; one whose cipher
work began before (`keyed`) goes on with it (R321). -/
def State.regionKey (s : State) (r : Region) (keyed : Bool) : Option (List Byte) :=
  let slot := s.get (SS_REGION_KEY.TENANT r.k)
  if !keyed && s.sec.erasing.contains (0, slot) then none else mapFind s.sec.keys slot

/-- Does an access to the region find a key now? -/
def State.keyThere (s : State) (p : Nat) : Bool :=
  (s.regionOfPage p).any (fun r => s.encrypted r && (s.regionKey r false).isSome)

/-- R323: the units of 512 B of data at a Loom address, each through XTS with its address as tweak. -/
def xtsUnits (enc : Bool) (key : List Byte) (addr : Nat) (bytes : List Byte) : List Byte :=
  ((groupsOf 512 bytes).mapIdx (fun i u => xtsUnit enc key (addr + 512 * i) u)).flatten

/-- Round up to a multiple. -/
def roundUp (n m : Nat) : Nat := ceilDiv n m * m

/-- A list brought to a length with zero bytes. -/
def padTo (n : Nat) (l : List Byte) : List Byte := l ++ List.replicate (n - l.length) 0

/-- What a read of a tile from its backing gives (R269, R323, R324). -/
inductive BackRead where
  | data (bytes : List Byte) (savedKib : Nat)
  | decodeError
  | noKey
  deriving DecidableEq, Repr

/-- R270, R323: read tile `tile` (its number in the Loom range) from the backing of its region. -/
def State.readBacking (s : State) (r : Region) (tile : Nat) (keyed : Bool) : BackRead :=
  let t := tile - 64 * r.base
  let addr := tile * tileBytes
  let enc := s.encrypted r
  -- a HOME tile has no backing: after CLEAR_POISON its content is open (log entry 26)
  if r.backing == 0 then .data ((List.range tileBytes).map (fun i => Config.freeByte s.free (addr + i))) 0 else
  match (if enc then s.regionKey r keyed else some []) with
  | none => .noKey
  | some key =>
    if s.interleaved then
      let d := s.backData r t 0 tileBytes
      .data (if enc then xtsUnits false key addr d else d) 0
    else
      let hd := s.backHeader r t
      let hd := if enc then xtsUnit false key (addr + 2 ^ 127) hd else hd
      let n := roundUp (bodyLen hd) 64
      let body := s.backData r t 0 n
      let body := if enc then xtsUnits false key addr body else body
      match twillDecode hd 256 0 none body with
      | none => .decodeError
      | some bs => .data bs.flatten ((tileBytes - (if r.backing == 2 then roundUp n 4096 else n)) / 1024)

/-- R266, R270, R323: write a tile to the Board backing of its region; none where its key is absent (R324). -/
def State.writeBacking (s : State) (r : Region) (tile : Nat) (bytes : List Byte) (keyed : Bool) : Option State :=
  let t := tile - 64 * r.base
  let addr := tile * tileBytes
  let enc := s.encrypted r
  match (if enc then s.regionKey r keyed else some []) with
  | none => none
  | some key =>
    let x := r.backBase + tileBytes * t
    if s.interleaved then
      let d := if enc then xtsUnits true key addr bytes else bytes
      let gs := (groupsOf 4096 d).mapIdx (fun i g => (i, g))
      let bd := gs.foldl (fun m g => putRun m (s.boardKey r (x + 4096 * g.1)) g.2) s.tiers.board
      some { s with tiers := { s.tiers with board := bd } }
    else
      let e := twillEncode bytes
      let body := padTo (roundUp e.2.length 64) e.2
      let hd := if enc then xtsUnit true key (addr + 2 ^ 127) e.1 else e.1
      let body := if enc then xtsUnits true key addr body else body
      let bd := putRun (putRun s.tiers.board (s.boardKey r x) body)
        (s.boardKey r (r.backBase + r.pages * pageBytes + 64 * t)) hd
      some { s with tiers := { s.tiers with board := bd } }

/-! ## Events of the tiers -/

/-- TM_FAULT_LOG takes an event while its VALID is 0. Kinds: TIMEOUT 0, ERROR 1, UNMAPPED 2, RO_WRITE 3, LOST 4. -/
def State.tierLog (s : State) (kind unit addr : Nat) : State :=
  if s.flag TM_FAULT_LOG.VALID then s else
  (((s.set TM_FAULT_LOG.VALID 1).set TM_FAULT_LOG.KIND kind).set TM_FAULT_LOG.UNIT unit).set TM_FAULT_LOG.ADDR
    (addr / tileBytes * tileBytes)

/-- A tile becomes POISONED (R276). -/
def State.poisonTile (s : State) (tile : Nat) : State :=
  let s := s.modPage (tile / 64) (fun q => q.setTile (tile % 64) ⟨.poisoned, false⟩)
  (s.bump TM_TIER_EVENTS.POISONED).set TM_IRQ_STATUS.POISONED 1

/-- R324: an access that found no key. -/
def State.keyAbsent (s : State) : State := (s.bump SS_TENANT_EVENTS.KEY_ABSENT).set SS_IRQ_STATUS.KEY_ABSENT 1

/-- R255: a page's last use is now. -/
def State.touchPage (s : State) (p : Nat) : State := s.modPage p (fun q => { q with lastUse := s.revolution })

/-! ## Taking, dropping and writing back frames -/

/-- A page leaves Beam: its frame is freed, its bytes go, every slice loses its tiles; its pins stand. -/
def State.dropPage (s : State) (p : Nat) (st : PageSt) : State :=
  let s := s.purgePage p
  let s := { s with tiers := { s.tiers with beam := mapDelRange s.tiers.beam (p * pageBytes) pageBytes,
                                            wbs := s.tiers.wbs.filter (·.page != p) } }
  s.modPage p (fun q => { st := st, pins := q.pins, rtPin := q.rtPin, dirPin := q.dirPin })

/-- R266: a DIRTY page enters WRITING; its dirty tiles are to be accepted by the backing. -/
def State.startWriteBack (s : State) (p : Nat) (evicting : Bool) : State :=
  match s.regionOfPage p with
  | none => s
  | some r =>
    let s := s.modPage p (fun q => { q with st := .writing, evicting := evicting, wb := q.dirtyTiles,
                                            tiles := q.tiles.foldl (fun m t =>
                                              mapPut ⟨q.base, false⟩ m t.1 { t.2 with dirty := false }) q.tiles })
    { s with tiers := { s.tiers with wbs := s.tiers.wbs ++ [{ page := p, unit := s.backUnit r }] } }

/-- R258: an eviction finds its page pinned after all: the page stays, and the eviction is for another (an EVICT is refused). -/
def State.evictionMissed (s : State) (p : Nat) : State :=
  let ordered := s.tiers.cmd.any (fun c => c.op == 1 && c.page == p)
  let s := s.modPage p (fun q => { q with st := .clean, evicting := false })
  if ordered then s else s.bump TM_PIN_EVENTS.CONFLICT

/-- R266, R324: the backing accepts the dirty tiles of a WRITING page; where the key is absent the write-back is not made and
they stay dirty. The page moves on as Table 10.4 says; an evicted one that something has come to pin stays. -/
def State.finishWriteBack (s : State) (p : Nat) : State :=
  match s.regionOfPage p with
  | none => s
  | some r =>
    let q := s.page p
    let keyed := s.tiers.wbs.any (fun w => w.page == p && w.issued && w.keyed)
    let s := { s with tiers := { s.tiers with wbs := s.tiers.wbs.filter (·.page != p) } }
    let noKey := s.encrypted r && (s.regionKey r keyed).isNone && !q.wb.isEmpty
    let s := q.wb.foldl (fun s i =>
      let tile := 64 * p + i
      match s.writeBacking r tile (getRun s.tiers.beam (tile * tileBytes) tileBytes) keyed with
      | some s => s.bump TM_WRITE_EVENTS.WRITEBACK_TILES
      | none => s.modPage p (fun q => q.setTile i { q.tile i with dirty := true })) s
    let s := if noKey then s.keyAbsent else s
    let s := s.modPage p (fun q => { q with wb := [] })
    if !(s.page p).dirtyTiles.isEmpty then s.modPage p (fun q => { q with st := .dirty, evicting := false })
    else if (s.page p).evicting then (if s.pagePinned p then s.evictionMissed p else s.dropPage p .absent)
    else s.modPage p (fun q => { q with st := .clean })

/-- R255: the pages that may be chosen for eviction, in the order they are chosen: oldest last use, lowest address. A
page whose backing unit has failed is not evicted. -/
def State.victims (s : State) : List Nat :=
  (sortBy (fun a b => decide (a.2.lastUse < b.2.lastUse))
    (s.tiers.pages.filter (fun p => (p.2.st == .clean || p.2.st == .dirty) && !s.pagePinned p.1 &&
      !(match s.regionOfPage p.1 with | some r => s.backFailed r | none => false)))).map (·.1)

/-- Evict a CLEAN page at once, a DIRTY page through WRITING. -/
def State.evictPage (s : State) (p : Nat) : State :=
  match (s.page p).st with
  | .clean => s.dropPage p .absent
  | .dirty => s.startWriteBack p true
  | _ => s

/-- Frames that evictions under way will free. -/
def State.comingFrames (s : State) : Nat := (s.tiers.pages.filter (fun p => p.2.st == .writing && p.2.evicting)).length

/-- R255: evict until the free frames, with those that evictions under way will free, reach FREE_TARGET. -/
def State.keepFree (s : State) : State :=
  let short := s.get TM_CTRL.FREE_TARGET - (s.freeFrames + s.comingFrames)
  if short == 0 then s else (s.victims.take short).foldl State.evictPage s

/-- R255: something waits for a frame and none is free: the first victim is evicted, unless an eviction is under way. -/
def State.makeRoom (s : State) : State :=
  if s.freeFrames != 0 || s.comingFrames != 0 then s else (s.victims.take 1).foldl State.evictPage s

/-- Take a frame for an ABSENT page from the pool (R245). -/
def State.takeFrame (s : State) (p : Nat) (st : PageSt) (base : TileSt) : State :=
  let i := s.bestStack
  s.modPage p (fun q => { q with st := st, stack := i, base := base, tiles := [], lastUse := s.revolution })

/-! ## Fetching a tile, reading and writing Loom bytes (R249, R265) -/

/-- R276: a tile of a resident page is brought into Beam from its backing, VALID or POISONED. -/
def State.fetchTile (s : State) (r : Region) (tile source : Nat) (keyed : Bool) : State :=
  match s.readBacking r tile keyed with
  | .data bytes saved =>
    let s := { s with tiers := { s.tiers with beam := putRun s.tiers.beam (tile * tileBytes) bytes } }
    let s := s.modPage (tile / 64) (fun q => q.setTile (tile % 64) ⟨.valid, false⟩)
    let s := if saved == 0 then s else s.bump TM_TIER_EVENTS.TWILL_SAVED_KIB saved
    s.watchAccess false source none (tile * tileBytes) tileBytes []
  | .decodeError => (s.poisonTile tile).tierLog 1 (s.backUnit r) (tile * tileBytes)
  | .noKey => ((s.poisonTile tile).keyAbsent).tierLog 1 (s.backUnit r) (tile * tileBytes)

/-- R244: an access outside every valid region. -/
def State.unmapped (s : State) (addr : Nat) : State := (s.set TM_IRQ_STATUS.UNMAPPED 1).tierLog 2 15 addr

/-- The state of a tile in Beam: INVALID where its page has no frame. -/
def State.tileState (s : State) (tile : Nat) : TileSt :=
  let q := s.page (tile / 64)
  if q.st.held then (q.tile (tile % 64)).st else .invalid

/-- R249: the operation under way finds a tile out of Beam, and a write finds no frame for its page. -/
def State.want (s : State) (tile : Nat) : State :=
  { s with tiers := { s.tiers with wanted := insertSorted tile s.tiers.wanted } }

/-- R265: the operation under way finds no frame for the page it writes. -/
def State.starve (s : State) : State := { s with tiers := { s.tiers with starved := true } }

/-- R249: is the tile in Beam? Where it is not, it is wanted. False also where it is unmapped, POISONED, or its page LOST or
FAILED: it cannot be read. A HOME tile that CLEAR_POISON made INVALID has no backing to come from, and is read at once. -/
def State.reachTile (s : State) (tile source : Nat) : State × Bool :=
  let p := tile / 64
  match s.regionOfPage p with
  | none => (s.unmapped (tile * tileBytes), false)
  | some r =>
    if (s.page p).st == .lost || s.pageFailed p then (s, false)
    else match s.tileState tile with
      | .valid => (s.touchPage p, true)
      | .poisoned => (s, false)
      | _ =>
        if r.backing == 0 then ((s.fetchTile r tile source false).touchPage p, true)
        else if s.backFailed r then (s, false)
        else (s.want tile, false)

/-- R265, R266: bytes land in one tile of Beam. The write is dropped, with its record, where the region is READ_ONLY, the
page is LOST or FAILED, or nothing maps it. It waits for a frame, for a tile that it writes in part, and for a fetch that is
under way. -/
def State.landInTile (s : State) (source : Nat) (loc : Option Nat) (addr : Nat) (bytes : List Byte) : State × Bool :=
  let tile := addr / tileBytes
  let p := tile / 64
  match s.regionOfPage p with
  | none => (s.unmapped addr, false)
  | some r =>
    if !r.wb then
      (((s.bump TM_WRITE_EVENTS.RO_WRITES).set TM_IRQ_STATUS.RO_WRITE 1).tierLog 3 15 addr, false)
    else if (s.page p).st == .lost then (s.tierLog 4 15 addr, false)
    else if s.pageFailed p then (s.tierLog 1 (s.backUnit r) addr, false)
    else if !(s.page p).st.held && s.freeFrames == 0 then (s.starve, false)
    else
      let whole := bytes.length == tileBytes
      let st0 := s.tileState tile
      if st0 == .fetching || (st0 == .invalid && !whole && r.backing != 0) then (s.want tile, false)
      else
        let s := if (s.page p).st.held then s else s.takeFrame p .clean .invalid
        let s := if st0 == .invalid && !whole then s.fetchTile r tile source false else s
        let st := if whole then TileSt.valid else s.tileState tile
        let s := { s with tiers := { s.tiers with beam := putRun s.tiers.beam addr bytes } }
        let s := s.modPage p (fun q =>
          { (q.setTile (tile % 64) ⟨st, q.st != .home⟩) with
              st := (if q.st == .clean then .dirty else q.st), lastUse := s.revolution })
        let s := (s.staleSectors tile (sectorsOf (addr % tileBytes) bytes.length)).keepFree
        let a0 := addr / 8 * 8
        let n0 := roundUp (addr + bytes.length) 8 - a0
        (s.watchAccess true source loc a0 n0 (if s.flag BD_DBG_CTRL.ARM then getRun s.tiers.beam a0 n0 else []), true)

/-- The parts of a write, one per tile. -/
def splitTiles (addr : Nat) (bytes : List Byte) : List (Nat × List Byte) :=
  (tilesOf addr bytes.length).map (fun t =>
    let lo := max addr (t * tileBytes)
    (lo, (bytes.drop (lo - addr)).take ((t + 1) * tileBytes - lo)))

/-- R265: bytes of an engine write land in Beam; true where all of them did. -/
def State.landBytes (s : State) (source : Nat) (loc : Option Nat) (addr : Nat) (bytes : List Byte) : State × Bool :=
  (splitTiles addr bytes).foldl (fun a w =>
    let r := a.1.landInTile source loc w.1 w.2
    (r.1, a.2 && r.2)) (s, true)

/-- R257: an engine write in flight pins its page. -/
def State.pinPages (s : State) (addr n : Nat) (d : Bool) : State :=
  (sortNub ((tilesOf addr n).map (· / 64))).foldl (fun s p =>
    s.modPage p (fun q => { q with pins := if d then q.pins + 1 else q.pins - 1 })) s

/-- R265: an engine write enters the queue of writes on their way to Beam. -/
def State.queueWrite (s : State) (source : Nat) (loc : Option Nat) (addr : Nat) (bytes : List Byte) : State :=
  if bytes.isEmpty then s else
  let s := s.pinPages addr bytes.length true
  { s with tiers := { s.tiers with writes := s.tiers.writes ++ [⟨addr, bytes, source, loc⟩] } }

/-- R265: a write that was dropped is a tier error to the subsystem that issued it. -/
def State.noteDropped (s : State) (w : EngWrite) : State :=
  { s with tiers := { s.tiers with dropped := s.tiers.dropped ++ [w] } }

/-- R265: the bytes of a write land; one that is dropped is noted. -/
def State.landOrNote (s : State) (w : EngWrite) : State :=
  let r := s.landBytes w.source w.harness w.addr w.bytes
  if r.2 then r.1 else r.1.noteDropped w

/-- A queued write lands. -/
def State.landWrite (s : State) (w : EngWrite) : State :=
  (s.pinPages w.addr w.bytes.length false).landOrNote w

/-- Engine writes still on their way that touch [addr, addr + n) land before it is read. (Log entry 22.) -/
def State.settle (s : State) (addr n : Nat) : State :=
  let hit := fun (w : EngWrite) => decide (w.addr < addr + n) && decide (addr < w.addr + w.bytes.length)
  -- the Tally's own writes land only by their event, which advances HEAD (R361)
  let now := s.tiers.writes.filter (fun w => hit w && w.source != 11)
  if now.isEmpty then s else
  let s := { s with tiers := { s.tiers with writes := s.tiers.writes.filter (fun w => !(hit w && w.source != 11)) } }
  now.foldl State.landWrite s

/-- R249: read Loom bytes through Beam; none where a tile of them cannot be read. -/
def State.loomRead (s : State) (source addr n : Nat) : State × Option (List Byte) :=
  let s := s.settle addr n
  let r := (tilesOf addr n).foldl (fun a t =>
    let b := a.1.reachTile t source
    (b.1, a.2 && b.2)) (s, true)
  (r.1, if r.2 then some (getRun r.1.tiers.beam addr n) else none)

/-- An engine write that lands within the command that makes it. -/
def State.loomWrite (s : State) (source addr : Nat) (bytes : List Byte) : State :=
  (s.settle addr bytes.length).landOrNote ⟨addr, bytes, source, none⟩

/-- Bytes of the Loom range; where a tile of them cannot be read, their values are open: free values. (Log entry 24.) -/
def State.loomReadOpen (s : State) (source addr n : Nat) : State × List Byte :=
  let r := s.loomRead source addr n
  match r.2 with
  | some b => (r.1, b)
  | none => ({ r.1 with free := r.1.free + 1 },
      (List.range n).map (fun i => Config.freeByte r.1.free (addr + i)))

/-- Words of the Loom range written in place. -/
def State.loomPutWord (s : State) (source addr : Nat) (w : W64) : State :=
  s.loomWrite source addr (wordBytes w)

/-! ## Fills (R251) -/

/-- Queue a fill, unless the same tile is already asked for in the same slice; a demand raises a waiting prefetch. -/
def State.queueFill (s : State) (f : Fill) : State :=
  match s.tiers.fills.find? (fun g => g.tile == f.tile && g.slice == f.slice) with
  | some g =>
    let g' := { g with demand := g.demand || f.demand, sets := sortNub (g.sets ++ f.sets),
                       sectors := if g.issued then g.sectors else sortNub (g.sectors ++ f.sectors) }
    let fs := s.tiers.fills.map (fun x => if x.tile == f.tile && x.slice == f.slice then g' else x)
    let s := { s with tiers := { s.tiers with fills := fs } }
    if g.issued && !(f.sectors.all g.sectors.contains) then
      { s with tiers := { s.tiers with fills := s.tiers.fills ++ [f] } }
    else s
  | none => { s with tiers := { s.tiers with fills := s.tiers.fills ++ [f] } }

/-- All sectors of a tile. -/
def allSectors : List Nat := List.range 64

/-! ## Operations that wait for Beam (R249) -/

/-- R249: an operation on the Loom range is tried: it takes effect where every tile it reads is in Beam, and every page it
writes finds a frame. Where not, nothing of it takes effect: demand fills are queued for the tiles that it lacks, and it is to
be tried again. Answers whether it took effect. One operation within another is tried with it. -/
def State.attempt (s : State) (op : State → State) : State × Bool :=
  if s.tiers.trying then (op s, true) else
  let r := op { s with tiers := { s.tiers with trying := true, wanted := [], starved := false } }
  if r.tiers.wanted.isEmpty && !r.tiers.starved then ({ r with tiers := { r.tiers with trying := false } }, true)
  else
    let s := r.tiers.wanted.foldl (fun s t => s.queueFill { tile := t, source := 7 }) s
    (if r.tiers.starved then s.makeRoom else s, false)

/-- R249: work joins the work that waits. -/
def State.addWork (s : State) (w : Work) : State :=
  { s with tiers := { s.tiers with work := s.tiers.work ++ [w] } }

/-- R252: why a tile is not ready in slice h: a cause code of Table 10.5, or none where it makes no block wait. -/
def State.tileError (s : State) (tile : Nat) : Bool :=
  match s.regionOfPage (tile / 64) with
  | none => true
  | some _ => (s.page (tile / 64)).st == .lost || s.pageFailed (tile / 64) ||
      ((s.page (tile / 64)).tile (tile % 64)).st == .poisoned

/-- R244: a read of tiles that no valid region maps. -/
def State.noteUnmapped (s : State) (tiles : List Nat) : State :=
  (tiles.filter (fun t => (s.regionOfPage (t / 64)).isNone)).foldl (fun s t => s.unmapped (t * tileBytes)) s

/-- R277: does a unit's failure under R275 stand behind the loss of a tile? -/
def State.tileGone (s : State) (tile : Nat) : Bool := (s.page (tile / 64)).st == .lost || s.pageFailed (tile / 64)

/-- R254, R263: may some frame of slice h be taken for a fill? -/
def State.sliceFrame (s : State) (h : Nat) : Option Nat :=
  let m := s.slice h
  if m.length < 768 then
    (List.range 768).find? (fun i => (mapFind m i).isNone)
  else
    let ok := m.filter (fun f => f.2.sets.isEmpty && f.2.refs == 0 && !f.2.filling && !s.rowHolds h f.2.tile)
    match sortBy (fun a b => decide (a.2.count < b.2.count) || (a.2.count == b.2.count &&
        decide (a.2.lastRead < b.2.lastRead))) ok with
    | [] => none
    | f :: _ => some f.1

/-- R254: is every frame of slice h pinned or filling (PIN_CONFLICT), rather than held by read references? -/
def State.sliceFull (s : State) (h : Nat) : Bool :=
  (s.slice h).length == 768 && (s.slice h).all (fun f => !f.2.sets.isEmpty || f.2.filling)

/-- Table 10.5, R254: the cause reported for a tile that is not ready in slice h. -/
def State.lateCause (s : State) (h tile : Nat) : Nat :=
  let p := tile / 64
  let waiting := s.tiers.fills.any (fun f => f.tile == tile && f.slice == some h && !f.issued)
  if waiting && (s.frameOf h tile).isNone && (s.sliceFrame h).isNone then (if s.sliceFull h then 9 else 0)
  else if waiting && !(s.page p).st.held && s.freeFrames == 0 then
    (if s.victims.isEmpty && s.comingFrames == 0 then 9 else 0)
  else
    match s.regionOfPage p, s.tileState tile with
    | _, .valid => 0
    | some r, _ => if r.backing == 1 then 1 else if r.backing == 2 then 2 else 0
    | none, _ => 0

end Sys2Proof.Machine
end

