-- ==== Sys2Proof/Machine/SkeinOps.lean ====
section
/-! DEFINITION. The Skein Table Unit's operations: values in force of deferred registers (R432), the directory
(R213, R214), layer maps (R215), versions and the run pool (R219 to R224), the choice of Harnesses (R226), embedding
tables and row replacement (R228 to R239), prefetch sets (R260 to R264). -/

namespace Sys2Proof.Machine

/-! ## Values in force (R432) -/

/-- The value in force of a boundary-deferred register. -/
def State.inForce (s : State) (off : Nat) : W64 := (mapFind s.skein.deferred off).getD (s.word off)

/-- A field of a boundary-deferred register, as it is in force. -/
def State.getF (s : State) (f : Fld) : Nat := bitsOf (s.inForce f.off).toNat f.hi f.lo

/-- R217: d_in and d_out of projection p, where its shape is valid. -/
def State.shape (s : State) (p : Nat) : Option (Nat × Nat) :=
  if s.getF (ST_SHAPE.VALID p) == 1 then some (s.getF (ST_SHAPE.D_IN p), s.getF (ST_SHAPE.D_OUT p)) else none

/-! ## The directory (R213, R214) -/

/-- A directory entry: the eight words of Table 9.1. -/
structure Dir where
  words : List W64
  deriving DecidableEq, Repr

/-- Bits of word i of an entry. -/
def Dir.bits (d : Dir) (i hi lo : Nat) : Nat := bitsOf (d.words.getD i 0).toNat hi lo

/-- An entry with bits of word i replaced. -/
def Dir.put (d : Dir) (i hi lo v : Nat) : Dir := ⟨modAt d.words i (fun w => putBits w hi lo v)⟩

/-- Table 9.1. -/
def Dir.valid (d : Dir) : Bool := d.bits 0 63 63 == 1
/-- Table 9.1: AUTO 0, ALL 1, ONE 2. -/
def Dir.policy (d : Dir) : Nat := d.bits 0 62 61
/-- Table 9.1: 1: REPLICATED within a Mill. -/
def Dir.mill (d : Dir) : Nat := d.bits 0 60 60
/-- Table 9.1. -/
def Dir.format (d : Dir) : Nat := d.bits 0 59 56
/-- Table 9.1. -/
def Dir.tenant (d : Dir) : Nat := d.bits 0 55 44
/-- Table 9.1. -/
def Dir.rank (d : Dir) : Nat := d.bits 0 40 32
/-- Table 9.1. -/
def Dir.projMask (d : Dir) : Nat := d.bits 0 31 16
/-- Table 9.1. -/
def Dir.layers (d : Dir) : Nat := d.bits 0 10 0
/-- Table 9.1. -/
def Dir.alpha (d : Dir) : F32 := BitVec.ofNat 32 (d.bits 1 63 32)
/-- Table 9.1. -/
def Dir.pending (d : Dir) : Nat := d.bits 2 63 32
/-- Table 9.1. -/
def Dir.current (d : Dir) : Nat := d.bits 2 31 0
/-- Table 9.1. -/
def Dir.drainVersion (d : Dir) : Nat := d.bits 3 63 32
/-- Table 9.1. -/
def Dir.ownerMill (d : Dir) : Nat := d.bits 3 31 23
/-- Table 9.1. -/
def Dir.shard (d : Dir) : Nat := d.bits 3 22 20
/-- Table 9.1. -/
def Dir.drainSlot (d : Dir) : Nat := d.bits 3 5 4
/-- Table 9.1. -/
def Dir.pendSlot (d : Dir) : Nat := d.bits 3 3 2
/-- Table 9.1. -/
def Dir.curSlot (d : Dir) : Nat := d.bits 3 1 0
/-- Table 9.1. -/
def Dir.home (d : Dir) : Nat := d.bits 4 51 0

/-- The storage format as an element format; BF16 for a reserved code, which WRITE refuses. -/
def Dir.fmt (d : Dir) : EFmt := (EFmt.ofCode d.format).getD .bf16

/-- ST_STATUS.DIR_READY. -/
def State.dirReady (s : State) : Bool := s.flag ST_STATUS.DIR_READY

/-- R213: the Loom address of entry a. -/
def State.dirAddr (s : State) (a : Nat) : Nat := s.getF ST_DIR_BASE.BASE * 2 ^ 22 + 64 * a

/-- The eight words at a Loom address, as they stand in Beam. -/
def State.peekWords (s : State) (addr n : Nat) : List W64 :=
  (groupsOf 8 (getRun s.tiers.beam addr (8 * n))).map (fun b => BitVec.ofNat 64 (leNat b))

/-- Bring entry a within reach (R249). -/
def State.reachDir (s : State) (a : Nat) : State := if s.dirReady then (s.loomRead 8 (s.dirAddr a) 64).1 else s

/-- Entry a as it reads; none while the directory is not ready. -/
def State.rawDir (s : State) (a : Nat) : Option Dir :=
  if s.dirReady then some ⟨s.peekWords (s.dirAddr a) 8⟩ else none

/-- Entry a, where it is valid. -/
def State.dir? (s : State) (a : Nat) : Option Dir := (s.rawDir a).filter (·.valid)

/-- Write entry a. -/
def State.putDir (s : State) (a : Nat) (d : Dir) : State :=
  s.loomWrite 8 (s.dirAddr a) (d.words.flatMap wordBytes)

/-! ## Layer maps (R215) -/

/-- The Loom address of entry l of a map slot. -/
def Dir.mapAddr (d : Dir) (slot l : Nat) : Nat := d.home + 8192 * slot + 8 * l

/-- A run of skein tiles: its Loom address and its tiles. -/
structure Run where
  addr : Nat
  tiles : Nat
  deriving DecidableEq, Repr

/-- Table 9.2. -/
def runOfEntry (w : W64) : Option Run :=
  if bitOf w.toNat 63 then some ⟨bitsOf w.toNat 51 15 * 32768, bitsOf w.toNat 14 0⟩ else none

/-- The entry of layer l in a map slot, brought within reach. -/
def State.mapEntry (s : State) (d : Dir) (slot l : Nat) : State × W64 :=
  let r := s.loomReadOpen 8 (d.mapAddr slot l) 8
  (r.1, BitVec.ofNat 64 (leNat r.2))

/-- The map slot of a version of an entry. -/
def Dir.slotOf (d : Dir) (v : Nat) : Option Nat :=
  if v == 0 then none
  else if v == d.current then some d.curSlot
  else if v == d.pending then some d.pendSlot
  else if v == d.drainVersion then some d.drainSlot
  else none

/-- The run of layer l in version v of adapter a, where it has one (R216). -/
def State.runOf (s : State) (a v l : Nat) : State × Option Run :=
  match s.rawDir a with
  | none => (s, none)
  | some d =>
    if d.layers ≤ l then (s, none) else
    match d.slotOf v with
    | none => (s, none)
    | some slot =>
      let r := s.mapEntry d slot l
      (r.1, runOfEntry r.2)

/-- The run of layer l in version v, as it stands in Beam. -/
def State.peekRun (s : State) (a v l : Nat) : Option Run :=
  match s.rawDir a with
  | none => none
  | some d =>
    match d.slotOf v with
    | none => none
    | some slot => if d.layers ≤ l then none else runOfEntry ((s.peekWords (d.mapAddr slot l) 1).headD 0)

/-! ## Versions (R219 to R224) -/

/-- R219: the version that rows of adapter a latch in this revolution; the latch stands for its rest. -/
def State.latch (s : State) (a : Nat) (d : Dir) : State × Nat :=
  match mapFind s.skein.latches a with
  | some v => (s, v)
  | none => ({ s with skein := { s.skein with latches := mapIns s.skein.latches a d.current } }, d.current)

/-- R211, R223: UPD instances of adapter a run or wait. -/
def State.updBusy (s : State) (a : Nat) : Bool :=
  s.skein.learners.any (fun l => l.adapter == a && !l.waiting.isEmpty) ||
    s.spindles.any (fun v => v.jobs.any (fun j => j.key.cls == 5 && j.key.adapter == a))

/-- The gangs of a window that wait for their turn. -/
def Turns.gangs (t : Turns) : List Gang := t.deferred ++ t.queues.flatMap (fun q => q.gangs.flatten)

/-- Every gang that waits for its turn in Harness h. -/
def Harness.gangs (h : Harness) : List Gang := h.turns.flatMap Turns.gangs

/-- Does any pick, or any gang waiting for its turn, name version v of adapter a? -/
def State.versionNamed (s : State) (a v : Nat) : Bool :=
  s.heddle.picks.any (fun p => p.adapter == a && p.version == v) ||
    s.heddle.harnesses.any (fun h => h.gangs.any (fun x => x.adapter == a && x.version == v))

/-- R222: the tiles of the run pool in force. -/
def State.poolRange (s : State) : Nat × Nat :=
  if s.getF ST_RUN_POOL.VALID == 1 then
    (s.getF ST_RUN_POOL.BASE * 64, s.getF ST_RUN_POOL.PAGES * 64)
  else (0, 0)

/-- R221: the lowest run of `n` tiles of the pool that are not in use. (Log entry 23.) -/
def State.poolFind (s : State) (n : Nat) : Option Nat :=
  let r := s.poolRange
  let cands := r.1 :: s.skein.poolUsed.map (· + 1)
  ((sortNub cands).find? (fun t => decide (r.1 ≤ t) && decide (t + n ≤ r.1 + r.2) && r.2 != 0 &&
    !s.skein.poolUsed.any (fun u => decide (t ≤ u) && decide (u < t + n))))

/-- Mark tiles of the pool as used or free. -/
def State.poolMark (s : State) (t n : Nat) (used : Bool) : State :=
  let tiles := (List.range n).map (· + t)
  let u := if used then sortNub (s.skein.poolUsed ++ tiles) else s.skein.poolUsed.filter (fun x => !tiles.contains x)
  { s with skein := { s.skein with poolUsed := u } }

/-- The map slots of an entry that hold a version. -/
def Dir.liveSlots (d : Dir) : List Nat :=
  [d.curSlot] ++ (if d.pending == 0 then [] else [d.pendSlot]) ++ (if d.drainVersion == 0 then [] else [d.drainSlot])

/-- R222: the runs that only `slot` named go back to the pool, where they lie in its range. -/
def State.freeRuns (s : State) (d : Dir) (slot : Nat) : State :=
  let rng := s.poolRange
  (List.range d.layers).foldl (fun s l =>
    let e := (s.mapEntry d slot l)
    match runOfEntry e.2 with
    | none => e.1
    | some r =>
      let others := (d.liveSlots.filter (· != slot)).map (fun i => runOfEntry ((e.1.mapEntry d i l).2))
      if others.any (fun o => o.any (fun q => q.addr == r.addr)) then e.1
      else if rng.2 != 0 && decide (rng.1 * tileBytes ≤ r.addr) &&
          decide (r.addr + r.tiles * tileBytes ≤ (rng.1 + rng.2) * tileBytes) then
        e.1.poolMark (r.addr / tileBytes) r.tiles false
      else e.1) s

/-- R224: DRAIN_VERSION returns to 0 once no pick names it, and its own runs return to the pool. -/
def State.releaseDrain (s : State) (a : Nat) : State :=
  match s.rawDir a with
  | none => s
  | some d =>
    if d.drainVersion == 0 || s.versionNamed a d.drainVersion then s
    else
      let s := s.freeRuns (d.put 3 63 32 0) d.drainSlot
      s.putDir a (d.put 3 63 32 0)

/-- R224: picks or gangs have left: a draining version of adapter a that none names any more is to be released. -/
def State.noteDrain (s : State) (a : Nat) : State :=
  if (s.rawDir a).any (fun d => d.drainVersion != 0 && !s.versionNamed a d.drainVersion) &&
      !s.tiers.work.contains (.drained a) then s.addWork (.drained a) else s

/-- R223: the adapter leaves or joins the pending list. -/
def State.setPendList (s : State) (a : Nat) (on : Bool) : State :=
  { s with skein := { s.skein with
      pendList := if on then insertSorted a s.skein.pendList else s.skein.pendList.filter (· != a) } }

/-- R223: discard a pending version (INVALIDATE, R278, R303). -/
def State.discardPending (s : State) (a : Nat) : State :=
  let s := s.reachDir a
  match s.rawDir a with
  | none => s
  | some d =>
    if d.pending == 0 then s.setPendList a false
    else
      let d' := d.put 2 63 32 0
      ((s.freeRuns d' d.pendSlot).putDir a d').setPendList a false

/-- R264: in the pinned sets that resolved the adapter through a SKEIN extent, its extents are to be resolved again. -/
def State.markReresolve (s : State) (a : Nat) : State :=
  ((s.tiers.sets.filter (fun p => p.2.exts.any (fun e => e.skein.any (fun q => q.1 == a)))).map (·.1)).foldl
    (fun s k => s.addWork (.reresolve k a)) s

/-- R223: commit, for one adapter, at the boundary that opens revolution `rev`. -/
def State.commitOne (s : State) (a expected rev : Nat) : State :=
  let s := s.reachDir a
  match s.rawDir a with
  | none => s.bump ST_VERSION_EVENTS.NO_PENDING
  | some d =>
    if !d.valid || d.pending == 0 then s.bump ST_VERSION_EVENTS.NO_PENDING
    else if expected != 0 && expected != d.pending then s.bump ST_VERSION_EVENTS.MISMATCH
    else if s.updBusy a then s.bump ST_LEARN_EVENTS.COMMIT_DEFERRED
    else if d.drainVersion != 0 then s.bump ST_VERSION_EVENTS.DRAIN_BUSY
    else
      let free := 3 - d.curSlot - d.pendSlot
      let d' := (((d.put 3 5 4 d.curSlot).put 3 63 32 d.current).put 3 1 0 d.pendSlot).put 2 31 0 d.pending
      let d' := ((d'.put 3 3 2 free).put 2 63 32 0).put 5 39 0 rev
      let s := ((s.putDir a d').setPendList a false).bump ST_VERSION_EVENTS.COMMITTED
      (s.releaseDrain a).markReresolve a

/-! ## Harnesses of an adapter (R226, R354) -/

/-- R226: replicas(a). -/
def State.replicas (s : State) (policy windowRows boltRows key : Nat) : Nat :=
  let groups := ceilDiv windowRows 8
  let bolt := s.get ST_HOT_THRESHOLD.BOLT_ROWS
  if policy == 2 then 1
  else if policy == 1 then min 8 groups
  else if (bolt != 0 && decide (bolt < boltRows)) || decide (s.get ST_HOT_THRESHOLD.REV_ROWS < s.sketchEst key) then
    min (min 8 groups) (max 2 (ceilDiv boltRows (max bolt 1)))
  else 1

/-- Harnesses that are in service and usable, with the load of R226: the least loaded one not in a list. -/
def State.leastLoaded (s : State) (load : List Nat) (skip : List Nat) : Option Nat :=
  (s.servingHarnesses.filter (fun h => !skip.contains h)).foldl (fun b h =>
    match b with
    | none => some h
    | some x => if load.getD h 0 < load.getD x 0 then some h else b) none

/-- R226: grow a list of Harnesses to k members. -/
def State.growHarnesses (s : State) (load : List Nat) (k : Nat) : Nat → List Nat → List Nat
  | 0, hs => hs
  | n + 1, hs =>
    if k ≤ hs.length then hs
    else match s.leastLoaded load hs with
      | none => hs
      | some h => s.growHarnesses load k n (hs ++ [h])

/-- R226: the list positions of part j of k over n rows: from, and up to. -/
def partBounds (n k j : Nat) : Nat × Nat := (n * j / k, n * (j + 1) / k)

/-- R226: the Harnesses that serve an adapter of a window, rev_harness grown, and the load they then carry. -/
def State.chooseHarnesses (s : State) (load : List Nat) (a rank policy windowRows boltRows : Nat) :
    State × List Nat × List Nat :=
  let k := s.replicas policy windowRows boltRows a
  let s := if 1 < k then s.bump ST_HOT_EVENTS.SPREAD else s
  let rev := (mapGet [] s.skein.revHarness a).filter s.inService
  let hs := s.growHarnesses load k 8 (rev.take k)
  let rev' := rev ++ hs.filter (fun h => !rev.contains h)
  let s := { s with skein := { s.skein with revHarness := mapPut [] s.skein.revHarness a rev' } }
  let k' := hs.length
  let load := (hs.mapIdx (fun j h => (j, h))).foldl (fun ld jh =>
    let b := partBounds windowRows k' jh.1
    modAt ld jh.2 (· + ceilDiv rank 8 * ceilDiv (b.2 - b.1) 8)) load
  (s, hs, load)

/-! ## Embedding tables (R228 to R239) -/

/-- The definition that ST_TABLE[k]'s words hold. -/
def State.tableWords (s : State) (k : Nat) : Table :=
  { k := k, kind := s.get (ST_TABLE.KIND k), passMode := s.flag (ST_TABLE.READ_MODE k), pool := s.get (ST_TABLE.POOL k),
    shared := s.flag (ST_TABLE.SHARED k), mul := s.flag (ST_TABLE.OP k), format := s.get (ST_TABLE.FORMAT k),
    tenant := s.get (ST_TABLE.TENANT k), compA := s.get (ST_TABLE.COMP_A k), compB := s.get (ST_TABLE.COMP_B k),
    width := s.get (ST_TABLE.WIDTH k), shadow := s.get (ST_TABLE.SHADOW_SLOTS k),
    logical := s.get (ST_TABLE.LOGICAL_ROWS k), m := s.get (ST_TABLE.M k), phys := s.get (ST_TABLE.PHYS_ROWS k),
    seed := s.get (ST_TABLE.SEED k), pointers := s.get (ST_TABLE.POINTER_BASE k), slots := s.get (ST_TABLE.SLOT_BASE k),
    deflt := s.get (ST_TABLE.DEFAULT_ROW k), free := s.get (ST_TABLE.FREE_BASE k) }

/-- Table k, where it is valid. -/
def State.table? (s : State) (k : Nat) : Option Table :=
  if k < 64 && s.flag (ST_TABLE.VALID k) then some (s.tableWords k) else none

/-- Table 4.1: the storage format. -/
def Table.fmt (t : Table) : EFmt := (EFmt.ofCode t.format).getD .bf16

/-- Bytes of a row of `width` elements with its block scales, before padding. -/
def rowBytes (f : EFmt) (width : Nat) : Nat := width * f.bits / 8 + (if f.isMx then width / 32 else 0)

/-- R229: SLOT_BYTES. -/
def Table.slotBytes (t : Table) : Nat := roundUp (rowBytes t.fmt t.width) 64

/-- R228: the TABLE_REASON of the first condition that a definition fails; 0 where none does. -/
def State.tableReason (s : State) (t : Table) : Nat :=
  let comp := fun k => (s.table? k).filter (fun c => c.kind < 2 && c.width == t.width &&
    (c.tenant == t.tenant || c.shared))
  if t.kind == 3 || t.pool == 3 then 7
  else if !(32 ≤ t.width && t.width ≤ 4096 && t.width % 32 == 0) then 1
  else if 6 < t.format then 2
  else if t.logical == 0 then 3
  else if t.kind == 0 && (t.logical != t.phys || decide (2 ^ 32 - 1 < t.phys + t.shadow)) then 3
  else if t.kind == 1 && (decide (2 ^ 34 < t.logical) || t.phys == 0 || decide (2 ^ 32 - 1 < t.phys + t.shadow)) then 3
  else if t.kind == 2 && (match comp t.compA, comp t.compB with
      | some a, some b => t.m == 0 || decide (b.logical < t.m) || decide (a.logical * t.m < t.logical)
      | _, _ => true) then 4
  else if [t.pointers, t.slots, t.deflt, t.free].any (fun x => x % 64 != 0) then 5
  else 0

/-- R230: the physical row of index i of a DIRECT or HASHED table. -/
def Table.physRow (t : Table) (i : Nat) : Nat :=
  if t.kind == 1 then
    ((mix (BitVec.ofNat 64 i ^^^ (BitVec.ofNat 64 t.seed <<< 34)) >>> 32).toNat * t.phys % 2 ^ 64) / 2 ^ 32
  else i

/-- The Loom address of pointer p. -/
def Table.pointerAddr (t : Table) (p : Nat) : Nat := t.pointers + 4 * p

/-- The Loom address of slot n. -/
def Table.slotAddr (t : Table) (n : Nat) : Nat := t.slots + n * t.slotBytes

/-- No slot: the row is absent. -/
def absentSlot : Nat := 0xFFFFFFFF

/-- A 4-byte value of the Loom range. -/
def State.loomHalf (s : State) (addr : Nat) : State × Nat :=
  let r := s.loomReadOpen 8 addr 4
  (r.1, leNat r.2)

/-- R229: the ring of a table's free slots; capacity PHYS_ROWS + SHADOW_SLOTS. -/
def State.ring (s : State) (k : Nat) : Ring := mapGet {} s.skein.rings k

/-- Replace the ring of a table. -/
def State.setRing (s : State) (k : Nat) (r : Ring) : State :=
  { s with skein := { s.skein with rings := mapPut {} s.skein.rings k r } }

/-- R229: a slot joins the tail of the free list. -/
def State.pushSlot (s : State) (t : Table) (slot : Nat) : State :=
  let r := s.ring t.k
  let cap := max 1 (t.phys + t.shadow)
  let s := s.loomWrite 8 (t.free + 4 * ((r.head + r.count) % cap)) (toLe 4 slot)
  s.setRing t.k { r with count := r.count + 1 }

/-- R229: the slot at the head of the free list. -/
def State.popSlot (s : State) (t : Table) : State × Option Nat :=
  let r := s.ring t.k
  if r.count == 0 then (s, none) else
  let v := s.loomHalf (t.free + 4 * r.head)
  (v.1.setRing t.k ⟨(r.head + 1) % max 1 (t.phys + t.shadow), r.count - 1⟩, some v.2)

/-- R238: a read reference stands on a slot while a fill that took its pointer has not delivered it, or a bag has still
to read it from the slice. -/
def State.slotReferenced (s : State) (k slot : Nat) : Bool :=
  s.tiers.fills.any (fun f => match f.owner with | .row _ t n => t == k && n == slot | _ => false) ||
    s.spindles.any (fun v => v.jobs.any (fun j => j.reads.any (fun r =>
      r.table == k && r.slot == some slot && r.got.isNone && !r.failed)))

/-- R237, R238: an old slot retires to the free list, at once or when its last reference ends. -/
def State.retireSlot (s : State) (t : Table) (slot : Nat) : State :=
  if s.slotReferenced t.k slot then
    { s with skein := { s.skein with retiring := s.skein.retiring ++ [(t.k, slot)] } }
  else s.pushSlot t slot

/-- R238: the slots whose last reference has ended join their free lists. -/
def State.retireNow (s : State) : State :=
  let ready := s.skein.retiring.filter (fun p => !s.slotReferenced p.1 p.2)
  if ready.isEmpty then s else
  let s := { s with skein := { s.skein with retiring := s.skein.retiring.filter (fun p => s.slotReferenced p.1 p.2) } }
  ready.foldl (fun s p => s.pushSlot (s.tableWords p.1) p.2) s

/-- R238: slots retire once the ring of their table is within reach (R249). -/
def State.retireSlots (s : State) : State := (s.attempt State.retireNow).1

/-- R237: the next REVISION. -/
def nextRevision (r : Nat) : Nat := if r == 0xFFFFFFFF then 1 else r + 1

/-- R237: the pointer of a row is turned to another slot; the old slot retires. -/
def State.flipPointer (s : State) (t : Table) (p slot : Nat) : State :=
  let old := s.loomHalf (t.pointerAddr p)
  let s := old.1.loomWrite 8 (t.pointerAddr p) (toLe 4 slot)
  if old.2 == absentSlot then s else s.retireSlot t old.2

/-- R237: flip: the pointer turns and REVISION increases. -/
def State.flip (s : State) (t : Table) (p slot : Nat) : State :=
  (s.flipPointer t p slot).set (ST_TABLE.REVISION t.k) (nextRevision (s.get (ST_TABLE.REVISION t.k)))

/-- R239: hold a flip of a PASS-mode table; a second hold of a row returns the first slot. -/
def State.holdFlip (s : State) (t : Table) (p slot : Nat) : State :=
  match s.skein.flips.find? (fun f => f.table == t.k && f.row == p) with
  | some f =>
    let fs := s.skein.flips.map (fun g => if g.table == t.k && g.row == p then { g with slot := slot } else g)
    let s := { s with skein := { s.skein with flips := fs } }
    if f.slot == absentSlot then s else s.pushSlot t f.slot
  | none => { s with skein := { s.skein with flips := s.skein.flips ++ [⟨t.k, p, slot⟩] } }

/-- R239: the held flips are applied in the order held; REVISION of each table increases once. -/
def State.applyFlips (s : State) : State :=
  let fs := s.skein.flips
  let s := { s with skein := { s.skein with flips := [] } }
  let s := fs.foldl (fun s f => s.flipPointer (s.tableWords f.table) f.row f.slot) s
  (sortNub (fs.map (·.table))).foldl (fun s k =>
    s.set (ST_TABLE.REVISION k) (nextRevision (s.get (ST_TABLE.REVISION k)))) s

/-- R237, R239: carry a replacement on: it waits, with BUSY, for a free slot or a hold place. -/
def State.replaceNow (s : State) : State :=
  match s.skein.replacing with
  | none => s
  | some (k, p, src, clear) =>
    let t := s.tableWords k
    if t.passMode && 4096 ≤ s.skein.flips.length then s
    else
      let took : Option (State × Nat) :=
        if clear then some (s, absentSlot)
        else
          let q := s.popSlot t
          match q.2 with
          | none => none
          | some slot =>
            let r := q.1.loomReadOpen 8 src t.slotBytes
            some (r.1.loomWrite 8 (t.slotAddr slot) r.2, slot)
      match took with
      | none => s.set ST_STATUS.FREE_EMPTY 1
      | some (s, slot) =>
        let s := if t.passMode then s.holdFlip t p slot else s.flip t p slot
        let s := { s with skein := { s.skein with replacing := none } }
        ((s.set ST_REPLACE_CMD.GO 0).set ST_REPLACE_CMD.BUSY 0).set ST_REPLACE_CMD.STATUS 0

/-- R237, R249: a replacement goes on once what it reads is in Beam. -/
def State.runReplacement (s : State) : State := (s.attempt State.replaceNow).1

/-! ## Prefetch sets (R260 to R264) -/

/-- R261: the slices of an AUTO mask for an adapter. -/
def State.autoSlices (s : State) (a : Nat) : List Nat :=
  let pol := (s.dir? a).map Dir.policy
  if pol == some 1 then List.range 8
  else
    let rev := mapGet [] s.skein.revHarness a
    let last := mapGet [] s.skein.lastHarness a
    if !rev.isEmpty then sortNub rev
    else if !last.isEmpty then sortNub last
    else [s.standIn (a % 8)]

/-- An extent of a set, resolved, with its tiles' owner. -/
structure Extent where
  ext : PinExt
  owner : FillOwner
  deriving DecidableEq, Repr

/-- R261: resolve an extent from its two words. -/
def State.resolveExtent (s : State) (w0 w1 : W64) : State × Option Extent :=
  let x := w0.toNat
  let y := w1.toNat
  let a := bitsOf y 63 48
  let hm := bitsOf x 59 52
  if bitOf x 63 then
    let s := s.reachDir a
    match s.dir? a with
    | none => (s, none)
    | some d =>
      let l := bitsOf y 41 32
      let r := s.runOf a d.current l
      match r.2 with
      | none => (r.1, none)
      | some run =>
        (r.1, some ⟨⟨run.addr / tileBytes, run.tiles, if hm == 0 then maskOf (r.1.autoSlices a) else hm,
          some (a, l)⟩, .key a⟩)
  else
    let owned := bitOf x 62
    let s := if owned && hm == 0 then s.reachDir a else s
    (s, some ⟨⟨bitsOf x 51 0 / tileBytes, bitsOf y 31 0,
      if hm != 0 then hm else if owned then maskOf (s.autoSlices a) else 1, none⟩,
      if owned then .key a else .none⟩)

/-- The tiles of an extent, and its pages. -/
def PinExt.tileList (e : PinExt) : List Nat := (List.range e.count).map (· + e.first)
/-- The pages of an extent. -/
def PinExt.pages (e : PinExt) : List Nat := sortNub (e.tileList.map (· / 64))
/-- R257: the (tile, slice) pairs of an extent. -/
def PinExt.pairs (e : PinExt) : List (Nat × Nat) :=
  e.tileList.flatMap (fun t => (setBits 8 e.mask).map (fun h => (t, h)))

/-- Mark the frames that hold pairs as pinned by set k, or no longer. -/
def State.markFrames (s : State) (k : Nat) (pairs : List (Nat × Nat)) (on : Bool) : State :=
  let sl := s.tiers.slices.mapIdx (fun h m => m.map (fun f =>
    if pairs.contains (f.2.tile, h) then
      (f.1, { f.2 with sets := if on then insertSorted k f.2.sets else f.2.sets.filter (· != k) }) else f))
  { s with tiers := { s.tiers with slices := sl } }

/-- R262: the fills of resolved extents in ascending address, then slice; a tile already whole in a slice needs none. With
a set, its pins take hold as the fills are queued. A tile of several extents has the owner of the first. -/
def State.fillExtents (s : State) (es : List Extent) (set : Option Nat) : State :=
  let all := es.flatMap (fun e => e.ext.pairs.map (fun p => (p, e.owner)))
  let order := sortBy (fun a b => decide (a.1.1 < b.1.1) || (a.1.1 == b.1.1 && decide (a.1.2 < b.1.2))) all
  let s := order.foldl (fun s p =>
    if s.sliceReady p.1.2 p.1.1 allSectors then s
    else s.queueFill { tile := p.1.1, slice := some p.1.2, demand := false, sets := set.toList, owner := p.2,
                       sectors := allSectors }) s
  match set with
  | none => s
  | some k => s.markFrames k (all.map (·.1)) true

/-- Raise or lower the pin count of pages. -/
def State.pinPageList (s : State) (pages : List Nat) (up : Bool) : State :=
  pages.foldl (fun s p => s.modPage p (fun q => { q with pins := if up then q.pins + 1 else q.pins - 1 })) s

/-- R262: record extents in the pin list of a set; each page is pinned once. -/
def State.pinExtents (s : State) (k : Nat) (es : List PinExt) : State :=
  let old := mapGet {} s.tiers.sets k
  let had := old.exts.flatMap PinExt.pages
  let new := (sortNub (es.flatMap PinExt.pages)).filter (fun p => !had.contains p)
  let ps : PinSet := { exts := old.exts ++ es, tiles := old.tiles ++ es.flatMap PinExt.pairs }
  let s := { s with tiers := { s.tiers with sets := mapIns s.tiers.sets k ps } }
  s.pinPageList new true

/-- R260: the extents of set k, resolved in list order. -/
def State.setExtents (s : State) (k : Nat) : State × List Extent :=
  if !s.flag TM_SET_BASE.VALID then (s, []) else
  let d := s.loomReadOpen 7 (s.get TM_SET_BASE.BASE * 2 ^ 21 + 16 * k) 16
  let list := leNat (d.2.take 8) % 2 ^ 52 / 16 * 16
  let n := leNat ((d.2.drop 8).take 2)
  (List.range n).foldl (fun a i =>
    let e := a.1.loomReadOpen 7 (list + 16 * i) 16
    let r := e.1.resolveExtent (BitVec.ofNat 64 (leNat (e.2.take 8))) (BitVec.ofNat 64 (leNat (e.2.drop 8)))
    (r.1, a.2 ++ r.2.toList)) (d.1, [])

/-- Is set k pinned? -/
def State.setPinned (s : State) (k : Nat) : Bool := (mapFind s.tiers.sets k).isSome

/-- R262: PREFETCH_SET. A set that is pinned takes no further effect. -/
def State.prefetchSet (s : State) (k : Nat) (pin : Bool) : State :=
  if s.setPinned k then s else
  let r := s.setExtents k
  let set := if pin then some k else none
  let s := if pin then r.1.pinExtents k (r.2.map (·.ext)) else r.1
  s.fillExtents r.2 set

/-- R262: RELEASE_SET: the pins of the set's pin list go; the tiles stay resident. -/
def State.releaseSet (s : State) (k : Nat) : State :=
  match mapFind s.tiers.sets k with
  | none => s
  | some ps =>
    let s := (s.pinPageList (sortNub (ps.exts.flatMap PinExt.pages)) false).markFrames k ps.tiles false
    let fs := s.tiers.fills.map (fun f => { f with sets := f.sets.filter (· != k) })
    { s with tiers := { s.tiers with sets := mapDel s.tiers.sets k, fills := fs } }

/-- R264: the SKEIN extents of an adapter in a pinned set are resolved again: the set's pins on the former runs go, and the new
runs are fetched and pinned in the same slices. -/
def State.reresolveSet (s : State) (k a : Nat) : State :=
  match mapFind s.tiers.sets k with
  | none => s
  | some ps =>
    let mine := fun (e : PinExt) => e.skein.any (fun q => q.1 == a)
    let es := (ps.exts.filter mine).foldl (fun (a : State × List Extent) e =>
      let q := e.skein.getD (0, 0)
      let st := a.1.reachDir q.1
      match st.dir? q.1 with
      | none => (st, a.2)
      | some d =>
        let r := st.runOf q.1 d.current q.2
        match r.2 with
        | none => (r.1, a.2)
        | some run => (r.1, a.2 ++ [⟨⟨run.addr / tileBytes, run.tiles, e.mask, some q⟩, .key q.1⟩])) (s, [])
    let fixed := ps.exts.filter (fun e => !mine e)
    let stays := fixed.flatMap PinExt.pairs
    let gone := ((ps.exts.filter mine).flatMap PinExt.pairs).filter (fun p => !stays.contains p)
    let s := es.1.pinPageList ((sortNub (ps.exts.flatMap PinExt.pages)).filter (fun p =>
      !(fixed.flatMap PinExt.pages).contains p)) false
    let s := s.markFrames k gone false
    let kept : PinSet := { exts := fixed, tiles := ps.tiles.filter (fun t => !gone.contains t) }
    let s := { s with tiers := { s.tiers with sets := mapIns s.tiers.sets k kept } }
    (s.pinExtents k (es.2.map (·.ext))).fillExtents es.2 (some k)

end Sys2Proof.Machine
end

