-- ==== Sys2Proof/Machine/Operands.lean ====
section
/-! DEFINITION. Operands: the elements of a row payload (R67), the layout of a layer's run (R114 to R117), the tiles a
matrix lies in, its elements as a Bobbin slice gives them (R118 to R120), and the dot product of a reed slot (R138). -/

namespace Sys2Proof.Machine

/-! ## Row payloads (R67, Table 3.4, R435) -/

/-- Table 3.4, with d/2 and d/32 rounded up (R435). -/
def payloadLen (f : EFmt) (d : Nat) : Nat :=
  match f with
  | .bf16 | .fp16 => 2 * d
  | .e4m3 | .e5m2 | .int8 => d
  | .mxfp8 => d + ceilDiv d 32
  | .mxfp4 => ceilDiv d 2 + ceilDiv d 32

/-- R435: a payload as its record carries it, padded to a multiple of 16 B. -/
def payloadPadded (f : EFmt) (d : Nat) : Nat := ceilDiv (payloadLen f d) 16 * 16

/-- The code of element i of a bit string packed as R115 packs stripes. -/
def codeAt (f : EFmt) (bytes : List Byte) (i : Nat) : Nat :=
  match f.bits with
  | 16 => (bytes.getD (2 * i) 0).toNat + 256 * (bytes.getD (2 * i + 1) 0).toNat
  | 4 => bitsOf (bytes.getD (i / 2) 0).toNat (4 * (i % 2) + 3) (4 * (i % 2))
  | _ => (bytes.getD i 0).toNat

/-- An element with its block scale, where the format has one (R136, R137). -/
def elemOf (f : EFmt) (code scale : Nat) : Elem :=
  if f.isMx then ⟨scaleBy (f.elem code) scale, scale == 255⟩ else ⟨f.elem code, false⟩

/-- R67: element i of a row payload of width d. The E8M0 scale byte of an MX block follows the block's last element
byte. -/
def rowElem (f : EFmt) (bytes : List Byte) (i : Nat) : Elem :=
  if f.isMx then
    let blk := 32 * f.bits / 8 + 1
    let b := (bytes.drop (i / 32 * blk)).take blk
    elemOf f (codeAt f b (i % 32)) (b.getD (blk - 1) 0).toNat
  else elemOf f (codeAt f bytes i) 0

/-- A BF16 value of the row stage or of a stash. -/
def bf16Elem (bytes : List Byte) (i : Nat) : Elem := elemOf .bf16 (codeAt .bf16 bytes i) 0

/-- R166: an element of a payload brought to FP32. -/
def rowF32 (f : EFmt) (bytes : List Byte) (i : Nat) : F32 := toF32 (rowElem f bytes i).v

/-! ## Stored matrices (R114 to R117) -/

/-- A stored matrix W of K rows and N columns: where its stripes and its scales begin in the Loom range. -/
structure Mat where
  addr : Nat
  scales : Nat
  k : Nat
  n : Nat
  fmt : EFmt
  deriving DecidableEq, Repr

/-- Bytes of a matrix's stripes. -/
def matBytes (f : EFmt) (k n : Nat) : Nat := k * n * f.bits / 8

/-- Bytes of a matrix's scale area. -/
def matScales (f : EFmt) (k n : Nat) : Nat := if f.isMx then k * n / 32 else 0

/-- R116: the matrices of a layer's run in run order: projection, A or B, K and N. -/
def runMats (shape : Nat → Option (Nat × Nat)) (d : Dir) : List (Nat × Bool × Nat × Nat) :=
  (setBits 16 d.projMask).flatMap (fun p =>
    match shape p with
    | some (din, dout) => [(p, false, din, d.rank), (p, true, d.rank, dout)]
    | none => [])

/-- R116: bytes of a layer's run before the fill of its last tile. -/
def runLength (shape : Nat → Option (Nat × Nat)) (d : Dir) : Nat :=
  ((runMats shape d).map (fun m => matBytes d.fmt m.2.2.1 m.2.2.2 + matScales d.fmt m.2.2.1 m.2.2.2)).sum

/-- R116: matrix A (or B) of projection p in a run. -/
def matOf (shape : Nat → Option (Nat × Nat)) (d : Dir) (run : Run) (p : Nat) (isB : Bool) : Option Mat :=
  let ms := runMats shape d
  let data := (ms.map (fun m => matBytes d.fmt m.2.2.1 m.2.2.2)).sum
  let before := ms.takeWhile (fun m => !(m.1 == p && m.2.1 == isB))
  match ms.find? (fun m => m.1 == p && m.2.1 == isB) with
  | none => none
  | some m =>
    some ⟨run.addr + (before.map (fun m => matBytes d.fmt m.2.2.1 m.2.2.2)).sum,
          run.addr + data + (before.map (fun m => matScales d.fmt m.2.2.1 m.2.2.2)).sum, m.2.2.1, m.2.2.2, d.fmt⟩

/-- Length of K-tile kt of a matrix. -/
def Mat.len (m : Mat) (kt : Nat) : Nat := min m.fmt.perBank (m.k - kt * m.fmt.perBank)

/-- R114, R115: the bit at which element (k, n) begins, from the matrix's first byte. -/
def Mat.bitOff (m : Mat) (k n : Nat) : Nat :=
  let kt := k / m.fmt.perBank
  (kt * m.n * m.fmt.perBank + n * m.len kt + k % m.fmt.perBank) * m.fmt.bits

/-- The Loom address of the byte that holds the first bit of element (k, n). -/
def Mat.elemAddr (m : Mat) (k n : Nat) : Nat := m.addr + m.bitOff k n / 8

/-- R117: the number of the block of element (k, n). -/
def Mat.block (m : Mat) (k n : Nat) : Nat :=
  let kt := k / m.fmt.perBank
  let i := k % m.fmt.perBank
  if m.k % 32 == 0 then kt * m.n * (m.fmt.perBank / 32) + n * (m.len kt / 32) + i / 32
  else kt * (m.n / 32) * m.fmt.perBank + n / 32 * m.len kt + i

/-- The Loom address of the scale of element (k, n). -/
def Mat.scaleAddr (m : Mat) (k n : Nat) : Nat := m.scales + m.block k n

/-- The tiles that K indices [lo, hi) of column n lie in, scales included. -/
def Mat.colTiles (m : Mat) (lo hi n : Nat) : List Nat :=
  if hi ≤ lo then [] else
  (List.range ((hi - 1) / m.fmt.perBank - lo / m.fmt.perBank + 1)).flatMap (fun i =>
    let kt := lo / m.fmt.perBank + i
    let a := max lo (kt * m.fmt.perBank)
    let b := min (hi - 1) (kt * m.fmt.perBank + m.fmt.perBank - 1)
    let sc := if m.fmt.isMx then [m.scaleAddr a n / tileBytes, m.scaleAddr b n / tileBytes] else []
    [m.elemAddr a n / tileBytes, (m.addr + (m.bitOff b n + m.fmt.bits - 1) / 8) / tileBytes] ++ sc)

/-- Every tile of a matrix, scales included. -/
def Mat.allTiles (m : Mat) : List Nat :=
  sortNub (tilesOf m.addr (matBytes m.fmt m.k m.n) ++ tilesOf m.scales (matScales m.fmt m.k m.n))

/-- R204, R117: element e of a matrix in update order: its k and n. -/
def Mat.updElem (m : Mat) (e : Nat) : Nat × Nat :=
  let full := m.fmt.perBank * m.n
  let kt := e / full
  let r := e % full
  let len := m.len kt
  if m.fmt.isMx && m.k % 32 != 0 then
    let b := r / 32
    (kt * m.fmt.perBank + b % max 1 len, b / max 1 len * 32 + r % 32)
  else (kt * m.fmt.perBank + r % max 1 len, r / max 1 len)

/-- The place of element (k, n) in update order. -/
def Mat.updIndex (m : Mat) (k n : Nat) : Nat :=
  let kt := k / m.fmt.perBank
  let i := k % m.fmt.perBank
  kt * m.fmt.perBank * m.n +
    (if m.fmt.isMx && m.k % 32 != 0 then (n / 32 * m.len kt + i) * 32 + n % 32 else n * m.len kt + i)

/-! ## Reading from a slice (R118 to R120) -/

/-- `n` bytes at a Loom address as slice h holds them. -/
def State.sliceBytes (s : State) (h addr n : Nat) : List Byte :=
  (splitTiles addr (List.replicate n 0)).flatMap (fun p =>
    match s.frameOf h (p.1 / tileBytes) with
    | some f => getRun f.2.data p.1 p.2.length
    | none => p.2)

/-- R118: the code of element (k, n) of a matrix as slice h holds it. -/
def State.matCode (s : State) (h : Nat) (m : Mat) (k n : Nat) : Nat :=
  let b := s.sliceBytes h (m.elemAddr k n) 2
  match m.fmt.bits with
    | 16 => leNat b
    | 4 => bitsOf (b.headD 0).toNat (m.bitOff k n % 8 + 3) (m.bitOff k n % 8)
    | _ => (b.headD 0).toNat

/-- R117: the scale code of element (k, n), 0 where the format has none. -/
def State.matScale (s : State) (h : Nat) (m : Mat) (k n : Nat) : Nat :=
  if m.fmt.isMx then leNat (s.sliceBytes h (m.scaleAddr k n) 1) else 0

/-- An operand over one index: the format it is delivered in, its codes and scales, the saturations of an other-axis read
(R154), and the elements of one block scale as it travels: 32, or 1 where each element has a scale of its own (R117). -/
structure Operand where
  fmt : EFmt
  code : Nat → Nat
  scale : Nat → Nat
  sat : Nat → Bool := fun _ => false
  span : Nat := 32

/-- R136, R137: the element that a lane multiplies. -/
def Operand.elem (o : Operand) (i : Nat) : Elem := elemOf o.fmt (o.code i) (o.scale i)

/-- R117: elements of a column of a matrix under one block scale: 32, or 1 where blocks lie across 32 columns. -/
def Mat.span (m : Mat) : Nat := if m.k % 32 == 0 then 32 else 1

/-- R118: column n of a stored matrix over K. -/
def State.columnOf (s : State) (h : Nat) (m : Mat) (n : Nat) : Operand :=
  { fmt := m.fmt, code := fun k => s.matCode h m k n, scale := fun k => s.matScale h m k n, span := m.span }

/-- R119, R120: row k of a stored matrix over its columns: an MX element times its scale, in BF16. -/
def State.otherAxisOf (s : State) (h : Nat) (m : Mat) (k : Nat) : Operand :=
  if m.fmt.isMx then
    let c := fun n => otherAxisBf16 (elemOf m.fmt (s.matCode h m k n) (s.matScale h m k n)).v
    { fmt := .bf16, code := fun n => (c n).bits, scale := fun _ => 0, sat := fun n => (c n).sat }
  else { fmt := m.fmt, code := fun n => s.matCode h m k n, scale := fun n => s.matScale h m k n }

/-- R67: a row payload over its elements. -/
def rowOperand (f : EFmt) (bytes : List Byte) : Operand :=
  let blk := 32 * f.bits / 8 + 1
  if f.isMx then
    { fmt := f, code := fun i => codeAt f ((bytes.drop (i / 32 * blk)).take blk) (i % 32),
      scale := fun i => (bytes.getD (i / 32 * blk + blk - 1) 0).toNat }
  else { fmt := f, code := codeAt f bytes, scale := fun _ => 0 }

/-- BF16 values of the row stage or of a stash. -/
def bf16Operand (bytes : List Byte) : Operand := { fmt := .bf16, code := codeAt .bf16 bytes, scale := fun _ => 0 }

/-- R104: one column of several rows' operands, over the rows. -/
def overRows (f : EFmt) (rows : List Operand) (col : Nat) : Operand :=
  let r := fun i => rows.getD i (bf16Operand [])
  { fmt := f, code := fun i => (r i).code col, scale := fun i => (r i).scale col, span := 1 }

/-! ## One reed slot over a block (R138 to R142, R98) -/

/-- R138: one slot over the cycles of a pass, `n` the number of the first: its value after them, and its events with the
cycles they fall in. -/
def runSlot (isInt : Bool) : Nat → Slot → List (List (Elem × Elem)) → Slot × List (Nat × SlotEvent)
  | _, s, [] => (s, [])
  | n, s, c :: t =>
    let r := if isInt then slotMacInt s c else slotMac s c
    let q := runSlot isInt (n + 1) r.1 t
    (q.1, match r.2 with | some e => (n, e) :: q.2 | none => q.2)

/-- R98, R138: a slot over one pass: the elements of a K-tile, m a cycle. -/
def passSlot (isInt : Bool) (m : Nat) (s : Slot) (pairs : List (Elem × Elem)) : Slot × List (Nat × SlotEvent) :=
  runSlot isInt 0 s (groupsOf (max 1 m) pairs)

/-- R98: ACLK cycles of a pass over `len` elements at pair rate m. -/
def passLen (len m : Nat) : Nat := max (ceilDiv len (max 1 m)) 8

end Sys2Proof.Machine
end

