-- ==== Sys2Proof/Machine/Flags.lean ====
section
/-! DEFINITION. Flags and statuses: the fields of a bolt descriptor (Table 3.3) and of row metadata (Table 3.5), the
completion status and its record (R76 to R78), the output metadata (R71), the SAT and NAN logs (R143), the interrupt
lines (R80, R343), ENGINE_READY (Table 15.8). -/

namespace Sys2Proof.Machine

/-! ## Bolt descriptors (Table 3.3) -/

/-- Bits of word i of a descriptor. -/
def dBits (d : List W64) (i hi lo : Nat) : Nat := bitsOf (d.getD i 0).toNat hi lo
/-- Table 3.3. -/
def dOutFmt (d : List W64) : Nat := dBits d 0 63 60
/-- Table 3.3. -/
def dInFmt (d : List W64) : Nat := dBits d 0 59 56
/-- Table 3.3. -/
def dRowCount (d : List W64) : Nat := dBits d 0 52 32
/-- Table 3.3. -/
def dBoltId (d : List W64) : Nat := dBits d 0 31 0
/-- Table 3.3. -/
def dAngle (d : List W64) : W64 := d.getD 1 0
/-- Table 3.3. -/
def dSprintOk (d : List W64) : Bool := dBits d 2 48 48 == 1
/-- Table 3.3. -/
def dDin (d : List W64) : Nat := dBits d 2 31 16
/-- Table 3.3. -/
def dProjMask (d : List W64) : Nat := dBits d 2 15 0
/-- The projections of PROJ_MASK, ascending. -/
def dProjs (d : List W64) : List Nat := setBits 16 (dProjMask d)
/-- Table 3.3: the D_OUT entry of a projection of the mask. -/
def dDout (d : List W64) (p : Nat) : Nat :=
  let i := ((dProjs d).takeWhile (· != p)).length
  dBits d 3 (16 * i + 15) (16 * i)
/-- Table 3.3. -/
def dOrderTarget (d : List W64) : Nat := dBits d 4 23 8
/-- Table 3.3. -/
def dOrderAction (d : List W64) : Nat := dBits d 4 7 0
/-- Table 3.3. -/
def dOrderArgument (d : List W64) : W64 := d.getD 5 0
/-- Table 3.3. -/
def dParts (d : List W64) : Nat := dBits d 6 45 42
/-- Table 3.3. -/
def dPartRows (d : List W64) : Nat := dBits d 6 41 21
/-- Table 3.3. -/
def dFirstRow (d : List W64) : Nat := dBits d 6 20 0
/-- R192: a backward bolt. -/
def dBackward (d : List W64) : Bool := anglePass (dAngle d) == 1
/-- The row format; BF16 for a reserved code, which R63 refuses. -/
def dFmt (d : List W64) : EFmt := (EFmt.ofCode (dInFmt d)).getD .bf16

/-- Table 3.3: the bits of word i of a descriptor that are not reserved. -/
def descMask (i : Nat) : Nat :=
  match i with
  | 0 => 2 ^ 64 - 2 ^ 56 + 2 ^ 53 - 1
  | 2 => 2 ^ 48 + 2 ^ 32 - 1
  | 4 => 2 ^ 24 - 1
  | 6 => 2 ^ 46 - 1
  | 7 => 0
  | _ => 2 ^ 64 - 1

/-- R9: a descriptor as the engine produces it: its reserved bits are zero. -/
def cleanDesc (d : List W64) : List W64 := (List.range 8).map (fun i => d.getD i 0 &&& BitVec.ofNat 64 (descMask i))

/-- R63: does the engine refuse the bolt by its descriptor? -/
def badDescriptor (d : List W64) : Bool :=
  let w := fun x => x == 0 || decide (32768 < x) || x % 32 != 0
  let a := dAngle d
  1 < dOutFmt d || 6 < dInFmt d || 1048576 < dRowCount d || dParts d == 0 || 8 < dParts d ||
    (dProjs d).isEmpty || 4 < (dProjs d).length || (dProjs d).headD 0 != angleProj a || w (dDin d) ||
    (dProjs d).any (fun p => w (dDout d p)) || anglePhase a == 0 || 1 < anglePass a ||
    (anglePhase a == 1 && anglePass a != 0) || anglePhase a == 3

/-! ## Row metadata (Table 3.5) -/

/-- Table 3.5: EMBED. -/
def Row.embed (r : Row) : Bool := bitOf r.meta0.toNat 63
/-- Table 3.5: GRAD. -/
def Row.grad (r : Row) : Bool := bitOf r.meta0.toNat 62
/-- Table 3.5: SPRINT. -/
def Row.sprint (r : Row) : Bool := bitOf r.meta0.toNat 61
/-- Table 3.5: MASK. -/
def Row.mask (r : Row) : Bool := bitOf r.meta0.toNat 60
/-- Table 3.5: TENANT. -/
def Row.tenant (r : Row) : Nat := bitsOf r.meta0.toNat 59 48
/-- Table 3.5: ADAPTER. -/
def Row.adapter (r : Row) : Nat := bitsOf r.meta0.toNat 47 32
/-- Table 3.5: REQUEST. -/
def Row.request (r : Row) : Nat := bitsOf r.meta0.toNat 31 0
/-- Table 3.5: ROW_SCALE. -/
def Row.scale (r : Row) : F32 := BitVec.ofNat 32 (bitsOf r.meta1.toNat 55 24)
/-- Table 3.5: POSITION. -/
def Row.position (r : Row) : Nat := bitsOf r.meta1.toNat 23 0

/-! ## Records (R71, R76 to R78) -/

/-- Table 3.7: output metadata. -/
def outMeta (row proj : Nat) (data sprint replayed nan sat : Bool) (status version : Nat) : W64 :=
  let b := fun (x : Bool) (n : Nat) => if x then 2 ^ n else 0
  BitVec.ofNat 64 (row * 2 ^ 44 + proj * 2 ^ 40 + b data 39 + b sprint 38 + b replayed 37 + b nan 36 + b sat 35 +
    status * 2 ^ 32 + version)

/-- The results of a bolt with a row status that have landed. -/
def Bolt.count (b : Bolt) (p : Nat → Bool) : Nat := (b.results.filter (fun r => r.emitted && p r.status)).length

/-- The bolt's refusal or stop code of ranks 2 to 5. -/
def Bolt.refusal (b : Bolt) : Option Nat := if b.stopped then some 0x70 else b.refused

/-- Was any row replayed? -/
def Bolt.replayed (b : Bolt) : Bool := b.results.any (·.replayed)

/-- R78, Table 3.11: STATUS, the code ranked first; of the two tier codes R277 and R294 fix which one a bolt takes: TIER_TIMEOUT
where a timeout caused any of its TIER_FAILED results. -/
def Bolt.status (b : Bolt) : Nat :=
  if b.internal then 0x7F
  else match b.refusal with
    | some c => c
    | none =>
      if b.tierTimeout then 0x20
      else if b.tierError then 0x21
      else if b.coreRetired then 0x40
      else if b.partialLoss then 0x01
      else if b.orderLost then 0x50
      else if b.nanSeen then 0x31
      else if b.satSeen then 0x30
      else if b.results.any (·.status == 3) then 0x10
      else if b.results.any (·.status == 2) then 0x11
      else if b.replayed then 0x02
      else 0x00

/-- R77: the dominant cause and its cycles. -/
def Bolt.cause (b : Bolt) : Nat × Nat :=
  (b.stalls.mapIdx (fun i n => (i, n))).foldl (fun best x => if best.2 < x.2 then x else best) (0, 0)

/-- The versions applied. -/
def Bolt.versions (b : Bolt) : List Nat := (b.results.filter (fun r => r.emitted && r.status == 0)).map (·.version)

/-- Table 3.9: EMPTY: no unmasked row, or an EMPTY event. -/
def Bolt.empty (b : Bolt) : Bool := b.emptySeen || (b.refused.isNone && !b.unmasked)

/-- R76, Table 3.9: the completion record's four words. -/
def Bolt.completion (b : Bolt) : List W64 :=
  let f := fun (x : Bool) (n : Nat) => if x then 2 ^ n else 0
  let applied := b.count (· == 0)
  let stall := min b.cause.2 (2 ^ 32 - 1)
  [BitVec.ofNat 64 ((if stall == 0 then 0 else b.cause.1) * 2 ^ 52 + b.winner * 2 ^ 48 + f b.sprint 46 + f b.orderLost 45 +
     f (b.results.any (·.status == 3)) 44 + f b.empty 43 + f b.nanSeen 42 + f b.satSeen 41 + f b.replayed 40 +
     b.status * 2 ^ 32 + b.id),
   BitVec.ofNat 64 (b.count (· == 1) * 2 ^ 32 + applied),
   BitVec.ofNat 64 (stall * 2 ^ 32 + b.count (fun x => x == 2 || x == 3)),
   BitVec.ofNat 64 ((if applied == 0 then 0 else b.versions.foldl max 0) * 2 ^ 32 +
     (if applied == 0 then 0xFFFFFFFF else b.versions.foldl min 0xFFFFFFFF))]

/-- R73: the header of a run. -/
def runHeader (records kind bolt : Nat) : List W64 :=
  [BitVec.ofNat 64 (records * 2 ^ 36 + kind * 2 ^ 32 + bolt), 0]

/-! ## SAT and NAN events of the reed file and the network (R140, R142, R143) -/

/-- RN_SAT_LOG takes the first saturation. -/
def State.logSat (s : State) (source h c tile pick : Nat) : State :=
  if s.flag RN_SAT_LOG.VALID then s else
  (((((s.set RN_SAT_LOG.VALID 1).set RN_SAT_LOG.SOURCE source).set RN_SAT_LOG.HARNESS h).set RN_SAT_LOG.CORE c).set
    RN_SAT_LOG.TILE tile).set RN_SAT_LOG.PICK_ID pick

/-- RN_NAN_LOG takes the first NaN. -/
def State.logNan (s : State) (source h c tile pick : Nat) : State :=
  if s.flag RN_NAN_LOG.VALID then s else
  (((((s.set RN_NAN_LOG.VALID 1).set RN_NAN_LOG.SOURCE source).set RN_NAN_LOG.HARNESS h).set RN_NAN_LOG.CORE c).set
    RN_NAN_LOG.TILE tile).set RN_NAN_LOG.PICK_ID pick

/-! ## The engine's outputs -/

/-- Table 15.8: ENGINE_READY. -/
def State.engineReady (s : State) : Bool := s.boot.stage == .up && s.pm.st != .off && !s.cust.engineFailed

/-- R80: the level of ZQ_IRQ_DONE. -/
def State.irqDone (s : State) : Bool :=
  let n := s.get WP_CPL_PENDING.COUNT
  s.flag WP_IRQ_CTRL.ENABLE && n != 0 &&
    (decide (max 1 (s.get WP_IRQ_CTRL.THRESHOLD) ≤ n) || s.weft.holdoffHit || s.get WP_IRQ_CTRL.HOLDOFF_US == 0)

/-- R343: the level of ZQ_IRQ_FAULT. -/
def State.irqFault (s : State) : Bool :=
  s.cust.engineFailed || (s.flag CU_CTRL.IRQ_ENABLE && s.get CU_FAULT_PTR.HEAD != s.get CU_FAULT_PTR.TAIL)

/-- The level of ZQ_IRQ_TIER: any enabled bit of TM_IRQ_STATUS. -/
def State.irqTier (s : State) : Bool :=
  bitsOf (s.word TM_IRQ_STATUS.RO_WRITE.off).toNat 5 0 &&& s.get TM_IRQ_ENABLE.ENABLE != 0

/-- R337: the level of ZQ_IRQ_SEC: any enabled bit of SS_IRQ_STATUS. -/
def State.irqSec (s : State) : Bool :=
  bitsOf (s.word SS_IRQ_STATUS.MISMATCH.off).toNat 5 0 &&& s.get SS_IRQ_ENABLE.ENABLE != 0

end Sys2Proof.Machine
end

