-- ==== Sys2Proof/Machine/WeftOps.lean ====
section
/-! DEFINITION. The Weft port's operations: the replay buffers (R58, R74, R435), the tests of a bolt (R61, R64, R65),
refusal and stopping (R78), records on their way out (R71, R72, R288), lost results (R348), and when a bolt
has all its results (R79). -/

namespace Sys2Proof.Machine

/-! ## Replay buffers (R58, R74) -/

/-- R435: bytes of a row record of a bolt. -/
def recordBytes (d : List W64) : Nat := 16 + payloadPadded (dFmt d) (dDin d)

/-- Bytes of the replay buffer of Harness h in use. The rows of a remote bolt lie elsewhere. -/
def State.occupancy (s : State) (h : Nat) : Nat :=
  (s.weft.bolts.map (fun b => if b.remote.isSome then 0 else
    (b.rows.filter (fun r => r.held && r.link == h)).length * recordBytes b.desc)).sum

/-- R74: a replay buffer is 4 MiB. -/
def replayBytes : Nat := 4194304

/-- R58: the margin in bytes; values below 96 KiB act as 96. -/
def State.readyMargin (s : State) : Nat := 1024 * max 96 (s.get WP_REPLAY_CTRL.READY_MARGIN)

/-- R58: the level of ZQ_WIN_READY_h. -/
def State.winReady (s : State) (h : Nat) : Bool :=
  s.engineReady && s.pm.st != .hold && (s.link h).up && decide (s.readyMargin ≤ replayBytes - s.occupancy h)

/-- R74: is the occupancy of Harness h above HIGH_WATER? -/
def State.aboveHighWater (s : State) (h : Nat) : Bool :=
  decide (s.get WP_REPLAY_CTRL.HIGH_WATER * 65536 < s.occupancy h)

/-! ## Rows and results of a bolt -/

/-- A row of a bolt by its index. -/
def Bolt.row? (b : Bolt) (i : Nat) : Option Row := b.rows.find? (·.index == i)

/-- A row of a bolt by bolt and index. -/
def State.row? (s : State) (bolt i : Nat) : Option Row := (s.bolt? bolt).bind (·.row? i)

/-- Change a row of a bolt. -/
def State.modRow (s : State) (bolt i : Nat) (f : Row → Row) : State :=
  s.modBolt bolt (fun b => { b with rows := modWhere (·.index == i) f b.rows })

/-- A result of a bolt. -/
def Bolt.result? (b : Bolt) (row proj : Nat) : Option Result :=
  b.results.find? (fun r => r.row == row && r.proj == proj)

/-- Change a result of a bolt. -/
def State.modResult (s : State) (bolt row proj : Nat) (f : Result → Result) : State :=
  s.modBolt bolt (fun b => { b with results := modWhere (fun r => r.row == row && r.proj == proj) f b.results })

/-- Has a result ended: its record left, or it never will? -/
def Result.ended (r : Result) : Bool := r.emitted || r.lost

/-! ## Tests of a bolt (R61, R64, R65) -/

/-- R64: has the angle expired? -/
def State.expired (s : State) (a : W64) : Bool :=
  s.revValid && (decide (angleRev a < s.revolution) || (angleRev a == s.revolution && anglePhase a != s.phase))

/-- R45, R64: has the sequencer accepted the angle: it lies at or behind the current ordinal of its revolution? -/
def State.accepted (s : State) (a : W64) : Bool :=
  s.revValid && angleRev a == s.revolution && anglePhase a == s.phase &&
    decide (angleOrdinal a ≤ angleOrdinal s.angle)

/-- R65: bolts in flight that count toward the 64. -/
def State.boltsInFlight (s : State) : Nat :=
  (s.weft.bolts.filter (fun b => b.remote.isNone && !b.turnedAway)).length

/-- Do two parts agree in the fields that every part shares (R61)? Reserved bits are ignored, as R9 says (log entry 106). -/
def sameDescriptor (a b : List W64) : Bool :=
  let shared := fun (d : List W64) => (List.range 8).map (fun i =>
    let w := (d.getD i 0).toNat &&& descMask i
    if i == 6 then w / 2 ^ 42 else w)
  shared a == shared b

/-- The rows lo to lo + n − 1 and those of another part have one in common. -/
def Part.overlaps (p : Part) (lo n : Nat) : Bool := decide (max lo p.first < min (lo + n) (p.first + p.count))

/-- R61: is a part faulty beside the earlier parts of its bolt? -/
def badPart (earlier : List Part) (first : List W64) (link : Nat) (d : List W64) : Bool :=
  let lo := dFirstRow d
  let n := dPartRows d
  !sameDescriptor first d || earlier.any (·.link == link) ||
    earlier.any (fun p => p.overlaps lo n) ||
    decide (dParts first ≤ earlier.length) || decide (dRowCount first < lo + n) ||
    (earlier.length + 1 == dParts first && (earlier.map (·.count)).sum + n != dRowCount first)

/-! ## Refusing and stopping (R59, R61, R63 to R65, R78) -/

/-- R78: a bolt is refused outright: its rows go from the replay buffer. -/
def State.refuseBolt (s : State) (id code : Nat) : State :=
  s.modBolt id (fun b => { b with refused := some code, rows := [], results := [] })

/-- R78: a bolt becomes BOLT_INVALID under R59 or R61: refused outright while no row is grouped, else stopped. The code of a bolt
refused with ANGLE_EXPIRED, which ranks lower, gives way. -/
def State.invalidBolt (s : State) (id : Nat) : State :=
  match s.bolt? id with
  | none => s
  | some b =>
    if b.refused == some 0x71 then s.refuseBolt id 0x70
    else if b.refused.isSome || b.stopped then s
    else if b.windows == 0 then s.refuseBolt id 0x70
    else s.modBolt id (fun b => { b with stopped := true, rows := b.rows.filter (·.grouped) })

/-! ## Records on their way out (R71, R72, R288) -/

/-- R71: the metadata of a result's record. -/
def resultMeta (b : Bolt) (r : Result) (data nan sat : Bool) : W64 :=
  outMeta r.row r.proj data b.sprint r.replayed nan sat r.status (if r.status == 0 then r.version else 0)

/-- A record leaves for the host, or, where its bolt is remote, joins the answers for the requester. -/
def State.sendRecord (s : State) (h : Nat) (e : Egress) : State :=
  match s.bolt? e.bolt with
  | none => s
  | some b =>
    if b.remote.isSome then
      (s.modBolt e.bolt (fun b => { b with answers := b.answers ++ [e] })).modResult e.bolt e.row e.proj
        (fun r => { r with emitted := true })
    else s.modLink (s.linkFor h) (fun l => { l with egress := l.egress ++ [e] })

/-- R72: does the record of a result wait on its way out already? -/
def State.recordWaits (s : State) (b : Bolt) (row proj : Nat) : Bool :=
  (b.answers ++ s.weft.links.flatMap (·.egress)).any (fun e => e.bolt == b.id && e.row == row && e.proj == proj)

/-- R71, R72: the record of a result with its data (none: metadata only) is formed in Harness h. -/
def State.answer (s : State) (h bolt row proj : Nat) (data : List Byte) (nan sat : Bool) : State :=
  match s.bolt? bolt with
  | none => s
  | some b =>
    match b.result? row proj with
    | none => s
    | some r => if r.ended || s.recordWaits b row proj then s else
      s.sendRecord h ⟨bolt, row, proj, wordBytes (resultMeta b r (!data.isEmpty) nan sat) ++ data⟩

/-! ## Results that end without a record (R78, R348) -/

/-- R348: a result is lost. -/
def State.loseResult (s : State) (bolt row proj : Nat) : State :=
  let hit := fun (r : Result) => r.row == row && r.proj == proj && !r.ended
  if (s.bolt? bolt).any (fun b => b.results.any hit) then
    (s.modBolt bolt (fun b => { b with results := modWhere hit (fun r => { r with lost := true }) b.results })).bump
      CU_LOSS_EVENTS.LOST_RESULTS
  else s

/-! ## Who still reads a row (R74, R127) -/

/-- The blocks of a row block of a pick. -/
def Pick.rowBlock (p : Pick) (row : Nat) : Nat := (p.rows.takeWhile (· != row)).length / 64

/-- Strands of a PICK_T_ROWS pick (R105): K-tiles in a strand. -/
def strandTiles (f : EFmt) : Nat := 65536 / f.perBank

/-- Strands of a pick. -/
def Pick.strands (p : Pick) : Nat := ceilDiv p.kTiles (strandTiles p.statFmt)

/-- R97, R101, R102: blocks of a pick. -/
def Pick.blocks (p : Pick) : Nat :=
  match p.kind with
  | .r | .tStored => ceilDiv p.rows.length 64 * p.outTiles
  | .w => p.outTiles
  | .tRows => p.outTiles * p.strands

/-- Has a pick still to issue a block that reads the row? -/
def Pick.unfed (p : Pick) (bolt row : Nat) : Bool :=
  p.bolt == bolt && p.rows.contains row && !p.void.contains row &&
    (match p.kind with
     | .r | .tStored => decide (p.issued < (p.rowBlock row + 1) * p.outTiles)
     | _ => decide (p.issued < p.blocks))

/-- The stage entry that a purpose reads for a row, where it reads one. -/
def Purpose.stageKind : Purpose → Option StageKind
  | .delta | .sprintUp => some .hid
  | .dHidden | .dB => some .dY
  | .dX => some .dHid
  | .hidden | .sprintDown | .dA | .proof => none

/-- R232: has the bag of a row been formed, where it is an EMBED row that forms one? -/
def Row.bagged (r : Row) : Bool := !r.embed || r.mask || r.pooled

/-- Is the payload of a row still to be fed to a gang, an element program or an exchange round (R74)? A pick that reads the row's
intermediate in the row stage does not read its payload. -/
def State.rowUnfed (s : State) (bolt row : Nat) : Bool :=
  s.heddle.picks.any (fun p => p.purpose.stageKind.isNone && p.unfed bolt row) ||
    s.heddle.harnesses.any (fun h => h.gangs.any (fun g => g.bolt == bolt && g.rows.contains row &&
        g.purposes.any (fun p => p.stageKind.isNone)) ||
      h.reqs.any (fun q => q.bolt == bolt && q.row == row)) ||
    s.spindles.any (fun v => v.jobs.any (fun j => (j.key.cls == 2 || j.key.cls == 6 || j.key.cls == 7) &&
      j.key.bolt == bolt && j.rows.contains row)) ||
    s.exch.rounds.any (fun r => r.rows.any (fun x => x.bolt == bolt && x.row == row && !x.sent)) ||
    (s.row? bolt row).any (fun r => !r.bagged)

/-- Does a pick, or a gang, still name the row in Harness h (R127)? -/
def State.rowNamed (s : State) (h bolt row : Nat) : Bool :=
  s.heddle.picks.any (fun p => p.h == h && p.bolt == bolt && p.rows.contains row && !p.committed.contains row &&
      !p.void.contains row) ||
    (s.harness h).gangs.any (fun g => g.bolt == bolt && g.rows.contains row)

/-- R74: a row leaves the replay buffer once each of its records has ended and nothing reads it any more. -/
def State.releaseRow (s : State) (bolt row : Nat) : State :=
  match s.bolt? bolt with
  | none => s
  | some b =>
    let rs := b.results.filter (·.row == row)
    if !rs.isEmpty && rs.all Result.ended && !s.rowUnfed bolt row then
      s.modRow bolt row (fun r => { r with held := false })
    else s

/-- R74: the rows of a bolt that need no place any more leave the replay buffer. -/
def State.releaseRows (s : State) (bolt : Nat) : State :=
  match s.bolt? bolt with
  | none => s
  | some b => ((b.rows.filter (·.held)).map (·.index)).foldl (fun s i => s.releaseRow bolt i) s

/-- R74: while a replay buffer stands above HIGH_WATER, its rows that have been fed to every gang that needs them leave, the
oldest bolt's first, until it does not. -/
def State.releaseFed (s : State) : State :=
  if !(List.range 8).any s.aboveHighWater then s else
  (s.weft.bolts.filter (·.remote.isNone)).foldl (fun s b =>
    (b.rows.filter (fun r => r.held && r.grouped)).foldl (fun s r =>
      if s.aboveHighWater r.link && !s.rowUnfed b.id r.index then s.modRow b.id r.index (fun r => { r with held := false })
      else s) s) s

/-! ## Completion (R76, R79) -/

/-- Has every part of the bolt arrived in full? -/
def Bolt.arrived (b : Bolt) : Bool :=
  b.parts.length == dParts b.desc && b.parts.all (fun p => p.got + p.short == p.count)

/-- Does anything of the bolt still wait or run: gangs, picks, rows at other hosts? -/
def State.boltBusy (s : State) (id : Nat) : Bool :=
  s.heddle.picks.any (·.bolt == id) || s.heddle.harnesses.any (fun h => h.turns.any (·.bolt == id)) ||
    s.exch.rounds.any (fun r => r.rows.any (·.bolt == id)) ||
    s.weft.links.any (fun l => l.egress.any (·.bolt == id))

/-- R64, R79: may the completion record go out: the bolt's angle has been accepted, every row record of the bolt has been accepted,
and no more will come? -/
def State.mayComplete (s : State) (b : Bolt) : Bool :=
  b.st == .running && (b.refused.isSome || b.internal ||
    (b.opened && (b.stopped || (b.arrived && b.rows.all (·.grouped))) && b.rows.all Row.bagged && !b.roundOpen &&
      b.results.all Result.ended && !s.boltBusy b.id))

/-- R79: the link of the completion: the one that carried the part with FIRST_ROW 0, else the first part's. -/
def State.completionLink (s : State) (b : Bolt) : Nat :=
  s.linkFor ((((b.parts.find? (·.first == 0)).or b.parts.head?).map (·.link)).getD 0)

end Sys2Proof.Machine
end

