-- ==== Sys2Proof/Machine/Picks.lean ====
section
/-! DEFINITION. Placing gangs and forming picks: place() and the copies of R110 and R111, the ranges of R109 and R124,
the picks of each gang (Tables 4.3, 4.5 and 8.2), turns (R306 to R308). -/

namespace Sys2Proof.Machine

/-! ## Gangs (R107 to R110) -/

/-- R107: segments of a gang. -/
def gangSize (rank : Nat) : Nat := ceilDiv rank 8

/-- Columns of a gang's segment: 8, or 4 of a rank-4 adapter, whose lanes 4 to 7 stay gated (R107). -/
def gangColumns (rank : Nat) : Nat := if rank < 8 then rank else 8

/-- What the picks of one purpose compute: formats, K and outputs of the whole gang. -/
structure Shape where
  stat : EFmt
  stream : EFmt
  k : Nat
  n : Nat
  deriving DecidableEq, Repr

/-- R118, R119: elements of a K-tile of a pick: the bank of STAT_FMT, or 256 in an other-axis read. -/
def kTileLen (kind : PickKind) (stat : EFmt) : Nat := if kind == .tStored then 256 else stat.perBank

/-- R120: an other-axis read of an MX matrix is in BF16. -/
def otherFmt (f : EFmt) : EFmt := if f.isMx then .bf16 else f

/-- Tables 4.5 and 8.2: formats, K range and outputs of a purpose of a gang. `n` is the number of outputs of the gang:
rank columns or output columns; for the gradient picks, the columns streamed. -/
def Gang.shape (g : Gang) : Purpose → Shape
  | .hidden | .sprintDown =>
    if g.kind == .w then ⟨g.rowFmt, g.fmt, g.din, g.rank⟩ else ⟨g.fmt, g.rowFmt, g.din, g.rank⟩
  | .delta | .sprintUp =>
    if g.kind == .w then ⟨.bf16, g.fmt, g.rank, g.dout⟩ else ⟨g.fmt, .bf16, g.rank, g.dout⟩
  | .dHidden => ⟨otherFmt g.fmt, .bf16, g.din, g.rank⟩
  | .dX => ⟨otherFmt g.fmt, .bf16, g.rank, g.dout⟩
  | .dA => ⟨.bf16, g.rowFmt, g.rows.length, g.din⟩
  | .dB => ⟨.bf16, .bf16, g.rows.length, g.din⟩
  | .proof => ⟨.bf16, .bf16, 0, 0⟩

/-- K-tiles of a purpose of a gang. -/
def Gang.kTiles (g : Gang) (p : Purpose) : Nat := ceilDiv (g.shape p).k (kTileLen g.kind (g.shape p).stat)

/-- Columns per segment of a gang that streams columns. A down projection gives each segment its 8 rank columns, an up
projection a share of the output columns; every segment of a gradient pick streams all of them. -/
def Gang.perSegment (g : Gang) (p : Purpose) : Nat :=
  match p with
  | .hidden => gangColumns g.rank
  | .dA | .dB => (g.shape p).n
  | _ => ceilDiv (g.shape p).n (gangSize g.rank)

/-- Output tiles per segment (Table 4.3). -/
def Gang.outTiles (g : Gang) (p : Purpose) : Nat :=
  match g.kind with
  | .w | .tRows => ceilDiv (g.perSegment p) 64
  | _ => ceilDiv (g.shape p).n (gangColumns g.rank * gangSize g.rank)

/-- R110: pass_len(g), a pass over a full K-tile. -/
def Gang.pass (g : Gang) (p : Purpose) : Nat :=
  let sh := g.shape p
  passLen (min sh.k (kTileLen g.kind sh.stat)) (pairRate sh.stat sh.stream)

/-- The purpose whose figures place a gang: its first. -/
def Gang.first (g : Gang) : Purpose := g.purposes.headD .hidden

/-- Does the gang stream columns (PICK_W, PICK_T_ROWS)? -/
def PickKind.columns : PickKind → Bool
  | .w | .tRows => true
  | _ => false

/-- R110: row groups of a gang. -/
def Gang.groups (g : Gang) : Nat := if g.kind == .w then ceilDiv g.rows.length 8 else 1

/-- R110: work(g) with `split` copies per row group. -/
def Gang.work (g : Gang) (split : Nat) : Nat :=
  let p := g.first
  if g.kind.columns then ceilDiv (g.kTiles p) split * g.perSegment p * g.pass p
  else ceilDiv g.rows.length split * g.kTiles p * g.outTiles p * g.pass p

/-- R110: extra_useful(g). -/
def Gang.extraUseful (g : Gang) (split : Nat) : Bool :=
  if g.kind.columns then decide (split < g.kTiles g.first) else decide (64 ≤ ceilDiv g.rows.length (split + 1))

/-! ## place() (R110, R111) -/

/-- The free segments of a Harness: cores ascending, each with its free segments ascending. -/
abbrev FreeSegs := List (Nat × List Nat)

/-- R110: the allocator's map with every segment free; a core that a fault retires takes no further pick (R21, R352). -/
def State.freeSegs (s : State) (h : Nat) : FreeSegs :=
  (List.range 66).filterMap (fun c =>
    let k := s.core h c
    if k.inMap && !k.withdrawn then some (c, List.range 32) else none)

/-- Take segments of core c. -/
def takeSegs (f : FreeSegs) (c : Nat) (segs : List Nat) : FreeSegs :=
  f.map (fun x => if x.1 == c then (c, x.2.filter (fun i => !segs.contains i)) else x)

/-- R110: one copy of `size` segments: on the usable core with the fewest free segments among those with enough (R111:
first on the core of the adapter's other gangs), else over several cores where spanning is allowed. Of cores with equally
few it takes the lowest position (log entry 112). -/
def placeCopy (f : FreeSegs) (size : Nat) (span : Bool) (home : Option Nat) : Option (FreeSegs × List (Nat × Nat)) :=
  let fit := f.filter (fun x => decide (size ≤ x.2.length))
  let best := (fit.find? (fun x => some x.1 == home)).or
    (fit.foldl (fun b x => match b with
      | none => some x
      | some y => if x.2.length < y.2.length then some x else b) none)
  match best with
  | some x =>
    let segs := x.2.take size
    some (takeSegs f x.1 segs, segs.map (fun i => (x.1, i)))
  | none =>
    if span && decide (size ≤ (f.map (fun x => x.2.length)).sum) then
      let all := (f.flatMap (fun x => x.2.map (fun i => (x.1, i)))).take size
      some (f.map (fun x => (x.1, x.2.filter (fun i => !all.contains (x.1, i)))), all)
    else none

/-- R110: n copies, or none of them. -/
def placeCopies (f : FreeSegs) (size : Nat) (span : Bool) (home : Option Nat) :
    Nat → Option (FreeSegs × List (List (Nat × Nat)))
  | 0 => some (f, [])
  | n + 1 =>
    match placeCopy f size span home with
    | none => none
    | some (f, c) => (placeCopies f size span home n).map (fun r => (r.1, c :: r.2))

/-- A gang that place() has given its copies: copy q of row group i at place q · groups + i. -/
structure Placed where
  gang : Gang
  split : Nat
  copies : List (List (Nat × Nat))
  deriving DecidableEq, Repr

/-- R110: the order of gangs: size descending, then adapter ID ascending. -/
def gangBefore (a b : Gang) : Bool :=
  decide (gangSize b.rank < gangSize a.rank) || (gangSize a.rank == gangSize b.rank && decide (a.adapter < b.adapter))

/-- R110: first copies of the gangs in order; the gangs that find no place are deferred. -/
def placeFirst (span : Bool) : List Gang → FreeSegs → List (Nat × Nat) → FreeSegs × List Placed × List Gang
  | [], f, _ => (f, [], [])
  | g :: t, f, homes =>
    match placeCopies f (gangSize g.rank) span ((homes.find? (·.1 == g.adapter)).map (·.2)) g.groups with
    | none =>
      let r := placeFirst span t f homes
      (r.1, r.2.1, g :: r.2.2)
    | some (f, cs) =>
      let home := ((cs.headD []).headD (0, 0)).1
      let r := placeFirst span t f ((g.adapter, home) :: homes)
      (r.1, ⟨g, 1, cs⟩ :: r.2.1, r.2.2)

/-- R111: the core that a further copy of a gang shares with the gangs fed from the same rows, where there are any. -/
def sharedHome (ps : List Placed) (i : Nat) (p : Placed) : Option Nat :=
  if (ps.eraseIdx i).any (fun q => q.gang.bolt == p.gang.bolt && q.gang.adapter == p.gang.adapter) then
    (p.copies.headD []).head?.map (·.1)
  else none

/-- R110: extra copies: the candidate with the most work, first in order on ties, splits once more or leaves. -/
def placeExtra (span : Bool) (maxCopies : Nat) : Nat → FreeSegs → List Placed → List Nat → FreeSegs × List Placed
  | 0, f, ps, _ => (f, ps)
  | n + 1, f, ps, cand =>
    let best := cand.foldl (fun (b : Option (Nat × Nat)) i =>
      match ps[i]? with
      | none => b
      | some p =>
        let w := p.gang.work p.split
        match b with
        | none => some (i, w)
        | some x => if x.2 < w then some (i, w) else b) none
    match best with
    | none => (f, ps)
    | some (i, _) =>
      match ps[i]? with
      | none => (f, ps)
      | some p =>
        let drop := placeExtra span maxCopies n f ps (cand.filter (· != i))
        if maxCopies < p.gang.groups * (p.split + 1) || !p.gang.extraUseful p.split then drop
        else match placeCopies f (gangSize p.gang.rank) span (sharedHome ps i p) p.gang.groups with
          | none => drop
          | some (f', cs) =>
            placeExtra span maxCopies n f' (setAt ps i ⟨p.gang, p.split + 1, p.copies ++ cs⟩) cand

/-- Segments of a list of gangs that have their places. -/
def placedSegs (ps : List Placed) : Nat := (ps.map (fun p => (p.copies.map List.length).sum)).sum

/-- Copies that lie on more than one core. -/
def spanning (ps : List Placed) : Nat :=
  (ps.flatMap (·.copies)).countP (fun c => c.any (fun x => x.1 != (c.headD (0, 0)).1))

/-! ## Picks -/

/-- R124: the rows of copy q of Q of a gang whose copies take disjoint rows. -/
def copyRows (rows : List Nat) (q Q : Nat) : List Nat :=
  let b := ceilDiv rows.length 64
  (rows.drop (64 * (b * q / Q))).take (64 * (b * (q + 1) / Q) - 64 * (b * q / Q))

/-- The cores of a copy, ascending, each with its segments and their places in the gang. -/
def copyCores (c : List (Nat × Nat)) : List (Nat × List (Nat × Nat)) :=
  (sortNub (c.map (·.1))).map (fun k =>
    (k, (c.mapIdx (fun i x => (i, x))).filterMap (fun y => if y.2.1 == k then some (y.2.2, y.1) else none)))

/-- A pick joins the picks of the engine under a new PICK_ID, held in the Shuttle (R95, R96). -/
def State.addPick (s : State) (p : Pick) : State :=
  { s with heddle := { s.heddle with
      picks := s.heddle.picks ++ [{ p with id := s.heddle.nextPick }],
      nextPick := s.heddle.nextPick % (2 ^ 32 - 1) + 1 } }

/-- The picks of one copy, one for each of its cores. -/
def State.addCopy (s : State) (h : Nat) (g : Gang) (cells : List (Nat × Nat)) (pu : Purpose)
    (rows : List Nat) (stash : List Nat) (kLo kHi copy last group first split : Nat) : State :=
  let sh := g.shape pu
  let kp := kTileLen g.kind sh.stat
  let lo := kLo * kp
  let len := min sh.k (kHi * kp) - lo
  (copyCores cells).foldl (fun s c => s.addPick
    { id := 0, bolt := g.bolt, kind := g.kind, statFmt := sh.stat, streamFmt := sh.stream, proj := g.proj,
      layer := g.layer, adapter := g.adapter, tenant := g.tenant, h := h, c := c.1, segs := c.2, gang := cells.length,
      rank := g.rank, rows := rows, kOff := lo, kLen := len, kTiles := kHi - kLo, kBase := kLo, n := sh.n,
      outTiles := g.outTiles pu, version := g.version, copy := copy, lastCopy := last, group := group,
      purpose := pu, firstTerm := first, stash := stash, window := g.window, replay := g.replay,
      split := split }) s

/-- R109, Table 8.2: the picks of one purpose of a placed gang; a copy whose K range holds no K-tile has no pick (log
entry 31). -/
def State.addPurpose (s : State) (h : Nat) (p : Placed) (pu : Purpose) : State :=
  let g := p.gang
  let K := g.kTiles pu
  match g.kind with
  | .w =>
    let S := p.split
    (List.range g.groups).foldl (fun s i =>
      (List.range S).foldl (fun s q =>
        if K * q / S == K * (q + 1) / S then s else
        s.addCopy h g (p.copies.getD (q * g.groups + i) []) pu ((g.rows.drop (8 * i)).take 8) []
          (K * q / S) (K * (q + 1) / S) q (S - 1) i 0 S) s) s
  | .tRows =>
    (List.range p.split).foldl (fun s q =>
      let lo := K * q / p.split
      let hi := K * (q + 1) / p.split
      let part := fun (l : List Nat) => (l.drop (256 * lo)).take (256 * (hi - lo))
      s.addCopy h g (p.copies.getD q []) pu (part g.rows) (part g.stash) lo hi q (p.split - 1) 0
        (g.firstTerm + 256 * lo) p.split) s
  | _ =>
    (List.range p.split).foldl (fun s q =>
      s.addCopy h g (p.copies.getD q []) pu (copyRows g.rows q p.split) [] 0 K q (p.split - 1) 0 0 p.split) s

/-- The picks of a placed gang, purpose by purpose. -/
def State.addPlaced (s : State) (h : Nat) (p : Placed) : State :=
  p.gang.purposes.foldl (fun s pu => s.addPurpose h p pu) s

/-! ## Turns (R306 to R308) -/

/-- R110, R308: a turn of Harness h is placed; the gangs that found no place are answered. -/
def State.placeTurn (s : State) (h : Nat) (gangs : List Gang) : State × List Gang :=
  let span := s.flag (ALLOC_CTRL.SPAN_CORES h)
  let maxCopies := max 1 (s.get (ALLOC_CTRL.MAX_COPIES h))
  let first := placeFirst span (sortBy gangBefore gangs) (s.freeSegs h) []
  let ps := (placeExtra span maxCopies (256 * (gangs.length + 1)) first.1 first.2.1 (List.range first.2.1.length)).2
  let deferred := first.2.2
  let s := ((s.bump (ALLOC_EVENTS.PLACEMENTS h)).bump (ALLOC_EVENTS.SPANNING h) (spanning ps)).bump
    (ALLOC_EVENTS.DEFERRED h) deferred.length
  let s := (s.set (ALLOC_STATUS.SEGMENTS_PLACED h) (placedSegs ps)).set (ALLOC_STATUS.GANGS_DEFERRED h) deferred.length
  (ps.foldl (fun s p => s.addPlaced h p) (s.bump SD_TURN_EVENTS.TURNS), deferred)

/-- ALLOC_STATUS.SEGMENTS_USABLE: segments of the allocator's map. -/
def State.segmentsUsable (s : State) (h : Nat) : Nat := 32 * ((List.range 66).countP (fun c => (s.core h c).inMap))

/-- Segments that the first copies of gangs need (R306). -/
def firstSegments (gs : List Gang) : Nat := (gs.map (fun g => gangSize g.rank * g.groups)).sum

/-- R306: does a turn of a window, whose footprint may take `frames` frames, fit Harness h? -/
def State.turnFits (s : State) (h frames : Nat) (gs : List Gang) : Bool :=
  decide (firstSegments gs ≤ s.segmentsUsable h) &&
    decide ((sortNub (gs.flatMap (·.tiles))).length ≤ frames) &&
    decide ((sortNub (gs.map (·.adapter))).length ≤ 1024)

/-- R307: weight(k), the tenant's field of SD_TENANT_WEIGHT. -/
def State.tenantWeight (s : State) (k : Nat) : Nat :=
  max 1 (s.get (SD_TENANT_WEIGHT.WEIGHT (k / 8) (k % 8)))

/-- SD_TURN_CTRL.WINDOW_FRAMES: 0 acts as 1, and values above 768 act as 768. -/
def State.windowFrames (s : State) : Nat := min 768 (max 1 (s.get SD_TURN_CTRL.WINDOW_FRAMES))

/-- R309: the window of a bolt in a Harness, as it is formed: its queues keep the weights, and it keeps the size of a turn. -/
def State.newTurns (s : State) (bolt window : Nat) (queues : List (Nat × List (List Gang))) : Turns :=
  { bolt := bolt, window := window, frames := s.windowFrames, queues := queues.map (fun q => ⟨q.1, s.tenantWeight q.1, q.2⟩) }

/-- A turn that is being filled (R307): its gangs, the queues left, where it stopped, adapters that run alone. -/
structure Filling where
  turn : List Gang
  queues : List TenantQueue
  stop : Option Nat := none
  alone : Nat := 0
  deriving DecidableEq, Repr

/-- R307: adapters of the tenant at place i of the queues enter the turn while its credit lasts. -/
def State.fillTenant (s : State) (h frames i : Nat) : Nat → Filling → Filling
  | 0, f => f
  | credit + 1, f =>
    match f.queues[i]? with
    | none => f
    | some q => match q.gangs with
      | [] => f
      | a :: rest =>
        if !f.turn.isEmpty && !s.turnFits h frames (f.turn ++ a) then { f with stop := some q.tenant }
        else
          let alone := if f.turn.isEmpty && !s.turnFits h frames a then 1 else 0
          s.fillTenant h frames i credit
            { f with turn := f.turn ++ a, queues := setAt f.queues i { q with gangs := rest }, alone := f.alone + alone }

/-- R307: the tenants take their turns, each with fresh credit at every visit, cyclically ascending, until an adapter does not fit or
every queue is empty. -/
def State.fillTurn (s : State) (h frames : Nat) : List Nat → Filling → Filling
  | [], f => f
  | i :: is, f =>
    if f.stop.isSome then f
    else s.fillTurn h frames is (s.fillTenant h frames i ((f.queues[i]?.map (·.weight)).getD 0) f)

/-- R307: the visits of a turn, by place in the queues: cyclically ascending from tenant `start`, as often as there are adapters. -/
def tenantVisits (start : Nat) (qs : List TenantQueue) : List Nat :=
  let is := List.range qs.length
  let before := fun i => qs[i]?.any (fun q => decide (q.tenant < start))
  let round := is.filter (fun i => !before i) ++ is.filter before
  (List.replicate (qs.flatMap (·.gangs)).length round).flatten

/-- R307: the next turn of a window is formed and placed in Harness h; answers the window as it then stands. -/
def State.nextTurn (s : State) (h : Nat) (t : Turns) : State × Turns :=
  let start := if t.placed == 0 then (s.harness h).ptr else t.start
  let r := s.fillTurn h t.frames (tenantVisits start t.queues) { turn := t.deferred, queues := t.queues }
  let s := s.bump SD_TURN_EVENTS.OVERSIZE r.alone
  let p := s.placeTurn h r.turn
  let s := if t.placed == 0 then
      match r.stop with
      | some k => p.1.modHarness h (fun x => { x with ptr := k })
      | none => p.1
    else p.1
  let s := s.set (SD_TURN_STATUS.TURN h) (t.placed + 1)
  (s, { t with queues := r.queues, deferred := p.2, start := r.stop.getD start, placed := t.placed + 1 })

/-- Has a window turns left to place? -/
def Turns.more (t : Turns) : Bool := !t.gangs.isEmpty

/-- R308: have the last blocks of the turns placed so far for a window in Harness h issued? -/
def State.turnIssued (s : State) (h : Nat) (t : Turns) : Bool :=
  s.heddle.picks.all (fun p => !(p.h == h && p.bolt == t.bolt && p.window == t.window) ||
    decide (p.blocks ≤ p.issued))

/-- Place the next turn of the window that leads in Harness h; a window without turns left goes. -/
def State.placeHead (s : State) (h : Nat) : State :=
  match (s.harness h).turns with
  | [] => s
  | t :: rest =>
    let r := s.nextTurn h t
    let sliced := t.placed == 1 && (s.bolt? t.bolt).any (fun b => !b.sliced.contains t.window)
    let s := if sliced then
        (r.1.bump SD_TURN_EVENTS.SLICED_WINDOWS).modBolt t.bolt (fun b => { b with sliced := b.sliced ++ [t.window] })
      else r.1
    s.modHarness h (fun x => { x with turns := if r.2.more then r.2 :: rest else rest })

/-- R307: the first turn of a window is placed as it is grouped, unless turns of earlier windows still wait there. -/
def State.queueTurns (s : State) (h : Nat) (t : Turns) : State :=
  if t.gangs.isEmpty then s
  else
    let free := (s.harness h).turns.isEmpty
    let s := s.modHarness h (fun x => { x with turns := x.turns ++ [t] })
    if free then s.placeHead h else s

/-- R308: TURN_PLACE. The gangs that place() deferred lead it. -/
def execTurnPlace (h : Fin 8) (s : State) : Host.Outcome State Fault Refusal :=
  .next (s.after <| match (s.harness h.val).turns with
    | [] => s
    | t :: _ => if s.serving && s.turnIssued h.val t then s.placeHead h.val else s)

end Sys2Proof.Machine
end

