-- ==== Sys2Proof/Machine/SpindleOps.lean ====
section
/-! DEFINITION. The Spindle's operations: its mode (R159 to R162), the instances of its jobs and what still feeds them
(Table 7.1), vector assembly (R166, R169), the combine store (R167, R168), one run of a program with its stream writes
(R171, R179 to R181). -/

namespace Sys2Proof.Machine

/-! ## Modes (R159 to R162) -/

/-- R161: is the Spindle of Harness h in CHECKED mode for the next instance? -/
def State.spChecked (s : State) (h : Nat) : Bool :=
  s.boot.stage != .up || s.flag (SV_CTRL.MODE h) || (s.spindle h).forced

/-- R159: the lane width of the mode. -/
def State.laneWidth (s : State) (h : Nat) : Nat := if s.spChecked h then 256 else 2048

/-- R160: the lowest-numbered pair of lane blocks with neither block marked faulty. -/
def State.freePair (s : State) (h : Nat) : Option Nat :=
  (List.range 4).find? (fun k => !bitOf (s.spindle h).blockFault.toNat (2 * k) &&
    !bitOf (s.spindle h).blockFault.toNat (2 * k + 1))

/-! ## Jobs (Table 7.1) -/

/-- The job of a key in Harness h. -/
def State.job? (s : State) (h : Nat) (k : JobKey) : Option Job := (s.spindle h).jobs.find? (·.key == k)

/-- Change the job of a key. -/
def State.modJob (s : State) (h : Nat) (k : JobKey) (f : Job → Job) : State :=
  s.modSpindle h (fun v => { v with jobs := modWhere (·.key == k) f v.jobs })

/-- A job joins the jobs of Harness h. -/
def State.addJob (s : State) (h : Nat) (j : Job) : State := s.modSpindle h (fun v => { v with jobs := v.jobs ++ [j] })

/-- A run in progress ends with nothing written. -/
def Spindle.stopRun (v : Spindle) (k : JobKey) : Spindle := { v with mid := v.mid.filter (·.key != k) }

/-- A job goes. -/
def State.dropJob (s : State) (h : Nat) (k : JobKey) : State :=
  s.modSpindle h (fun v => { v.stopRun k with jobs := v.jobs.filter (·.key != k) })

/-- BLOCK_FAULT of SV_STATUS (R160, R187). -/
def Spindle.faultBits (v : Spindle) : Nat := if v.progFault then 255 else v.blockFault.toNat

/-- Tables 7.1 and 8.2: the classes that take the results of a pick. -/
def Purpose.classes : Purpose → List Nat
  | .hidden => [0]
  | .delta | .dX | .sprintUp => [1]
  | .dHidden => [0, 3]
  | .dA | .dB | .sprintDown | .proof => []

/-- The key of a stream instance that a pick feeds. A bolt's windows have instances of their own. -/
def Pick.jobKey (p : Pick) (cls : Nat) : JobKey :=
  { cls := cls, bolt := p.bolt, adapter := p.adapter, proj := p.proj, layer := p.layer, chunk := p.window }

/-- Does a pick, a gang or an open combine still bring values to a stream instance (R169)? -/
def State.jobFed (s : State) (h : Nat) (k : JobKey) : Bool :=
  s.heddle.picks.any (fun p => p.h == h && p.purpose.classes.contains k.cls && p.jobKey k.cls == k) ||
    (s.harness h).gangs.any (fun g => g.bolt == k.bolt && g.adapter == k.adapter && g.proj == k.proj &&
      g.window == k.chunk && g.purposes.any (fun p => p.classes.contains k.cls)) ||
    (s.spindle h).combines.any (fun c => c.bolt == k.bolt && c.adapter == k.adapter && c.proj == k.proj &&
      c.window == k.chunk && c.purpose.classes.contains k.cls)

/-! ## Vector assembly (R166, R169) -/

/-- Lanes packed into full vectors and a rest. -/
def packLanes (width : Nat) (l : List Lane) : List Vec × List Lane :=
  let n := l.length / max 1 width
  ((groupsOf (max 1 width) (l.take (n * width))).map (fun g => { v0 := g }), l.drop (n * width))

/-- Closed vectors in the queue of R169. -/
def Spindle.queued (v : Spindle) : Nat := ((v.jobs.filter (fun j => streamClass j.key.cls)).map (fun j => j.vecs.length)).sum

/-- R169: can the queue take n values of an instance? -/
def State.vectorRoom (s : State) (h : Nat) (k : JobKey) (n : Nat) : Bool :=
  let j := s.job? h k
  let width := (j.map (·.width)).getD (s.laneWidth h)
  decide ((s.spindle h).queued + (((j.map (fun j => j.open_.length)).getD 0) + n) / max 1 width ≤ 8)

/-- R169: vectors of an instance close while the queue has room: full ones, and the rest where no further value comes. -/
def Job.close (room : Nat) (j : Job) (last : Bool) : Job :=
  let full := packLanes j.width j.open_
  let vecs := if last && !full.2.isEmpty then full.1 ++ [{ v0 := full.2 }] else full.1
  { j with vecs := j.vecs ++ vecs.take room, open_ := j.open_.drop (j.width * min room vecs.length) }

/-- R169: the jobs of a Spindle in order close their vectors into a queue with `room` places. -/
def closeJobs (fed : JobKey → Bool) : Nat → List Job → List Job
  | _, [] => []
  | room, j :: t =>
    if streamClass j.key.cls then
      let j' := j.close room (!fed j.key)
      j' :: closeJobs fed (room - (j'.vecs.length - j.vecs.length)) t
    else j :: closeJobs fed room t

/-- R169: vectors close into the queue of 8. -/
def State.closeVectors (s : State) (h : Nat) : State :=
  s.modSpindle h (fun v => { v with jobs := closeJobs (s.jobFed h) (8 - v.queued) v.jobs })

/-- R169: accepted values of one instance are packed densely, in order of acceptance. -/
def State.assemble (s : State) (h : Nat) (k : JobKey) (fed : List Pick) (lanes : List Lane) : State :=
  let s := if (s.job? h k).isSome then s else s.addJob h { key := k, width := s.laneWidth h }
  (s.modJob h k (fun j =>
    { j with open_ := j.open_ ++ lanes, rows := sortNub (j.rows ++ lanes.map (·.row)),
             fed := j.fed ++ fed.filter (fun p => !j.fed.any (·.id == p.id)) })).closeVectors h

/-- R150, R166: a drained value in FP32. -/
def slotF32 (isInt : Bool) (x : Slot) : F32 := if isInt then int32ToF32 x.bits else x.bits

/-- The values of a drained tile as lanes, with the tile's flags (R164). -/
def tileLanes (t : TileOut) : List Lane :=
  t.outs.map (fun o => ⟨slotF32 t.isInt o.slot, o.row, o.col, t.sat, t.nan⟩)

/-- Every class of a pick can take its values (R165, R169). -/
def State.classesRoom (s : State) (h : Nat) (p : Pick) (n : Nat) : Bool :=
  p.purpose.classes.all (fun c => s.vectorRoom h (p.jobKey c) n)

/-- The values of a pick go to each of its classes (R197). -/
def State.feedClasses (s : State) (h : Nat) (p : Pick) (fed : List Pick) (lanes : List Lane) : State :=
  p.purpose.classes.foldl (fun s c => s.assemble h (p.jobKey c) fed lanes) s

/-! ## The combine store (R167, R168) -/

/-- Does a pick's tile meet others in the combine store? The up projection's K range is one K-tile, which one copy takes
whole (R109): its tile meets none. -/
def Pick.combines (p : Pick) : Bool := p.kind == .w && p.lastCopy != 0 && p.purpose == .hidden

/-- R167: is this the entry of an output tile of the pick? -/
def Combine.holds (c : Combine) (p : Pick) (outTile : Nat) : Bool :=
  c.bolt == p.bolt && c.adapter == p.adapter && c.proj == p.proj && c.purpose == p.purpose && c.window == p.window &&
    c.group == p.group && c.outTile == outTile

/-- Partials that wait out of their turn in the combine store of Harness h. -/
def Spindle.outOfOrder (v : Spindle) : Nat := (v.combines.map (fun c => c.early.length)).sum

/-- R109, R150: partials of two copies added value by value, in FP32. -/
def addOuts (a b : List OutVal) : List OutVal :=
  a.map (fun x => match b.find? (fun y => y.place == x.place) with
    | some y => { x with slot := slotAdd x.slot y.slot }
    | none => x)

/-- A tile's values brought to FP32 slots (R150). -/
def floatOuts (t : TileOut) : List OutVal :=
  if t.isInt then t.outs.map (fun o => { o with slot := ⟨int32ToF32 o.slot.bits, false⟩ }) else t.outs

/-- R167: partials that have come ahead of their turn are added while the next in order is there. -/
def Combine.drainEarly : Nat → Combine → Combine
  | 0, c => c
  | n + 1, c =>
    match c.early.find? (fun e => e.1 == c.next) with
    | none => c
    | some e =>
      Combine.drainEarly n { c with
        sum := addOuts c.sum e.2.1, sat := c.sat || e.2.2.1, nan := c.nan || e.2.2.2, next := c.next + 1,
        early := c.early.filter (fun x => x.1 != e.1) }

/-- R168: may a drained tile of a multi-copy pick enter the combine store? -/
def State.combineAccepts (s : State) (h : Nat) (p : Pick) (t : TileOut) : Bool :=
  let v := s.spindle h
  let c := v.combines.find? (fun c => c.holds p t.outTile)
  let next := (c.map (·.next)).getD 0
  if p.copy == next then
    let last := (((c.getD ⟨0, 0, 0, .hidden, 0, 0, 0, next, p.lastCopy, [], false, false, [], []⟩).early.length) + next) ==
      p.lastCopy
    !last || s.classesRoom h p t.outs.length
  else decide (v.outOfOrder < 1024)

/-- R167: a drained tile enters the combine store; the sum of all copies goes on to vector assembly. -/
def State.combineTile (s : State) (h : Nat) (p : Pick) (t : TileOut) : State :=
  let v := s.spindle h
  let c := (v.combines.find? (fun c => c.holds p t.outTile)).getD
    { bolt := p.bolt, adapter := p.adapter, proj := p.proj, purpose := p.purpose, window := p.window, group := p.group,
      outTile := t.outTile, last := p.lastCopy }
  let vals := floatOuts t
  let c := { c with fed := c.fed ++ [p] }
  let c := if p.copy == c.next then
      Combine.drainEarly 255 { c with sum := (if c.next == 0 then vals else addOuts c.sum vals), sat := c.sat || t.sat,
                                      nan := c.nan || t.nan, next := c.next + 1 }
    else { c with early := c.early ++ [(p.copy, vals, t.sat, t.nan)] }
  let others := v.combines.filter (fun x => !x.holds p t.outTile)
  if c.last < c.next then
    let s := s.modSpindle h (fun v => { v with combines := others })
    let sat := c.sat || c.sum.any (fun o => o.slot.sat)
    let nan := c.nan || c.sum.any (fun o => f32IsNan o.slot.bits)
    s.feedClasses h p c.fed (c.sum.map (fun o => ⟨o.slot.bits, o.row, o.col, sat, nan⟩))
  else s.modSpindle h (fun v => { v with combines := others ++ [c] })

/-! ## Running a program (R171) -/

/-- The words of a program slot of Harness h. -/
def State.progWords (s : State) (h slot : Nat) : List W64 :=
  (List.range 64).map (fun i => s.word (SV_PROG.WORD h slot i).off)

/-- S0 = alpha / r, rounded to FP32 under R139 (R163). -/
def alphaOverRank (alpha : F32) (r : Nat) : F32 :=
  let q := f32Div alpha (f32OfInt r)
  if q.toNat % 2 ^ 31 == 0 then 0 else q

/-- Stream numbers under which a job keeps its writes beside those of its class: block scales, and the codes of the
storage format of an UPD instance. -/
def scaleStream : Nat := 8
/-- R208: the storage-format copy of UPD's stream 0. -/
def codeStream : Nat := 9

/-- Table 7.1, R208: where stream k of a class goes: the stream kept, its format (none: FP32), and whether its events
count. -/
def streamTargets (cls outFmt : Nat) (storage : EFmt) (k : Nat) : List (Nat × Option EFmt × Bool) :=
  match cls with
  | 0 | 2 | 3 => [(k, some .bf16, true)]
  | 1 | 6 | 7 => [(k, if outFmt == 1 then none else some .bf16, true)]
  | 5 => if k == 0 then [(0, none, false), (codeStream, some storage, true)] else [(k, none, false)]
  | _ => [(k, none, true)]

/-- The writes of one VST to one target: by lane, with the tag's flags where the class carries tags. -/
def laneWrites (tags : List Lane) (pos kept : Nat) (f : Option EFmt) (events : Bool) (vals : List (F32 × Bool)) :
    List Stored :=
  let c := convLanes f vals
  let main := c.1.mapIdx (fun i v =>
    let t := tags.getD i ⟨0, 0, pos + i, false, false⟩
    (⟨kept, t.row, t.col, BitVec.ofNat 32 v.bits, (events && v.sat) || t.sat, (events && v.nan) || t.nan⟩ : Stored))
  main ++ c.2.mapIdx (fun i x => ⟨scaleStream, 0, pos / 32 + i, BitVec.ofNat 32 x, false, false⟩)

/-- R180: SAT and NAN events of one VST on one target. -/
def laneEvents (f : Option EFmt) (vals : List (F32 × Bool)) : Nat × Nat :=
  let c := (convLanes f vals).1
  (c.countP (·.sat), c.countP (·.nan))

/-- R181: a later write of an element class to a destination replaces the earlier one. -/
def keepOuts (stream : Bool) (old new : List Stored) : List Stored :=
  if stream then old ++ new
  else old.filter (fun o => !new.any (fun n => n.stream == o.stream && n.col == o.col)) ++ new

/-- A scalar write keeps one value (stream 1 of GRAD_OUT). -/
def keepScalar (old : List Stored) (v : F32) : List Stored :=
  old.filter (fun o => o.stream != 1) ++ [⟨1, 0, 0, v, false, false⟩]

/-- The stream writes and events of one run of a job's body or tail enter its outputs and the counters. A scalar written to
a vector stream has no destination; a vector written to the norm slot leaves it an open value (log entry 32). -/
def State.takeRun (s : State) (h : Nat) (j : Job) (r : Run1) (tags : List Lane) (outFmt : Nat) (storage : EFmt) :
    State × Job :=
  let cls := j.key.cls
  let a := r.vst.foldl (fun (a : State × List Stored) x =>
    if cls == 4 && x.1 == 1 then
      let f := a.1.fresh
      (f.2, keepScalar a.2 (BitVec.ofNat 32 f.1.toNat))
    else
      (streamTargets cls outFmt storage x.1).foldl (fun (a : State × List Stored) t =>
        let outs := keepOuts (streamClass cls) a.2 (laneWrites tags j.pos t.1 t.2.1 t.2.2 x.2)
        let e := if t.2.2 then laneEvents t.2.1 x.2 else (0, 0)
        ((a.1.bump (SV_EVENTS.SAT h) e.1).bump (SV_EVENTS.NAN h) e.2, outs)) a) (s, j.outs)
  let outs := r.sst.foldl (fun o x => if cls == 4 && x.1 == 1 then keepScalar o x.2 else o) a.2
  let s := a.1.bump (SV_EVENTS.PERM_RANGE h) r.permRange
  let s := if r.empty == 0 then s
    else if cls == 4 || cls == 5 then s.bump (SV_EVENTS.EMPTY h) r.empty
    else s.modBolt j.key.bolt (fun b => { b with emptySeen := true })
  (s, { j with regs := r.regs, outs := outs })

/-- The registers that a run of a job begins with: those the file still holds for it, else those kept for it. -/
def State.jobRegs (s : State) (h : Nat) (j : Job) : SpRegs :=
  if (s.spindle h).last == some j.key then (s.spindle h).file else j.regs

/-- R171: a run of a job's body on its oldest closed vector, or of its tail with VL the largest of the instance, before its
first word. -/
def State.firstWord (s : State) (h : Nat) (j : Job) : MidRun :=
  match j.vecs with
  | [] => { key := j.key, tail := true, pc := 0, run := { regs := s.jobRegs h j, vl := j.largest } }
  | v :: _ => { key := j.key, tail := false, pc := 0, run := { regs := (s.jobRegs h j).atVector v, vl := v.v0.length } }

/-- The run that a job has in progress, else a new one. -/
def State.midOf (s : State) (h : Nat) (j : Job) : MidRun :=
  match (s.spindle h).mid with
  | some m => if m.key == j.key then m else s.firstWord h j
  | none => s.firstWord h j

/-- The words that a run executes. -/
def State.runWords (s : State) (h : Nat) (j : Job) (m : MidRun) : List W64 :=
  if m.tail then progTail (s.progWords h j.slot) else progBody (s.progWords h j.slot)

/-- A run ends: its writes and events enter the job, and its registers are kept. -/
def State.endRun (s : State) (h : Nat) (j : Job) (m : MidRun) (outFmt : Nat) (storage : EFmt) : State × Job :=
  let words := s.runWords h j m
  let s := s.bump (SV_CYCLES.ISSUE_CYCLES h) (if m.tail then progCost words else max 1 (progCost words))
  let s := s.modSpindle h (fun v => { v.stopRun j.key with file := m.run.regs, vl := m.run.vl, last := some j.key })
  let tags := if m.tail || !streamClass j.key.cls then [] else (j.vecs.headD { v0 := [] }).v0
  let j := if m.tail then j else { j with vecs := j.vecs.tail, largest := max j.largest m.run.vl }
  s.takeRun h j m.run tags outFmt storage

/-- R171: the next run of a job, from where it stands to its end. -/
def State.finishRun (s : State) (h : Nat) (j : Job) (outFmt : Nat) (storage : EFmt) : State × Job :=
  let m := s.midOf h j
  s.endRun h j { m with run := m.run.run ((s.runWords h j m).drop m.pc) } outFmt storage

/-- R171, R185: an instance starts with the map entry in force, its carry values and its parameters. What was packed for
another lane width is packed again (R162). -/
def State.startJob (s : State) (h : Nat) (j : Job) (params : List F32) : Job :=
  let map := s.word (SV_MAP.SLOT h (min j.key.cls 7)).off
  let width := s.laneWidth h
  let lanes := j.vecs.flatMap (·.v0)
  let j := if streamClass j.key.cls && j.width != width then { j with vecs := [], open_ := lanes ++ j.open_ } else j
  { j with started := true, width := width, slot := bitsOf map.toNat 4 0,
           regs := SpRegs.atStart map params, largest := 0 }

end Sys2Proof.Machine
end

