-- ==== Sys2Proof/Machine/CoreOps.lean ====
section
/-! DEFINITION. What a block of a pick is: its rows and columns (R101 to R105, R124), its operands (R67, R118 to R120), the
tiles it reads, its values (R138 to R143, R154), the stationary tiles it loads (R89 to R92); and what ends with a pick:
commits (R100), stage copies (R127), references (R121). -/

namespace Sys2Proof.Machine

/-! ## The fields of a pick (R95) -/

/-- Table 4.3: SEG_MASK. -/
def Pick.segMask (p : Pick) : Nat := (p.segs.map (fun x => 2 ^ x.1)).sum

/-- Table 4.3: the code of KIND. -/
def PickKind.code : PickKind → Nat
  | .r => 0 | .w => 1 | .tStored => 2 | .tRows => 3

/-- R95, Table 4.3: the 32 bytes of a pick, as four words. -/
def Pick.words (p : Pick) : List W64 :=
  [BitVec.ofNat 64 (p.bolt % 2 ^ 32 * 2 ^ 32 + p.id % 2 ^ 32),
   BitVec.ofNat 64 (p.kind.code * 2 ^ 60 + p.statFmt.code * 2 ^ 56 + p.streamFmt.code * 2 ^ 52 + p.proj % 16 * 2 ^ 48 +
     p.adapter % 2 ^ 16 * 2 ^ 32 + p.segMask),
   BitVec.ofNat 64 (p.rows.length % 2 ^ 21 * 2 ^ 43 + p.kTiles % 2 ^ 13 * 2 ^ 30 + p.outTiles % 2 ^ 13 * 2 ^ 17 +
     p.kBase % 2 ^ 13 * 2 ^ 4),
   BitVec.ofNat 64 (p.version % 2 ^ 32 * 2 ^ 32 + p.copy % 256 * 2 ^ 24 + p.lastCopy % 256 * 2 ^ 16 + p.group % 2 ^ 16)]

/-! ## Rows in a Harness (R126) -/

/-- The entry of a row stage. -/
def State.stageFind (s : State) (h bolt row : Nat) (kind : StageKind) (proj : Nat) : Option StageEntry :=
  (s.harness h).stage.find? (fun e => e.bolt == bolt && e.row == row && e.kind == kind && e.proj == proj && !e.spoiled)

/-- R126: the payload of a row, where it is present in Harness h: in its replay buffer, or copied into its row stage. A
remote bolt's rows come through the Shed Exchange into every Harness. -/
def State.payloadIn (s : State) (h bolt row : Nat) : Option (List Byte) :=
  match s.bolt? bolt with
  | none => none
  | some b =>
    match b.row? row with
    | none => none
    | some r =>
      if b.remote.isSome || (r.link == h && r.held && !r.spoiled) then some r.payload
      else (s.stageFind h bolt row .row 0).map (·.bytes)

/-- The projection under which a stage entry is kept: dY' of a row serves every projection. -/
def stageProj (k : StageKind) (proj : Nat) : Nat :=
  match k with
  | .row | .dY => 0
  | _ => proj

/-- The bytes that a row brings to a pick, where the row is present; a void row brings none. -/
def State.rowBytes (s : State) (p : Pick) (row : Nat) : Option (List Byte) :=
  if p.void.contains row then some [] else
  match p.purpose.stageKind with
  | some k => (s.stageFind p.h p.bolt row k (stageProj k p.proj)).map (·.bytes)
  | none => s.payloadIn p.h p.bolt row

/-- The format of the rows of a pick (Tables 4.5 and 8.2). -/
def Pick.rowFmt (p : Pick) : EFmt := if p.kind == .w then p.statFmt else p.streamFmt

/-- The rows of a block with the bytes they bring. -/
def State.fedRows (s : State) (p : Pick) (rows : List Nat) : List (Nat × List Byte) :=
  rows.map (fun r => (r, (s.rowBytes p r).getD []))

/-- The flags that the rows of a pick carry from the row stage (R180). -/
def State.rowFlags (s : State) (p : Pick) (row : Nat) : Bool × Bool :=
  match p.purpose.stageKind with
  | some k => ((s.stageFind p.h p.bolt row k (stageProj k p.proj)).map (fun e => (e.sat, e.nan))).getD (false, false)
  | none => (false, false)

/-! ## Blocks (R97, R101 to R105) -/

/-- The output tile of block `b` within a segment. -/
def Pick.ot (p : Pick) (b : Nat) : Nat :=
  match p.kind with
  | .r | .tStored => b % max 1 p.outTiles
  | .w => b
  | .tRows => b / max 1 p.strands

/-- Rows of a strand (R105). -/
def Pick.strandRows (p : Pick) : Nat := strandTiles p.statFmt * p.statFmt.perBank

/-- The part of a list by the pick's rows that block `b` takes. -/
def Pick.part {α : Type} (p : Pick) (b : Nat) (l : List α) : List α :=
  match p.kind with
  | .r | .tStored => (l.drop (64 * (b / max 1 p.outTiles))).take 64
  | .w => l
  | .tRows => (l.drop (p.strandRows * (b % max 1 p.strands))).take p.strandRows

/-- The columns of block `b` in the segment at place `g` of the gang: outputs, or streamed columns. A segment's share of an
up projection's columns in PICK_W is a run of ceil(n / gang) of them (log entry 109). -/
def Pick.cols (p : Pick) (b g : Nat) : List Nat :=
  let ot := p.ot b
  let upto := fun lo hi => (List.range (hi - lo)).map (· + lo)
  match p.kind, p.purpose with
  | .tRows, _ => upto (64 * ot) (min p.n (64 * (ot + 1)))
  | .w, .hidden =>
    let w := gangColumns p.rank
    upto (w * g) (min p.n (w * (g + 1)))
  | .w, .sprintDown => (List.range p.n).filter (fun c => (p.colLo + c) % 32 == g)
  | .w, .sprintUp => (((((List.range p.n).filter (fun i => i % 32 == g)).drop (64 * ot)).take 64)).map (· + p.colLo)
  | .w, _ =>
    let per := ceilDiv p.n (max 1 p.gang)
    upto (g * per + 64 * ot) (min (min p.n ((g + 1) * per)) (g * per + 64 * (ot + 1)))
  | _, _ =>
    let w := gangColumns p.rank
    let lo := ot * w * p.gang + w * g
    upto lo (min p.n (lo + w))

/-- Does a purpose read matrix B (R189)? -/
def Purpose.readsB : Purpose → Bool
  | .delta | .dHidden | .sprintUp => true
  | _ => false

/-- The stored matrix that a pick reads, in the version it latched (R121); none for the gradient picks. -/
def State.pickMat (s : State) (p : Pick) : Option Mat :=
  if p.kind == .tRows then none else
  match s.rawDir p.adapter, s.peekRun p.adapter p.version p.layer with
  | some d, some run => matOf s.shape d run p.proj p.purpose.readsB
  | _, _ => none

/-- R118, R119: the skein tiles that a block reads. -/
def State.blockTiles (s : State) (p : Pick) (b : Nat) : List Nat :=
  match s.pickMat p with
  | none => []
  | some m =>
    let cols := p.segs.flatMap (fun x => p.cols b x.2)
    if p.kind == .tStored then
      match cols with
      | [] => []
      | c :: _ =>
        let hi := cols.foldl max c
        let lo := cols.foldl min c
        sortNub ((List.range p.kLen).flatMap (fun i => m.colTiles lo (hi + 1) (p.kOff + i)))
    else sortNub (cols.flatMap (fun n => m.colTiles p.kOff (p.kOff + p.kLen) n))

/-- The tiles of Beam that hold the stashed operands of a block (R195). -/
def Pick.stashTiles (p : Pick) (b : Nat) : List Nat :=
  sortNub ((p.part b p.stash).flatMap (fun a => tilesOf a (2 * p.rank)))

/-- Does the block run as an integer sum (R84)? -/
def Pick.isInt (p : Pick) : Bool := p.statFmt == .int8 && p.streamFmt == .int8

/-- R84: the pair rate. -/
def Pick.rate (p : Pick) : Nat := pairRate p.statFmt p.streamFmt

/-- The values of one segment of a block in its reed tile, every slot at +0 (R101, R102, R104, R139): for a block of rows,
row by row; for one of columns, column by column. -/
def Pick.places (p : Pick) (b g : Nat) (rows : List Nat) : List OutVal :=
  let cols := p.cols b g
  match p.kind with
  | .w => (cols.mapIdx (fun i n => rows.mapIdx (fun j r => (⟨8 * i + j, r, n, Slot.zero⟩ : OutVal)))).flatten
  | .tRows =>
    let ranks := (List.range 8).filter (fun j => decide (8 * g + j < p.rank))
    (cols.mapIdx (fun i n => ranks.map (fun j =>
      if p.purpose == .dA then (⟨8 * i + j, n, 8 * g + j, Slot.zero⟩ : OutVal) else ⟨8 * i + j, 8 * g + j, n, Slot.zero⟩))).flatten
  | _ => (rows.mapIdx (fun i r => cols.mapIdx (fun j n => (⟨8 * i + j, r, n, Slot.zero⟩ : OutVal)))).flatten

/-- The element range of a block: from, up to, and the elements of a K-tile. -/
def Pick.range (p : Pick) (b : Nat) : Nat × Nat × Nat :=
  match p.kind with
  | .tRows => (0, (p.part b p.rows).length, p.statFmt.perBank)
  | k => (p.kOff, p.kOff + p.kLen, kTileLen k p.statFmt)

/-- The reed tile of one segment of a block as the block's first add finds it (R139, R143, R154): `other` where the block's
other-axis read saturates. -/
def Pick.openTile (p : Pick) (b tile outTile g : Nat) (other : Bool) : TileOut :=
  let outs := (p.places b g (p.part b p.rows)).filter (fun o => p.kind == .tRows || p.combines || !p.void.contains o.row)
  ⟨tile, outTile, outs, p.isInt, other, false⟩

/-- R154: does an other-axis read of the block saturate? -/
def State.otherSat (s : State) (p : Pick) (m : Option Mat) (b : Nat) : Bool :=
  match p.kind, m with
  | .tStored, some m => (p.segs.flatMap (fun x => p.cols b x.2)).any (fun k =>
      (List.range p.kLen).any (fun i => (s.otherAxisOf p.h m k).sat (p.kOff + i)))
  | _, _ => false

/-! ## Stationary tiles (R83, R86, R89 to R92) -/

/-- The fuse record of a core position (Table 5.6). -/
def State.fuseRecord (s : State) (h c : Nat) : Nat := (mapGet 0 s.fuses.cores (coreKey h c)).toNat

/-- R86: the physical lane group of segment i. -/
def State.physGroup (s : State) (h c i : Nat) : Nat :=
  let r := s.fuseRecord h c
  if bitOf r 6 && decide (r % 32 ≤ i) then i + 1 else i

/-- R92: the identity of the stationary tile of K-tile `kt` of a block, in the segment at place `g`. -/
def Pick.statTile (p : Pick) (b kt g : Nat) : StatTile :=
  match p.kind with
  | .w => .rows p.bolt p.rows (p.kBase + kt) (if p.purpose.stageKind.isSome then p.proj else 0) p.purpose
  | .tRows => .rows p.bolt (p.part b p.rows) (32 * (p.kBase + kt) + g) p.proj p.purpose
  | k => .weights p.adapter p.version p.proj (p.ot b * p.gang + g) (p.kBase + kt) p.purpose.readsB (k == .tStored)

/-- Codes packed as a bank holds them (R82). -/
def packCodes (f : EFmt) (codes : List Nat) : List Byte :=
  match f.bits with
  | 16 => codes.flatMap (toLe 2)
  | 4 => (groupsOf 2 codes).map (fun g => BitVec.ofNat 8 (g.headD 0 % 16 + 16 * (g.getD 1 0 % 16)))
  | _ => codes.map (BitVec.ofNat 8)

/-- The element range of K-tile `kt` of a block. -/
def Pick.tileRange (p : Pick) (b kt : Nat) : Nat × Nat :=
  let r := p.range b
  (r.1 + kt * r.2.2, min r.2.1 (r.1 + (kt + 1) * r.2.2))

/-- The stationary operands of the eight lanes of a segment: those of its lanes in use. -/
def State.statOperands (s : State) (p : Pick) (b : Block) (g : Nat) : List Operand :=
  match p.kind with
  | .w => b.fed.map (fun r => rowOperand p.rowFmt r.2)
  | .tRows => ((List.range 8).filter (fun j => decide (8 * g + j < p.rank))).map
      (fun j => overRows .bf16 (b.stash.map bf16Operand) (8 * g + j))
  | k => (p.cols b.index g).map (fun n => match s.pickMat p with
      | some m => if k == .tStored then s.otherAxisOf p.h m n else s.columnOf p.h m n
      | none => bf16Operand [])

/-- The streamed operand that meets a value of a block. -/
def State.streamOperand (s : State) (p : Pick) (b : Block) (o : OutVal) : Operand :=
  match p.kind with
  | .w => match s.pickMat p with
    | some m => s.columnOf p.h m o.col
    | none => bf16Operand []
  | .tRows => overRows p.streamFmt (b.fed.map (fun r => rowOperand p.rowFmt r.2)) (if p.purpose == .dA then o.row else o.col)
  | _ => rowOperand p.rowFmt (((b.fed.find? (·.1 == o.row)).map (·.2)).getD [])

/-- Elements under one entry of the scale stores that a pick's stationary tile fills (log entry 108). -/
def State.statSpan (s : State) (p : Pick) : Nat :=
  match p.kind, s.pickMat p with
  | .r, some m => m.span
  | _, _ => 32

/-- R89: words of a LOAD of K-tile `kt`. -/
def Pick.loadWords (p : Pick) (b kt : Nat) : Nat :=
  let r := p.tileRange b kt
  ceilDiv ((r.2 - r.1) * p.statFmt.bits) 16

/-- The bytes and scales of one lane's bank. -/
def laneBank (p : Pick) (b kt : Nat) (o : Operand) : List Byte × List Byte :=
  let r := p.tileRange b kt
  let idx := (List.range (r.2 - r.1)).map (· + r.1)
  (packCodes p.statFmt (idx.map o.code),
   if p.statFmt.isMx then ((groupsOf o.span idx).map (fun g => BitVec.ofNat 8 (o.scale (g.headD 0)))) else [])

/-! ## Passes (R81, R98, R138 to R143) -/

/-- R81, R83: element i that a lane multiplies, from the front bank of its segment and the scale store beside it. -/
def Core.frontElem (k : Core) (f : EFmt) (span seg lane i : Nat) : Elem :=
  let bank := 2 * lane + (if k.front.getLsbD seg then 1 else 0)
  elemOf f (codeAt f (getRun k.banks (512 * bank) 512) i) (mapGet 0 k.scales (256 * bank + i / span)).toNat

/-- R98, R138 to R143: the pass of every row or column of a block over its next K-tile, in one reed tile: the tile after it,
and its events, each with a key that orders them by pass and cycle. -/
def State.passTile (s : State) (k : Core) (p : Pick) (b : Block) (t : TileOut) : TileOut × List (Nat × Nat × SlotEvent) :=
  let r := p.tileRange b.index b.ktDone
  let group := s.physGroup p.h p.c (t.tile / 2)
  let runs := t.outs.map (fun o =>
    let x := s.streamOperand p b o
    let w := k.frontElem p.statFmt (s.statSpan p) (t.tile / 2) (8 * group + o.place % 8)
    (o, passSlot p.isInt p.rate o.slot ((List.range (r.2 - r.1)).map (fun i => (w i, x.elem (r.1 + i))))))
  let es := runs.flatMap (fun x => x.2.2.map (fun e => (4096 * (x.1.place / 8) + e.1, t.tile, e.2)))
  let sat := es.any (fun e => match e.2.2 with | .sat _ => true | .nan _ => false)
  let nan := es.any (fun e => match e.2.2 with | .nan _ => true | .sat _ => false)
  ({ t with outs := runs.map (fun x => { x.1 with slot := x.2.1 }), sat := t.sat || sat, nan := t.nan || nan }, es)

/-! ## References and fills (R121, R251, R253, R257) -/

/-- Read references of a block on its tiles: on each frame and once on each tile's page. -/
def State.refTiles (s : State) (h : Nat) (tiles : List Nat) (up : Bool) : State :=
  tiles.foldl (fun s t =>
    let s := match s.frameOf h t with
      | some f => s.modSlice h (fun m => mapIns m f.1
          { f.2 with refs := if up then f.2.refs + 1 else f.2.refs - 1 })
      | none => s
    s.modPage (t / 64) (fun q => { q with pins := if up then q.pins + 1 else q.pins - 1 })) s

/-- R253, R255: a block that reads tiles adds 1 to their counts, makes them the last read, and their pages used. -/
def State.countReads (s : State) (h : Nat) (tiles : List Nat) : State :=
  let s := tiles.foldl (fun s t =>
    match s.frameOf h t with
    | some f => s.modSlice h (fun m => mapIns m f.1
        { f.2 with count := min 65535 (f.2.count + 1), lastRead := s.tiers.readClock + 1 })
    | none => s) s
  let s := (sortNub (tiles.map (· / 64))).foldl State.touchPage s
  let s := { s with tiers := { s.tiers with readClock := s.tiers.readClock + 1 } }
  s.bump (BC_SLICE_EVENTS.HITS h) tiles.length

/-- R251: demand fills for the tiles of a due block that are not ready, and for the stash pages it reads. -/
def State.demandFills (s : State) (p : Pick) (tiles stash : List Nat) : State :=
  let s := tiles.foldl (fun s t =>
    if s.sliceReady p.h t allSectors then s
    else s.queueFill { tile := t, slice := some p.h, owner := .key p.adapter, sectors := allSectors }) s
  stash.foldl (fun s t =>
    if s.tileState t == .valid then s
    else s.queueFill { tile := t, owner := .key p.adapter, source := 8 }) s

/-! ## What ends with a pick (R100, R127) -/

/-- R127: stage copies of rows that no pick or gang of the Harness names any more are freed. -/
def State.freeStage (s : State) (h bolt : Nat) (rows : List Nat) : State :=
  let gone := rows.filter (fun r => !s.rowNamed h bolt r)
  if gone.isEmpty then s else
  s.modHarness h (fun x => { x with
    stage := x.stage.filter (fun e => !(e.bolt == bolt && gone.contains e.row)) })

/-- R100: rows of a pick commit; the results of a pick whose values leave the engine commit with its last part. -/
def State.commitRows (s : State) (p : Pick) (rows : List Nat) : State :=
  let new := rows.filter (fun r => !p.committed.contains r)
  let s := s.modPick p.id (fun q => { q with committed := q.committed ++ new })
  let last := fun (s : State) (r : Nat) =>
    !s.heddle.picks.any (fun q => q.bolt == p.bolt && q.proj == p.proj && q.purpose.classes.contains 1 &&
      q.rows.contains r && !q.committed.contains r)
  let s := if p.purpose.classes.contains 1 then
      new.foldl (fun s r => if last s r then s.modResult p.bolt r p.proj (fun x => { x with committed := true }) else s) s
    else s
  s.freeStage p.h p.bolt new

/-- A block leaves its core: its references go. -/
def State.dropBlock (s : State) (h c : Nat) (b : Block) : State :=
  (s.refTiles h b.refs false).modCore h c (fun k =>
    { k with blocks := k.blocks.filter (fun x => !(x.pick == b.pick && x.index == b.index)) })

/-- A pick leaves the engine: its blocks and references go, its core forgets it, and a core that stepped it halts. -/
def State.removePick (s : State) (p : Pick) : State :=
  let s := ((s.core p.h p.c).blocks.filter (·.pick == p.id)).foldl (fun s b => s.dropBlock p.h p.c b) s
  let s := s.modCore p.h p.c (fun k => { k with
    queue := k.queue.filter (· != p.id),
    stepping := if k.stepping == some p.id then none else k.stepping })
  { s with heddle := { s.heddle with picks := s.heddle.picks.filter (·.id != p.id) } }

/-- What follows when picks have left: a draining version may be released, and instances may have no further value. -/
def State.afterPick (s : State) (p : Pick) : State :=
  let s := if p.version == 0 then s else s.noteDrain p.adapter
  let s := s.freeStage p.h p.bolt p.rows
  (s.closeVectors p.h).releaseRows p.bolt

end Sys2Proof.Machine
end

