-- ==== Sys2Proof/Machine/Cores.lean ====
section
/-! DEFINITION. Commands of the Heddle cores (chapter 4) and of the row stages: PICK_ENQUEUE, ROW_STAGE_COPY, BLOCK_ISSUE,
LOAD, SWAP, DRAIN, CORE_GATE, CORE_RAMP, SPRINT_HOLD_EXPIRY. -/

namespace Sys2Proof.Machine

/-! ## Queues (R96, R313) -/

/-- Is this a pick of flying-shuttle mode? -/
def Pick.sprint (p : Pick) : Bool := p.purpose == .sprintDown || p.purpose == .sprintUp

/-- R313: a flying-shuttle pick enters ahead of each pick none of whose blocks has issued. -/
def State.enqueue (s : State) (q : List Nat) (p : Pick) : List Nat :=
  if p.sprint then
    let stay := fun i => (s.pick? i).any (fun x => x.sprint || x.issued != 0)
    q.takeWhile stay ++ [p.id] ++ q.dropWhile stay
  else q ++ [p.id]

/-- R96, R313: the pick that enters the queue of a core next: one of flying-shuttle mode, else the oldest. -/
def State.nextQueued (s : State) (h c : Nat) : Option Pick :=
  let due := s.heddle.picks.filter (fun p => p.h == h && p.c == c && !p.queued)
  (due.find? Pick.sprint).or due.head?

/-- R96: the next pick due to a core enters its queue of 16 places. -/
def execPickEnqueue (h : Fin 8) (c : Fin 66) (s : State) : Host.Outcome State Fault Refusal :=
  .next (s.after <| match s.nextQueued h.val c.val with
    | none => s
    | some p =>
      if s.serving && decide ((s.core h.val c.val).queue.length < 16) then
        let q := s.enqueue (s.core h.val c.val).queue p
        (s.modCore h.val c.val (fun k => { k with queue := q })).modPick p.id (fun p => { p with queued := true })
      else s)

/-- The picks in a core's queue, in order. -/
def State.queuePicks (s : State) (h c : Nat) : List Pick := (s.core h c).queue.filterMap s.pick?

/-- R96: the picks that stand at the head of the queue for every segment they name. -/
def duePicks : List Pick → List Pick
  | [] => []
  | p :: t => p :: (duePicks t).filter (fun q => !q.segs.any (fun x => p.segs.any (fun y => x.1 == y.1)))

/-! ## Row stages (R126) -/

/-- Bytes in use of a row stage of 2 MiB. -/
def Harness.stageUsed (h : Harness) : Nat := (h.stage.map (fun e => e.bytes.length)).sum

/-- R126: is there room for a copy in the row stage of Harness h? -/
def State.stageFits (s : State) (h n : Nat) : Bool := decide ((s.harness h).stageUsed + n ≤ 2097152)

/-- R126: does the oldest row copy due in Harness h wait for room? -/
def State.copyWaits (s : State) (h : Nat) : Bool :=
  match (s.harness h).reqs with
  | [] => false
  | q :: _ => (s.row? q.bolt q.row).any (fun r => r.held && !r.spoiled && !s.stageFits h r.payload.length)

/-- R126: the oldest row copy due in Harness h is made once there is room. -/
def execRowStageCopy (h : Fin 8) (s : State) : Host.Outcome State Fault Refusal :=
  .next (s.after <| match (s.harness h.val).reqs with
    | [] => s
    | q :: rest =>
      if !s.serving then s else
      let drop := s.modHarness h.val (fun x => { x with reqs := rest })
      match s.row? q.bolt q.row with
      | none => drop
      | some r =>
        if !r.held || r.spoiled then drop
        else if !s.stageFits h.val r.payload.length then s
        else
          let e : StageEntry := { bolt := q.bolt, row := q.row, kind := .row, bytes := r.payload }
          (drop.modHarness h.val (fun x => { x with stage := x.stage ++ [e] })).bump (SD_ROW_EVENTS.ROWS_MOVED_IN h.val))

/-! ## Block issue (R97, Table 4.4) -/

/-- The reed tile a segment's next block uses. -/
def Core.nextTile (k : Core) (seg : Nat) : Nat := 2 * seg + (if k.tileSel.getLsbD seg then 1 else 0)

/-- The output tile of block b in the segment at place g, as the combine store and the strands name it. -/
def Pick.outTile (p : Pick) (b g : Nat) : Nat := p.ot b * p.gang + g

/-- Condition 12: does a block open an output tile while 1,024 are open (R168)? -/
def State.combineFull (s : State) (p : Pick) (b : Nat) : Bool :=
  let cs := (s.spindle p.h).combines
  p.combines && decide (1024 ≤ cs.length) &&
    p.segs.any (fun x => !cs.any (fun c => c.holds p (p.outTile b x.2)))

/-- Tiles of a list that are not ready in the slice, and make a block wait (R252). -/
def State.notReady (s : State) (h : Nat) (tiles : List Nat) : List Nat :=
  tiles.filter (fun t => !s.sliceReady h t allSectors && !s.tileError t)

/-- Stash tiles that are not in Beam. -/
def State.notInBeam (s : State) (tiles : List Nat) : List Nat :=
  tiles.filter (fun t => s.tileState t != .valid && !s.tileError t)

/-- Conditions 1 to 9 of Table 4.4: the cause of the first that is unmet. Condition 7 stands for its place in the order: R225
settles the check of a row before the row is grouped, so every row of a block has passed it, and the wait shows in its bolt's
charge (`chargeBolts`). -/
def State.causeTo9 (s : State) (p : Pick) (b : Nat) (tiles stash : List Nat) : Option Nat :=
  if s.haltBlocks p.h p.c p.id then some 0xC
  else if !(s.bolt? p.bolt).any (·.opened) then some 0xD
  else if s.inBoundary then some 0x8
  else if s.exch.reshard.isSome then some 0xE
  else if (p.part b p.rows).any (fun r => (s.rowBytes p r).isNone) then
    some (if (s.bolt? p.bolt).any (·.remote.isSome) then 0x3 else 0x4)
  else if (p.part b p.rows).any (fun r => !(s.row? p.bolt r).all (·.grouped)) then some 0xF
  else if !(s.notReady p.h tiles).isEmpty then some (s.lateCause p.h ((s.notReady p.h tiles).headD 0))
  else if !(s.notInBeam stash).isEmpty then some (s.lateCause p.h ((s.notInBeam stash).headD 0))
  else if !(s.harness p.h).granted || (s.pm.st != .run && s.pm.st != .idle) then some 0xB
  else none

/-- Conditions 10 to 13 of Table 4.4. -/
def State.causeFrom10 (s : State) (p : Pick) (b : Nat) : Option Nat :=
  let k := s.core p.h p.c
  let tiles := p.segs.map (fun x => k.nextTile x.1)
  let held := fun done => k.blocks.any (fun x => (decide (x.kTiles ≤ x.ktDone)) == done &&
    x.drains.any (fun d => tiles.contains d.tile))
  if k.power != .on then some 0xA
  else if held false then some 0x6
  else if held true || s.combineFull p b then some 0x7
  else if p.purpose.classes.contains 1 && !(s.link (s.linkFor p.h)).egress.isEmpty &&
      !Config.egressRoom (s.link (s.linkFor p.h)).egress.length then some 0x5
  else none

/-- R97, Table 3.10: why the next block of a due pick waits; none where it may issue. -/
def State.waitCause (s : State) (p : Pick) : Option Nat :=
  (s.causeTo9 p p.issued (s.blockTiles p p.issued) (p.stashTiles p.issued)).or (s.causeFrom10 p p.issued)

/-- R138: ACLK cycles in which lanes add over a block's passes. -/
def Pick.macCycles (p : Pick) (b : Nat) : Nat :=
  let r := p.range b
  let perK := ((List.range (ceilDiv (r.2.1 - r.1) (max 1 r.2.2))).map (fun kt =>
    let q := p.tileRange b kt
    ceilDiv (q.2 - q.1) (max 1 p.rate))).sum
  let passes := if p.kind.columns then (p.segs.map (fun x => (p.cols b x.2).length)).foldl max 0
    else (p.part b p.rows).length
  passes * perK

/-- Stripes a block reads from the slice (SD_TILE_EVENTS): of its columns, or of the columns of its other-axis read. -/
def State.stripesRead (s : State) (p : Pick) (b : Nat) : Nat :=
  match s.pickMat p with
  | none => 0
  | some m =>
    let per := fun lo hi => if hi ≤ lo then 0 else (hi - 1) / m.fmt.perBank - lo / m.fmt.perBank + 1
    let cols := p.segs.flatMap (fun x => p.cols b x.2)
    if p.kind == .tStored then
      if cols.isEmpty then 0 else p.kLen * per (cols.foldl min (cols.headD 0)) (cols.foldl max 0 + 1)
    else cols.length * per p.kOff (p.kOff + p.kLen)

/-- R140, R142, R143: RN_SAT_LOG and RN_NAN_LOG take a block's first events. -/
def State.logEvents (s : State) (p : Pick) (tile : Nat) (es : List SlotEvent) : State :=
  es.foldl (fun s e => match e with
    | .sat src => s.logSat src p.h p.c tile p.id
    | .nan src => s.logNan src p.h p.c tile p.id) s

/-- Reed words of a tile, all other slots +0 (R101). -/
def reedWords (m : SMap (BitVec 32)) (t : TileOut) : SMap (BitVec 32) :=
  t.outs.foldl (fun m o => mapPut 0 m (512 * t.tile + o.place) o.slot.bits) (mapDelRange m (512 * t.tile) 512)

/-- R92: the segments of a pick whose front bank does not hold K-tile `kt` of block b. -/
def Core.lacking (k : Core) (p : Pick) (b kt : Nat) : List (Nat × Nat) :=
  p.segs.filter (fun x => mapGet .none k.frontTile x.1 != p.statTile b kt x.2)

/-- Has a block K-tiles to pass? -/
def Block.running (b : Block) : Bool := decide (b.ktDone < b.kTiles)

/-- Are these one block? -/
def Block.same (a b : Block) : Bool := a.pick == b.pick && a.index == b.index

/-- Change a block of a core. -/
def Core.modBlock (k : Core) (b : Block) (f : Block → Block) : Core := { k with blocks := modWhere b.same f k.blocks }

/-- R98: a block passes its next K-tile: the sums stand in its reed tiles, the first events in their logs. -/
def State.passBlock (s : State) (p : Pick) (b : Block) : State :=
  let r := b.drains.map (s.passTile (s.core p.h p.c) p b)
  let es := sortBy (fun (x y : Nat × Nat × SlotEvent) => decide (x.1 < y.1)) (r.flatMap (·.2))
  let s := s.modCore p.h p.c (fun k =>
    { k.modBlock b (fun x => { x with ktDone := x.ktDone + 1, drains := r.map (·.1) }) with
      reed := (r.map (·.1)).foldl reedWords k.reed })
  es.foldl (fun s e => s.logEvents p e.2.1 [e.2.2]) s

/-- R92: a block passes the K-tiles that stand in the front banks of all its segments, without LOAD or SWAP. -/
def State.passFronts (p : Pick) (b : Block) : Nat → State → State
  | 0, s => s
  | n + 1, s =>
    match (s.core p.h p.c).blocks.find? b.same with
    | none => s
    | some x =>
      if x.running && !x.loaded && ((s.core p.h p.c).lacking p x.index x.ktDone).isEmpty then
        State.passFronts p b n (s.passBlock p x)
      else s

/-- Blocks in order, each passing what it can once no earlier block on its segments has passes left. -/
def State.passBlocks (h c : Nat) : List Nat → List Block → State → State
  | _, [], s => s
  | busy, b :: t, s =>
    match s.pick? b.pick with
    | none => State.passBlocks h c busy t s
    | some p =>
      let segs := p.segs.map (·.1)
      let s := if segs.any busy.contains then s else State.passFronts p b b.kTiles s
      let left := ((s.core h c).blocks.find? b.same).any Block.running
      State.passBlocks h c (if left then busy ++ segs else busy) t s

/-- The passes of a core go on. -/
def State.advance (s : State) (h c : Nat) : State := State.passBlocks h c [] (s.core h c).blocks s

/-- R195: the stashed operands of a block, as they stand in Beam. -/
def State.readStash (s : State) (p : Pick) (b : Nat) : State × List (List Byte) :=
  (p.part b p.stash).foldl (fun a addr =>
    let r := a.1.loomReadOpen 8 addr (2 * p.rank)
    (r.1, a.2 ++ [r.2])) (s, [])

/-- R97 to R104, R121: a block issues: its tiles are referenced and counted, its rows leave their stores, and its reed tiles
begin at +0. tile_sel alternates for each segment over all its picks, from 0 at reset (log entry 111); an event of an
other-axis read names the first of the block's tiles (log entry 115). -/
def State.issueBlock (s : State) (p : Pick) (tiles : List Nat) : State :=
  let b := p.issued
  let st := s.readStash p b
  let s := st.1
  let other := s.otherSat p (s.pickMat p) b
  let k := s.core p.h p.c
  let all := p.segs.map (fun x => p.openTile b (k.nextTile x.1) (p.outTile b x.2) x.2 other)
  -- a replacement repeats only the drains that were not accepted (R346)
  let drains := all.drop (p.carried - b * p.segs.length)
  let r := p.range b
  let blk : Block := { pick := p.id, index := b, kTiles := ceilDiv (r.2.1 - r.1) (max 1 r.2.2), refs := tiles,
                       drains := drains, firstTerm := p.firstTerm + p.strandRows * (b % max 1 p.strands),
                       fed := s.fedRows p (p.part b p.rows), stash := st.2 }
  let sel := p.segs.foldl (fun w x => w ^^^ (1#32 <<< x.1)) k.tileSel
  let s := s.modCore p.h p.c (fun k =>
    { k with blocks := k.blocks ++ [blk], tileSel := sel, reed := drains.foldl reedWords k.reed })
  let s := s.modPick p.id (fun q => { q with issued := b + 1 })
  let s := (s.refTiles p.h tiles true).countReads p.h tiles
  let s := if other then s.logSat 4 p.h p.c ((drains.head?.map (·.tile)).getD 0) p.id else s
  let s := (s.bump (PICK_EVENTS.BLOCKS p.h p.c)).bump (CYCLES.MAC_CYCLES p.h p.c) (p.macCycles b)
  let s := s.bump (SD_TILE_EVENTS.STRIPES_READ p.h) (s.stripesRead p b)
  let s := if p.kind == .tStored then s.bump (SD_TILE_EVENTS.OTHER_AXIS p.h) else s
  (s.advance p.h p.c).releaseFed

/-! ## Failed tiers (R277) -/

/-- R277: the uncommitted results of an adapter's rows for a projection of a bolt end TIER_FAILED, and the picks that
would have formed them go. -/
def State.tierFail (s : State) (bolt adapter proj : Nat) (timeout : Bool) : State :=
  match s.bolt? bolt with
  | none => s
  | some b =>
    let rs := b.results.filter (fun r => r.adapter == adapter && r.proj == proj && r.status == 0 && !r.table && !r.committed && !r.ended)
    let ps := s.heddle.picks.filter (fun p => p.bolt == bolt && p.adapter == adapter && p.proj == proj && p.kind != .tRows)
    let s := ps.foldl (fun s p => s.removePick p) s
    let hit := fun (g : Gang) => g.bolt == bolt && g.adapter == adapter && g.proj == proj && g.kind != .tRows
    let cut := fun (l : List Gang) => l.filter (fun g => !hit g)
    let cutQ := fun (q : TenantQueue) => ({ q with gangs := (q.gangs.map cut).filter (fun l => !l.isEmpty) } : TenantQueue)
    let cutT := fun (t : Turns) => ({ t with deferred := cut t.deferred, queues := t.queues.map cutQ } : Turns)
    let hs := s.heddle.harnesses.map (fun h => { h with turns := h.turns.map cutT })
    let hs := hs.map (fun h => { h with turns := h.turns.filter Turns.more })
    let s := { s with heddle := { s.heddle with harnesses := hs } }
    let sv := s.spindles.map (fun v => { v with
      combines := v.combines.filter (fun c => !(c.bolt == bolt && c.adapter == adapter && c.proj == proj)),
      jobs := v.jobs.filter (fun j => !(j.key.bolt == bolt && j.key.adapter == adapter && j.key.proj == proj &&
        (j.key.cls == 0 || j.key.cls == 3))) })
    let s := { s with spindles := sv }
    let s := rs.foldl (fun s r =>
      (s.modResult bolt r.row proj (fun x => { x with status := 4 })).answer r.harness bolt r.row proj [] false false) s
    let s := if rs.isEmpty then s else
      s.modBolt bolt (fun b => { b with tierTimeout := b.tierTimeout || timeout, tierError := b.tierError || !timeout })
    ((ps.foldl (fun s p => s.afterPick p) s).noteDrain adapter).releaseRows bolt

/-! ## BLOCK_ISSUE -/

/-- R417: the PICK and ADDRESS breakpoints that a block meets take hold before it issues. -/
def State.takeBreaks (s : State) (p : Pick) (tiles : List Nat) : State × Bool :=
  let hits := if (s.core p.h p.c).stepping == some p.id then [] else s.blockBreaks p.id (tiles.map (· * tileBytes))
  (hits.foldl (fun s i => s.debugHit 1 i (BD_DBG_BP.ENABLE i).off (some p.h)) s, !hits.isEmpty)

/-- R156: a block found waiting under ACC_HAZARD counts once. -/
def State.noteHazard (s : State) (p : Pick) (cause : Nat) : State :=
  if cause == 6 && p.hazards ≤ p.issued then
    (s.modPick p.id (fun q => { q with hazards := p.issued + 1 })).bump RN_HAZARD.HAZARD_BLOCKS
  else s

/-- The first of the due picks whose next block can issue, issues. A due block whose tiles are not ready asks for them; one
that reads a failed, poisoned or unmapped tile ends its rows. -/
def State.tryIssue (s : State) : List Pick → State
  | [] => s
  | p :: rest =>
    if p.blocks ≤ p.issued then s.tryIssue rest else
    let b := p.issued
    let tiles := s.blockTiles p b
    let s := (tiles ++ p.stashTiles b).foldl (fun s t => s.settle (t * tileBytes) tileBytes) s
    let stash := p.stashTiles b
    if tiles.any s.tileError then (s.noteUnmapped tiles).tierFail p.bolt p.adapter p.proj (tiles.any s.tileGone)
    else if stash.any s.tileError then (s.noteUnmapped stash).addWork (.stashFailed p.id [])
    else
      match s.causeTo9 p b tiles stash with
      | some c =>
        let s := if c == 0 || c == 1 || c == 2 || c == 9 then s.demandFills p tiles (s.notInBeam stash) else s
        s.tryIssue rest
      | none =>
        match s.causeFrom10 p b with
        | some i => (s.noteHazard p i).tryIssue rest
        | none =>
          let r := s.takeBreaks p tiles
          if r.2 then r.1 else r.1.issueBlock p tiles

/-! ## LOAD and SWAP (R89 to R92) -/

/-- The blocks whose next K-tile is not yet loaded, each with its pick; no earlier block on its segments has passes left. -/
def State.loadDue (s : State) : List Nat → List Block → List (Block × Pick)
  | _, [] => []
  | busy, b :: t =>
    match s.pick? b.pick with
    | none => s.loadDue busy t
    | some p =>
      let segs := p.segs.map (·.1)
      let rest := s.loadDue (if b.running then busy ++ segs else busy) t
      if b.running && !b.loaded && !segs.any busy.contains then (b, p) :: rest else rest

/-- R89: words of the LOAD that a block waits for. -/
def loadSize (x : Block × Pick) : Nat := x.2.loadWords x.1.index x.1.ktDone

/-- R89: the blocks that the next LOAD serves: that of the oldest pick, and those that merge with it for their equal D (log
entry 116). -/
def State.nextLoad (s : State) (h c : Nat) : List (Block × Pick) :=
  let due := s.loadDue [] (s.core h c).blocks
  match (s.core h c).queue.findSome? (fun i => due.find? (·.2.id == i)) with
  | none => []
  | some x => due.filter (fun y => loadSize y == loadSize x)

/-- R83, R89: each lane of a segment receives its words in its back bank, with its scales. -/
def State.writeBack (s : State) (p : Pick) (b : Block) (x : Nat × Nat) : State :=
  let back := if (s.core p.h p.c).front.getLsbD x.1 then 0 else 1
  let lanes := (s.statOperands p b x.2).mapIdx (fun j o =>
    (2 * (8 * s.physGroup p.h p.c x.1 + j) + back, laneBank p b.index b.ktDone o))
  s.modCore p.h p.c (fun k =>
    { k with
      backTile := mapPut .none k.backTile x.1 (p.statTile b.index b.ktDone x.2),
      banks := lanes.foldl (fun m l => putRun m (512 * l.1) l.2.1) k.banks,
      scales := lanes.foldl (fun m l => putRun m (256 * l.1) l.2.2) k.scales })

/-- R89, R92: the stationary tile of a block goes into the back banks of the segments that do not hold it in front. -/
def State.loadBlock (s : State) (x : Block × Pick) : State :=
  let s := ((s.core x.2.h x.2.c).lacking x.2 x.1.index x.1.ktDone).foldl (fun s y => s.writeBack x.2 x.1 y) s
  s.modCore x.2.h x.2.c (fun k => k.modBlock x.1 (fun b => { b with loaded := true }))

/-- R89: a LOAD writes the stationary tiles of the blocks it serves. -/
def execLoad (h : Fin 8) (c : Fin 66) (s : State) : Host.Outcome State Fault Refusal :=
  .next (s.after <| match s.nextLoad h.val c.val with
    | [] => s
    | x :: rest =>
      if !s.serving then s else
      ((x :: rest).foldl State.loadBlock s).bump (LOAD_EVENTS.LOAD_CYCLES h.val c.val) (loadSize x))

/-- R91, R92: front and back of the segments of a block that lacked its next K-tile change places. -/
def Core.swapBanks (b : Block) (p : Pick) (k : Core) : Core :=
  let segs := (k.lacking p b.index b.ktDone).map (·.1)
  { k.modBlock b (fun x => { x with loaded := false }) with
    front := segs.foldl (fun w x => w ^^^ (1#32 <<< x)) k.front,
    frontTile := segs.foldl (fun m x => mapPut .none m x (mapGet .none k.backTile x)) k.frontTile,
    backTile := segs.foldl (fun m x => mapPut .none m x (mapGet .none k.frontTile x)) k.backTile }

/-- R91: SWAP exchanges the banks of the oldest block whose LOAD has completed, and its passes over that K-tile run. -/
def execSwap (h : Fin 8) (c : Fin 66) (s : State) : Host.Outcome State Fault Refusal :=
  .next (s.after <| match (s.core h.val c.val).blocks.find? (·.loaded) with
    | none => s
    | some b =>
      match s.pick? b.pick with
      | none => s
      | some p => if !s.serving then s else (s.modCore h.val c.val (Core.swapBanks b p)).advance h.val c.val)

/-! ## Draining (R99, R100, R145, R149) -/

/-- Tiles of the strand store of Harness h in use. -/
def State.storeUsed (s : State) (h : Nat) : Nat :=
  (s.heddle.sums.map (fun x =>
    x.strands.countP (fun st => st.harness == h) + x.cells.countP (fun c => c.harness == h && c.frame.isNone))).sum

/-- The FP32 values of a partial's tile; none for exact integers, which have no FP32 form that keeps their value, and which
no pick of Table 8.2 brings. -/
def Cell.floats (c : Cell) : Option (List F32) :=
  c.elems.mapM (fun e => match e.2 with | .float x => some x.bits | .int _ _ => none)

/-- R149: may a partial of the store of Harness h spill? -/
def Cell.spillable (h : Nat) (c : Cell) : Bool := c.harness == h && c.frame.isNone && c.floats.isSome

/-- R149: a partial leaves the store: its values go to the frame, its flags stay. -/
def Cell.spillTo (stack : Nat) (c : Cell) : Cell :=
  { c with frame := some stack, spilled := c.floats.getD [],
           elems := c.elems.map (fun e => (e.1, .float ⟨0, e.2.sat⟩)) }

/-- R149: a partial's values come back from its frame. -/
def Cell.readBack (c : Cell) : Cell :=
  if c.frame.isNone then c else
  { c with frame := none, spilled := [],
           elems := c.elems.mapIdx (fun i e => (e.1, .float ⟨c.spilled.getD i 0, e.2.sat⟩)) }

/-- The frames of partials that have been read back go. -/
def State.freeSpill (s : State) (c : Cell) : State :=
  match c.frame with
  | none => s
  | some k => { s with tiers := { s.tiers with spillFrames := s.tiers.spillFrames.erase k } }

/-- A long sum in place of what it was. -/
def State.putSum (s : State) (x x' : LongSum) : State :=
  { s with heddle := { s.heddle with sums := s.heddle.sums.map (fun y => if y == x then x' else y) } }

/-- R149, R256: the stored partial of the highest tree level of Harness h, the first of those, spills in FP32 to a free frame
of Beam; none where that cannot be. -/
def State.spill (s : State) (h : Nat) : Option State :=
  if !s.flag RN_CTRL.SPILL_ENABLE || s.freeFrames == 0 then none else
  let best := s.heddle.sums.foldl (fun (b : Option (LongSum × Cell)) x =>
    x.cells.foldl (fun b c =>
      if c.spillable h && b.all (fun y => decide (y.2.level < c.level)) then some (x, c) else b) b) none
  match best with
  | none => none
  | some (x, c) =>
    let stack := s.bestStack
    let s := s.putSum x { x with cells := x.cells.map (fun y => if y == c then y.spillTo stack else y) }
    let s := { s with tiers := { s.tiers with spillFrames := s.tiers.spillFrames ++ [stack] } }
    let s := s.keepFree
    some (s.bump (RN_STORE.SPILLS h))

/-- R149: room for one more strand in the store of Harness h, after a spill where one is needed. -/
def State.storeRoom (s : State) (h : Nat) : Option State :=
  if s.storeUsed h < 2048 then some s else s.spill h

/-- The long sum of a gradient pick. -/
def State.isSum (s : State) (p : Pick) (x : LongSum) : Bool :=
  x.rev == ((s.bolt? p.bolt).map (fun b => angleRev (dAngle b.desc))).getD 0 && x.adapter == p.adapter && x.layer == p.layer &&
    x.proj == p.proj && x.isB == (p.purpose == .dB)

/-- R145: a drained tile of a gradient pick enters the network as a strand. -/
def State.addStrand (s : State) (p : Pick) (b : Block) (t : TileOut) : State :=
  let st : Strand := { harness := p.h, core := p.c, tile := t.tile, pick := p.id, firstTerm := b.firstTerm, outTile := t.outTile,
                       elems := t.outs.map (fun o => (65536 * o.row + o.col, Partial.ofSlot t.isInt o.slot)) }
  let sums := modWhere (s.isSum p) (fun x => { x with
    isInt := t.isInt, strands := x.strands ++ [st], last := (p.h, p.c, t.tile, p.id) }) s.heddle.sums
  ({ s with heddle := { s.heddle with sums := sums } }).bump RN_EVENTS.STRANDS

/-- Lanes of a drained tile, with the flags of the rows that fed them (R180). -/
def State.drainLanes (s : State) (p : Pick) (t : TileOut) : List Lane :=
  (tileLanes t).map (fun l =>
    let f := s.rowFlags p l.row
    { l with sat := l.sat || f.1, nan := l.nan || f.2 })

/-- Where a drained tile goes, if it is accepted: the Spindle's assembly or combine store, or the Reed Network. -/
def State.acceptTile (s : State) (p : Pick) (b : Block) (t : TileOut) : Option State :=
  let v := s.spindle p.h
  match p.purpose with
  | .dA | .dB => (s.storeRoom p.h).map (fun s => s.addStrand p b t)
  | .sprintDown =>
    match s.heddle.sprint with
    | none => some s
    | some f =>
      some { s with heddle := { s.heddle with sprint := some { f with parts := f.parts ++ [(coreKey p.h p.c, p.adapter, t)] } } }
  | _ =>
    if v.failed || !s.inService p.h then none
    else if p.combines then (if s.combineAccepts p.h p t then some (s.combineTile p.h p t) else none)
    else if s.classesRoom p.h p t.outs.length then some (s.feedClasses p.h p [p] (s.drainLanes p t))
    else none

/-- R168, R169: does the Spindle of Harness h refuse a drained tile that a core offers now? -/
def State.refusesDrain (s : State) (h : Nat) : Bool :=
  !(s.spindle h).failed && s.inService h && (List.range 66).any (fun c =>
    ((s.core h c).blocks.find? (fun b => !b.running && !b.drains.isEmpty)).any (fun b =>
      (s.pick? b.pick).any (fun p => !p.purpose.classes.isEmpty && b.drains.head?.any (fun t =>
        if p.combines then !s.combineAccepts h p t else !s.classesRoom h p t.outs.length))))

/-- R100: a pick retires: its rows commit, its Tally entry is buffered. -/
def State.retirePick (s : State) (p : Pick) : State :=
  let s := s.commitRows p p.rows
  let p := (s.pick? p.id).getD p
  let s := (if s.flag CU_CTRL.TALLY_ALL then s.tallyAdd p .retired 0 0 else s).removePick p
  (s.bump (PICK_EVENTS.RETIRED p.h p.c)).afterPick p

/-- R99: the oldest tile due drains, where it is accepted; the tiles of one block in the order of its pick's segments (log
entry 113). -/
def State.drainOne (s : State) (h c : Nat) : State :=
  match (s.core h c).blocks.find? (fun b => decide (b.kTiles ≤ b.ktDone) && !b.drains.isEmpty) with
  | none => s
  | some b =>
    match s.pick? b.pick, b.drains with
    | some p, t :: rest =>
      match s.acceptTile p b t with
      | none => s
      | some s =>
        let s := if t.sat then s.bump RN_FLAG_EVENTS.SAT_TILES else s
        let s := if t.nan then s.bump RN_FLAG_EVENTS.NAN_TILES else s
        let s := s.modPick p.id (fun q => { q with drained := q.drained + 1 })
        if !rest.isEmpty then
          (s.modCore h c (fun k => { k with
            blocks := modWhere (fun x => x.pick == b.pick && x.index == b.index) (fun x => { x with drains := rest }) k.blocks }))
        else
          let s := s.dropBlock h c b
          if p.blocks ≤ b.index + 1 && !(s.core h c).blocks.any (·.pick == p.id) && p.issued == p.blocks then
            s.retirePick ((s.pick? p.id).getD p)
          else if !p.kind.columns && p.ot b.index + 1 == p.outTiles then
            (s.commitRows ((s.pick? p.id).getD p) (p.part b.index p.rows)).closeVectors h
          else s
    | _, _ => s

/-! ## The activity ramp (R112 to R114, R413) -/

/-- Is a core kept ON: by RAMP_HARNESS, the flying-shuttle hold, or a halt? -/
def State.heldOn (s : State) (h c : Nat) : Bool :=
  (s.harness h).heldOn || s.heddle.sprintHold || s.haltCovers h c

/-- R112: after 256 idle ACLK cycles an ON core gates; its banks, scales and reed tiles stay. -/
def execCoreGate (h : Fin 8) (c : Fin 66) (s : State) : Host.Outcome State Fault Refusal :=
  .next (s.after <| let k := s.core h.val c.val
    if s.serving && k.power == .on && k.blocks.isEmpty && !s.heldOn h.val c.val then
      s.modCore h.val c.val (fun k => { k with power := .gated })
    else s)

/-- R113, R314: may a gated core ramp up: a block of one of its picks meets conditions 1 to 9, or its Harness or every core is held
up? -/
def State.rampDue (s : State) (h c : Nat) : Bool :=
  (s.core h c).power == .ramping || (s.harness h).heldOn || s.heddle.sprintHold ||
    (duePicks (s.queuePicks h c)).any (fun p => decide (p.issued < p.blocks) &&
      (s.causeTo9 p p.issued (s.blockTiles p p.issued) (p.stashTiles p.issued)).isNone)

/-- R113: a gated core ramps up over 42 ACLK cycles, at the end of which every lane group that carries a segment is
usable. -/
def execCoreRamp (h : Fin 8) (c : Fin 66) (s : State) : Host.Outcome State Fault Refusal :=
  .next (s.after <| if s.serving && (s.core h.val c.val).power != .on && s.rampDue h.val c.val then
      (s.modCore h.val c.val (fun k => { k with power := .on })).bump (PICK_EVENTS.RAMPS h.val c.val)
    else s)

/-- R314: the hold after the last flying-shuttle bolt ends. -/
def execSprintHoldExpiry (s : State) : Host.Outcome State Fault Refusal :=
  .next { s with heddle := { s.heddle with sprintHold := false } }

end Sys2Proof.Machine
end

