-- ==== Sys2Proof/Machine/Skein.lean ====
section
/-! DEFINITION. Commands of the Skein Table Unit: the directory commands of Table 9.3, boundary-deferred register
writes (R432), table definitions (R228) and row replacement (R237). -/

namespace Sys2Proof.Machine

/-! ## Directory commands (R218, Table 9.3) -/

/-- A directory command completes with a code. -/
def State.descDone (s : State) (code : Nat) : State :=
  s.complete ST_DESC_CMD.GO ST_DESC_CMD.BUSY ST_DESC_CMD.STATUS code

/-- The staged entry. -/
def State.staged (s : State) : Dir := ⟨(List.range 8).map (fun i => s.word (ST_DESC_STAGE.WORD i).off)⟩

/-- R214, R217, Table 9.3: is a field of a staged entry out of range for WRITE? -/
def State.badEntry (s : State) (d : Dir) : Bool :=
  d.policy == 3 || 6 < d.format || !(d.rank == 4 || (8 ≤ d.rank && d.rank ≤ 256 && d.rank % 8 == 0)) ||
    !(1 ≤ d.layers && d.layers ≤ 1024) || d.home % 32768 != 0 || d.curSlot != 0 || d.pending != 0 ||
    d.drainVersion != 0 || d.current == 0 || (setBits 16 d.projMask).any (fun p => (s.shape p).isNone)

/-- The entry that WRITE installs: VALID set, the engine's own fields at their first values (log entry 25), reserved bits zero
(R9). -/
def installed (d : Dir) : Dir :=
  let d := ((((((d.put 0 63 63 1).put 1 31 0 0).put 2 63 32 0).put 3 63 32 0).put 3 5 4 2).put 3 3 2 1).put 5 39 0 0
  let d := ((((d.put 0 43 41 0).put 0 15 11 0).put 3 19 6 0).put 4 63 52 0).put 5 63 40 0
  (d.put 6 63 0 0).put 7 63 0 0

/-- R222: the runs that the live map slots of an entry name. An entry that was never written names none. -/
def State.slotRuns (s : State) (d : Dir) : State × List Run :=
  if d.current == 0 then (s, []) else
  (d.liveSlots.flatMap (fun i => (List.range d.layers).map (fun l => (i, l)))).foldl (fun a il =>
    let e := a.1.mapEntry d il.1 il.2
    (e.1, a.2 ++ (runOfEntry e.2).toList)) (s, [])

/-- R222: runs that a map slot named before it was overwritten go back to the pool, where no slot names them now. -/
def State.freeOldRuns (s : State) (d : Dir) (old : List Run) : State :=
  let now := s.slotRuns d
  let rng := now.1.poolRange
  (old.filter (fun r => !now.2.any (fun q => q.addr == r.addr))).foldl (fun s r =>
    if rng.2 != 0 && decide (rng.1 * tileBytes ≤ r.addr) &&
        decide (r.addr + r.tiles * tileBytes ≤ (rng.1 + rng.2) * tileBytes) then
      s.poolMark (r.addr / tileBytes) r.tiles false else s) now.1

/-- Table 9.3: does a pick, or a gang that waits for its turn, name a version of adapter a? -/
def State.adapterNamed (s : State) (a : Nat) : Bool :=
  s.heddle.picks.any (fun p => p.adapter == a && p.version != 0) ||
    s.heddle.harnesses.any (fun h => h.gangs.any (fun x => x.adapter == a && x.version != 0))

/-- Table 9.3, WRITE. -/
def State.descWrite (s : State) (a : Nat) : State :=
  let d := s.staged
  match s.rawDir a with
  | none => s.descDone 6
  | some old =>
    if old.valid then s.descDone 1
    else if s.adapterNamed a then s.descDone 2
    else if s.badEntry d then s.descDone 3
    else
      let runs := s.slotRuns old
      let s := (runs.1.putDir a (installed d)).freeOldRuns (installed d) runs.2
      let s := { s with skein := { s.skein with latches := mapDel s.skein.latches a } }
      (s.setPendList a false).descDone 0

/-- Table 9.3, READ. -/
def State.descRead (s : State) (a : Nat) : State :=
  match s.rawDir a with
  | none => s.descDone 6
  | some d =>
    let s := (List.range 8).foldl (fun s i => s.setWord (ST_DESC_STAGE.WORD i).off (d.words.getD i 0)) s
    s.descDone 0

/-- Table 9.3, INVALIDATE. -/
def State.descInvalidate (s : State) (a : Nat) : State :=
  match s.rawDir a with
  | none => s.descDone 6
  | some d =>
    if !d.valid then s.descDone 1
    else if s.updBusy a then s.descDone 5
    else
      let s := s.discardPending a
      let d := (s.rawDir a).getD d
      (s.putDir a (d.put 0 63 63 0)).descDone 0

/-- Table 9.3, UPDATE: the staged fields wait for the boundary. -/
def State.descUpdate (s : State) (a : Nat) : State :=
  match s.rawDir a with
  | none => s.descDone 6
  | some d =>
    if !d.valid then s.descDone 1
    else if s.staged.policy == 3 then s.descDone 3
    else
      let us := s.skein.updates.filter (fun u => u.1 != a) ++ [(a, s.staged.words)]
      ({ s with skein := { s.skein with updates := us } }).descDone 0

/-- Table 9.3, SET_PENDING: a pending version from the map at STAGE[1]; its number returns in STAGE[0]. -/
def State.descSetPending (s : State) (a : Nat) : State :=
  match s.rawDir a with
  | none => s.descDone 6
  | some d =>
    let top := max d.current d.pending
    if !d.valid then s.descDone 1
    else if d.pendSlot == d.curSlot || (d.drainVersion != 0 && d.pendSlot == d.drainSlot) || d.pendSlot == 3 then
      s.descDone 2
    else if s.updBusy a then s.descDone 5
    else if top == 0xFFFFFFFF then s.descDone 4
    else
      let old := if d.pending == 0 then (s, []) else
        (List.range d.layers).foldl (fun (a : State × List Run) l =>
          let e := a.1.mapEntry d d.pendSlot l
          (e.1, a.2 ++ (runOfEntry e.2).toList)) (s, [])
      let s := old.1
      let src := bitsOf (s.word (ST_DESC_STAGE.WORD 1).off).toNat 51 0
      let r := s.loomReadOpen 8 src (8 * d.layers)
      let s := r.1.loomWrite 8 (d.mapAddr d.pendSlot 0) r.2
      let d' := d.put 2 63 32 (top + 1)
      let s := ((s.putDir a d').setPendList a true).freeOldRuns d' old.2
      let o := (ST_DESC_STAGE.WORD 0).off
      (s.setWord o (putBits (s.word o) 31 0 (top + 1))).descDone 0

/-- R218: carry out a directory command; DIR_NOT_READY comes before every other refusal. -/
def State.runDesc (s : State) (op a : Nat) : State :=
  if !s.dirReady then s.descDone 6 else
  let s := s.reachDir a
  match op with
  | 0 => s.descWrite a
  | 1 => s.descRead a
  | 2 => s.descInvalidate a
  | 3 => s.descUpdate a
  | 4 => s.descSetPending a
  | _ => s.descDone 3

/-- R218, R249: GO of ST_DESC_CMD; the command waits while IN_BOUNDARY is 1, and for the tiles that it reads. -/
def State.takeDesc (s : State) : State :=
  (s.set ST_DESC_CMD.BUSY 1).addWork (.directory (s.get ST_DESC_CMD.OP) (s.get ST_DESC_CMD.ADAPTER))

/-- A write of ST_DESC_CMD. -/
def State.writeDescCmd (s : State) (v : W64) : State :=
  s.issue v ST_DESC_CMD.GO ST_DESC_CMD.BUSY State.takeDesc

/-- The word that issues a directory command. -/
def descWord (op a : Nat) : W64 :=
  cmdWord [(ST_DESC_CMD.GO, 1), (ST_DESC_CMD.OP, op), (ST_DESC_CMD.ADAPTER, a)]

/-! ## Boundary-deferred registers (R432, R213) -/

/-- R432: the registers whose writes take effect at the next boundary. -/
def isDeferred (off : Nat) : Bool :=
  off == ST_DIR_BASE.VALID.off || off == ST_RUN_POOL.VALID.off || off == ST_LEARN_CTRL.ENABLE.off ||
    off == ST_LEARN_RECORD_BASE.VALID.off || off == ST_LEARN_STASH.VALID.off ||
    ((ST_SHAPE.VALID 0).off ≤ off && off < (ST_SHAPE.VALID 0).off + 128 && off % 8 == 0) ||
    (match findReg off with
     | some r => r.base == (ST_TP_CTRL.ENABLE 0).off
     | none => false)

/-- R213: the directory's two pages. -/
def State.dirPages (s : State) : List Nat := [s.getF ST_DIR_BASE.BASE * 2, s.getF ST_DIR_BASE.BASE * 2 + 1]

/-- R213: a write of ST_DIR_BASE takes effect: the pages are checked and pinned, or DIR_NOT_WRITABLE is set. -/
def State.checkDirectory (s : State) : State :=
  let held := (s.tiers.pages.filter (fun p => p.2.dirPin)).map (·.1)
  let s := held.foldl (fun s p => s.modPage p (fun q => { q with dirPin := false })) s
  let s := s.set ST_STATUS.DIR_READY 0
  if s.getF ST_DIR_BASE.VALID != 1 then s
  else if s.dirPages.all (fun p => (s.regionOfPage p).any (·.wb)) then
    (s.dirPages.foldl (fun s p => s.modPage p (fun q => { q with dirPin := true })) s).set ST_STATUS.DIR_READY 1
  else s.set ST_STATUS.DIR_NOT_WRITABLE 1

/-- A deferred value takes effect. Of a new run pool, the tiles that the engine took before stay in use until their runs return
(R222). -/
def State.deferredEffect (s : State) (off : Nat) : State :=
  if off == ST_DIR_BASE.VALID.off then s.checkDirectory else s

/-- R432: every value held for the boundary takes effect. -/
def State.applyDeferred (s : State) : State :=
  let offs := s.skein.deferred.map (·.1)
  let s := { s with skein := { s.skein with deferred := [] } }
  offs.foldl State.deferredEffect s

/-- Is a width of ST_SHAPE in range? -/
def widthOk (w : Nat) : Bool := 32 ≤ w && w ≤ 32768 && w % 32 == 0

/-- A write of ST_SHAPE that sets VALID with a width out of range is ignored. -/
def shapeIgnored (off : Nat) (v : W64) : Bool :=
  (ST_SHAPE.VALID 0).off ≤ off && off < (ST_SHAPE.VALID 0).off + 128 && bitOf v.toNat 63 &&
    !(widthOk (bitsOf v.toNat 31 16) && widthOk (bitsOf v.toNat 15 0))

/-- R432: a write of a boundary-deferred register: at once while no revolution is current, else at the boundary. -/
def State.writeDeferred (s : State) (off : Nat) (v : W64) : State :=
  if shapeIgnored off v then s
  else
    let old := s.inForce off
    let s := s.writeFields off v
    if s.revValid then
      { s with skein := { s.skein with deferred := mapIns s.skein.deferred off old } }
    else ({ s with skein := { s.skein with deferred := mapDel s.skein.deferred off } }).deferredEffect off

/-- R432: DEFERRED_REGISTER_WRITE. -/
def execDeferredRegisterWrite (off : BitVec 26) (v : W64) (s : State) : Host.Outcome State Fault Refusal :=
  .next (s.after <| if isDeferred off.toNat then s.atPort off.toNat (fun s => s.writeDeferred off.toNat v) else s)

/-! ## Embedding tables (R228, R229) -/

/-- R229: the free list is filled with the slots above PHYS_ROWS. -/
def State.fillFreeList (s : State) (t : Table) : State :=
  if t.kind == 2 then s else
  let bytes := (List.range t.shadow).flatMap (fun i => toLe 4 (t.phys + i))
  (s.queueWrite 8 none t.free bytes).setRing t.k ⟨0, t.shadow⟩

/-- A table write is refused with a reason; the definition stays. -/
def State.tableRefuse (s : State) (reason : Nat) : State :=
  (s.set ST_STATUS.TABLE_REFUSED 1).set ST_STATUS.TABLE_REASON reason

/-- R228: a write of a word of ST_TABLE[k]. -/
def State.writeTable (s : State) (k word : Nat) (v : W64) : State :=
  let off := (ST_TABLE.VALID k).off + 8 * word
  if s.flag (ST_TABLE.VALID k) then
    if word == 0 && !bitOf v.toNat 63 then s.writeFields off v else s.tableRefuse 6
  else if word == 0 && bitOf v.toNat 63 then
    let s' := s.writeFields off v
    let t := s'.tableWords k
    let reason := s.tableReason t
    if reason != 0 then s.tableRefuse reason
    else (s'.set (ST_TABLE.REVISION k) 1).fillFreeList t
  else s.writeFields off v

/-- R228: TABLE_DEFINE. -/
def execTableDefine (k : Fin 64) (word : Fin 8) (v : W64) (s : State) : Host.Outcome State Fault Refusal :=
  .next (s.after <| s.atPort ((ST_TABLE.VALID k.val).off + 8 * word.val) (fun s => s.writeTable k.val word.val v))

/-! ## Row replacement (R237) -/

/-- GO of ST_REPLACE_CMD. -/
def State.takeReplace (s : State) : State :=
  let k := s.get ST_REPLACE_CMD.TABLE
  let p := s.get ST_REPLACE_CMD.ROW
  let fin := s.complete ST_REPLACE_CMD.GO ST_REPLACE_CMD.BUSY ST_REPLACE_CMD.STATUS
  match s.table? k with
  | none => fin 1
  | some t =>
    if t.kind == 2 then fin 2
    else if t.phys ≤ p then fin 3
    else
      let s := s.set ST_REPLACE_CMD.BUSY 1
      let src := s.get ST_REPLACE_SRC.SRC / 64 * 64
      ({ s with skein := { s.skein with
          replacing := some (k, p, src, s.flag ST_REPLACE_CMD.CLEAR) } })

/-- A write of ST_REPLACE_CMD. -/
def State.writeReplaceCmd (s : State) (v : W64) : State :=
  s.issue v ST_REPLACE_CMD.GO ST_REPLACE_CMD.BUSY State.takeReplace

/-- The word that issues a replacement. -/
def replaceWord (clear : Bool) (k p : Nat) : W64 :=
  cmdWord [(ST_REPLACE_CMD.GO, 1), (ST_REPLACE_CMD.CLEAR, if clear then 1 else 0), (ST_REPLACE_CMD.TABLE, k),
           (ST_REPLACE_CMD.ROW, p)]

end Sys2Proof.Machine
end

