-- ==== Sys2Proof/Machine/Tiers.lean ====
section
/-! DEFINITION. Commands of the Tier Manager: serving fills and write-backs (R251), their completion (R250, R266), landed
writes (R265), error responses (R276), regions and namespaces (R242, R274), and the page commands of Table 10.13. -/

namespace Sys2Proof.Machine

/-! ## Page commands (Table 10.13) -/

/-- A page command completes with a code; PINNED refusals are counted. -/
def State.pageDone (s : State) (code : Nat) : State :=
  let s := { s with tiers := { s.tiers with cmd := none } }
  let s := if code == 1 then s.bump TM_PIN_EVENTS.REFUSED else s
  s.complete TM_PAGE_CMD.GO TM_PAGE_CMD.BUSY TM_PAGE_CMD.STATUS code

/-- What a page command does at one page: it goes on, waits for what it has begun, is to be tried again later, or stops with a
code. -/
inductive PageStep where
  | go (s : State)
  | wait (s : State)
  | later (s : State)
  | stop (s : State) (code : Nat)

/-- FLUSH at a page (R266). -/
def State.flushPage (s : State) (p : Nat) : PageStep :=
  match s.regionOfPage p with
  | none => .stop s 2
  | some r =>
    match (s.page p).st with
    | .dirty => if s.backFailed r then .stop s 5 else .wait (s.startWriteBack p false)
    | .writing => if s.backFailed r then .stop s 5 else .wait s
    | _ => .go s

/-- EVICT at a page (R259). A page whose backing unit has failed is not evicted (R248): refused UNIT_FAILED (log entry 120). -/
def State.evictCmdPage (s : State) (p : Nat) : PageStep :=
  let st := (s.page p).st
  if !st.held then .go s
  else if s.pagePinned p then .stop s 1
  else if st == .home then .stop s 3
  else if (s.regionOfPage p).any s.backFailed then .stop s 5
  else match st with
  | .dirty => .wait (s.startWriteBack p true)
  | .writing => .wait (s.modPage p (fun q => { q with evicting := true }))
  | _ => .go (s.dropPage p .absent)

/-- INVALIDATE at a page (R259). -/
def State.invalidateCmdPage (s : State) (p : Nat) : PageStep :=
  let st := (s.page p).st
  if !st.held then .go s
  else if s.pagePinned p then .stop s 1
  else if st == .home || st == .writing then .stop s 3
  else .go (s.dropPage p .absent)

/-- PIN and UNPIN at a page (R257). -/
def State.pinCmdPage (s : State) (p : Nat) (on : Bool) : PageStep :=
  match s.regionOfPage p with
  | none => .stop s 2
  | some _ => .go (s.modPage p (fun q => { q with rtPin := on }))

/-- RESTORE at a page: LOST to ABSENT in a BOARD region. -/
def State.restorePage (s : State) (p : Nat) : PageStep :=
  match s.regionOfPage p with
  | some r => if r.backing == 1 && (s.page p).st == .lost then .go (s.modPage p (fun q => { q with st := .absent }))
              else .stop s 3
  | none => .stop s 3

/-- A frame for a page that ZERO brings back: HOME in a NONE region, else DIRTY with every tile zero and dirty. -/
def State.zeroPage (s : State) (r : Region) (p : Nat) : State :=
  let s := s.purgePage p
  let s := { s with tiers := { s.tiers with beam := mapDelRange s.tiers.beam (p * pageBytes) pageBytes,
                                            wbs := s.tiers.wbs.filter (·.page != p) } }
  s.modPage p (fun q => { q with
    st := if r.backing == 0 then .home else .dirty, base := .valid, evicting := false, wb := [],
    tiles := if r.backing == 0 then [] else (List.range 64).map (fun i => (i, ⟨.valid, true⟩)),
    lastUse := s.revolution })

/-- ZERO at a page: a LOST page, or any unpinned page. A page outside every region is an unmapped access (R244) and is
passed over; the write to a FAILED page is dropped (R265). -/
def State.zeroCmdPage (s : State) (p : Nat) : PageStep :=
  match s.regionOfPage p with
  | none => .go (s.unmapped (p * pageBytes))
  | some r =>
    let q := s.page p
    if s.pagePinned p && q.st != .lost then .stop s 1
    else if !r.wb then .stop s 4
    else if s.pageFailed p then .go (s.tierLog 1 (s.backUnit r) (p * pageBytes))
    else if q.st.held then .go (s.zeroPage r p)
    else
      let s := s.makeRoom
      if s.freeFrames == 0 then .later s
      else .go (((s.takeFrame p .clean .invalid).zeroPage r p).keepFree)

/-- COPY of a page: 64 tiles as engine writes, read through Beam (R249, R265). The bytes of a tile that cannot be read are open. -/
def State.copyPage (s : State) (p dst : Nat) : PageStep :=
  if (s.regionOfPage (dst / pageBytes)).any (fun r => !r.wb) then .stop s 4 else
  match s.regionOfPage p, s.regionOfPage (dst / pageBytes) with
  | some _, some _ =>
    let r := s.attempt (fun s => (List.range 64).foldl (fun s i =>
      let r := s.loomReadOpen 7 ((64 * p + i) * tileBytes) tileBytes
      r.1.queueWrite 7 none (dst + i * tileBytes) r.2) s)
    if r.2 then .wait r.1 else .later r.1
  | _, _ => .stop s 2

/-- READ64: 8 bytes of the Loom range into TM_PAGE_ARG (R249). The value of bytes that cannot be read is open. -/
def State.read64 (s : State) (a : Nat) : PageStep :=
  if (s.regionOfPage (a / pageBytes)).isNone then .stop (s.unmapped a) 2 else
  let r := s.attempt (fun s =>
    let r := s.loomReadOpen 7 a 8
    r.1.setWord TM_PAGE_ARG.ARG.off (BitVec.ofNat 64 (leNat r.2)))
  if r.2 then .go r.1 else .later r.1

/-- WRITE64: 8 bytes of the Loom range (R249). -/
def State.write64 (s : State) (a : Nat) (w : W64) : PageStep :=
  match s.regionOfPage (a / pageBytes) with
  | none => .stop (s.unmapped a) 2
  | some r =>
    if !r.wb then .stop s 4 else
    let r := s.attempt (fun s => s.loomPutWord 7 a w)
    if r.2 then .go r.1 else .later r.1

/-- CLEAR_POISON at a page: POISONED tiles become INVALID. -/
def State.clearPoisonPage (s : State) (p : Nat) : PageStep :=
  match s.regionOfPage p with
  | none => .stop s 2
  | some _ => .go (s.modPage p (fun q => ((List.range 64).filter (fun i => (q.tile i).st == .poisoned)).foldl
      (fun q i => q.setTile i ⟨.invalid, false⟩) q))

/-- The step of a page command at its present page. -/
def State.pageStep (s : State) (c : PageCmd) : PageStep :=
  match c.op with
  | 0 => s.flushPage c.page
  | 1 => s.evictCmdPage c.page
  | 2 => s.invalidateCmdPage c.page
  | 3 => s.pinCmdPage c.page true
  | 4 => s.pinCmdPage c.page false
  | 5 => s.restorePage c.page
  | 6 => s.zeroCmdPage c.page
  | 7 => s.copyPage c.page c.arg
  | 8 => s.read64 c.page
  | 9 => s.write64 c.page (BitVec.ofNat 64 c.arg)
  | _ => s.clearPoisonPage c.page

/-- Carry a page command on from page to page, in ascending order, until it waits, is refused, or is done. A page under
way is taken up again only once what it waits for has ended. -/
def State.runPageCmd : Nat → State → PageCmd → State
  | 0, s, _ => s
  | n + 1, s, c =>
    if c.left == 0 then
      let s := if c.op == 0 then s.bump TM_WRITE_EVENTS.FLUSHES else s
      s.pageDone 0
    else
      let next : PageCmd := { c with page := c.page + 1, left := c.left - 1, arg := c.arg + pageBytes, begun := false }
      if c.begun && c.op == 7 then
        if s.tiers.writes.any (fun w => w.source == 7) then { s with tiers := { s.tiers with cmd := some c } }
        else State.runPageCmd n s next
      else if c.begun && c.op == 1 && !(s.page c.page).st.held then State.runPageCmd n s next
      else match s.pageStep c with
        | .go s => State.runPageCmd n s next
        | .stop s code => s.pageDone code
        | .wait s => { s with tiers := { s.tiers with cmd := some { c with begun := true } } }
        | .later s => { s with tiers := { s.tiers with cmd := some { c with begun := false } } }

/-- Take up the page command that waits, after something it may wait for has ended. -/
def State.resumePageCmd (s : State) : State :=
  match s.tiers.cmd with
  | none => s
  | some c => State.runPageCmd (c.left + 1) s c

/-- RETURN_UNIT (R279): acts only in the IDLE phase; a unit that has not failed is passed over. -/
def State.returnUnitCmd (s : State) : State :=
  let u := bitsOf (s.get TM_PAGE_ARG.ARG) 3 0
  if s.phase != 0 then s.pageDone 6
  else if u < 4 then s.pageDone 3
  else if u < 9 && s.unitFailed u then
    (s.set TM_STATUS.UNIT_FAILED (s.get TM_STATUS.UNIT_FAILED - 2 ^ u)).pageDone 0
  else s.pageDone 0

/-- GO of TM_PAGE_CMD. -/
def State.takePage (s : State) : State :=
  let op := s.get TM_PAGE_CMD.OP
  let s := (s.set TM_PAGE_CMD.BUSY 1).set TM_PAGE_CMD.WINNER 0
  if op == 11 then s.returnUnitCmd
  else if 11 < op then s.pageDone 3
  else
    let word := op == 8 || op == 9
    let n := if word then 1 else max 1 (s.get TM_PAGE_CMD.COUNT)
    let a := s.get TM_PAGE_ADDR.ADDR
    let x := s.get TM_PAGE_ARG.ARG
    let c : PageCmd := { op := op, page := if word then a / 8 * 8 else a / pageBytes, left := n,
                         arg := if word then x else bitsOf x 51 0 / pageBytes * pageBytes }
    State.runPageCmd (n + 1) s c

/-- A write of TM_PAGE_CMD. -/
def State.writePageCmd (s : State) (v : W64) : State := s.issue v TM_PAGE_CMD.GO TM_PAGE_CMD.BUSY State.takePage

/-- The word that issues a page command. -/
def pageWord (op count : Nat) : W64 :=
  cmdWord [(TM_PAGE_CMD.GO, 1), (TM_PAGE_CMD.OP, op), (TM_PAGE_CMD.COUNT, count)]

/-- R51: a page command defeated in its cycle completes with ORDER_REJECTED and names the winner. -/
def State.pageLost (s : State) (v : W64) (r : Rival) : State :=
  s.issue v TM_PAGE_CMD.GO TM_PAGE_CMD.BUSY (fun s =>
    (s.pageDone orderRejected).set TM_PAGE_CMD.WINNER (rivalCode r))

/-- A page command that a contradicting order of its cycle may defeat; it ranks as a mailbox order, master 3 (R258);
one identical to an order of the cycle that has taken effect is done (R51). -/
def State.pageOrder (s : State) (op count : Nat) (rival : Option Rival) : State :=
  match defeatedBy 3 rival with
  | some r => s.pageLost (pageWord op count) r
  | none =>
    if rival == some .same then s.issue (pageWord op count) TM_PAGE_CMD.GO TM_PAGE_CMD.BUSY (State.pageDone · 0)
    else s.writePageCmd (pageWord op count)

/-- R266: FLUSH. -/
def execFlush (count : BitVec 32) (s : State) : Host.Outcome State Fault Refusal :=
  .next (s.after <| s.atPort TM_PAGE_CMD.GO.off (fun s => s.writePageCmd (pageWord 0 count.toNat)))

/-- R259: EVICT. -/
def execEvict (count : BitVec 32) (rival : Option Rival) (s : State) : Host.Outcome State Fault Refusal :=
  .next (s.after <| s.atPort TM_PAGE_CMD.GO.off (fun s => s.pageOrder 1 count.toNat rival))

/-- R259: INVALIDATE. -/
def execPageInvalidate (count : BitVec 32) (rival : Option Rival) (s : State) : Host.Outcome State Fault Refusal :=
  .next (s.after <| s.atPort TM_PAGE_CMD.GO.off (fun s => s.pageOrder 2 count.toNat rival))

/-- R257: PIN. -/
def execPin (count : BitVec 32) (rival : Option Rival) (s : State) : Host.Outcome State Fault Refusal :=
  .next (s.after <| s.atPort TM_PAGE_CMD.GO.off (fun s => s.pageOrder 3 count.toNat rival))

/-- R257: UNPIN. -/
def execUnpin (count : BitVec 32) (s : State) : Host.Outcome State Fault Refusal :=
  .next (s.after <| s.atPort TM_PAGE_CMD.GO.off (fun s => s.writePageCmd (pageWord 4 count.toNat)))

/-- R248: RESTORE. -/
def execRestore (count : BitVec 32) (s : State) : Host.Outcome State Fault Refusal :=
  .next (s.after <| s.atPort TM_PAGE_CMD.GO.off (fun s => s.writePageCmd (pageWord 5 count.toNat)))

/-- R248: ZERO. -/
def execZero (count : BitVec 32) (s : State) : Host.Outcome State Fault Refusal :=
  .next (s.after <| s.atPort TM_PAGE_CMD.GO.off (fun s => s.writePageCmd (pageWord 6 count.toNat)))

/-- R267: COPY. -/
def execCopy (count : BitVec 32) (s : State) : Host.Outcome State Fault Refusal :=
  .next (s.after <| s.atPort TM_PAGE_CMD.GO.off (fun s => s.writePageCmd (pageWord 7 count.toNat)))

/-- R249: READ64. -/
def execRead64 (s : State) : Host.Outcome State Fault Refusal :=
  .next (s.after <| s.atPort TM_PAGE_CMD.GO.off (fun s => s.writePageCmd (pageWord 8 0)))

/-- R249: WRITE64. -/
def execWrite64 (s : State) : Host.Outcome State Fault Refusal :=
  .next (s.after <| s.atPort TM_PAGE_CMD.GO.off (fun s => s.writePageCmd (pageWord 9 0)))

/-- R276: CLEAR_POISON. -/
def execClearPoison (count : BitVec 32) (s : State) : Host.Outcome State Fault Refusal :=
  .next (s.after <| s.atPort TM_PAGE_CMD.GO.off (fun s => s.writePageCmd (pageWord 10 count.toNat)))

/-- R279: RETURN_UNIT. -/
def execReturnUnit (s : State) : Host.Outcome State Fault Refusal :=
  .next (s.after <| s.atPort TM_PAGE_CMD.GO.off (fun s => s.writePageCmd (pageWord 11 0)))

/-! ## Regions and namespaces (R242, R243, R274, R322) -/

/-- R274: is the namespace bound, and with 4,096-byte LBAs: its capacity in LBAs, by the lowest valid entry. -/
def State.namespaceEntry (s : State) (nsid : Nat) : Option Nat :=
  (List.range 8).find? (fun j => s.flag (TM_FLASH_NS.VALID j) && s.get (TM_FLASH_NS.NSID j) == nsid)

/-- R274: bound queues of an entry. -/
def State.boundQueues (s : State) (j : Nat) : List Nat :=
  setBits 8 (s.get (TM_FLASH_NS.QUEUES j) &&& s.get TM_FLASH_CTRL.BOUND)

/-- R271: bytes of the Board space that a Board region may use. -/
def State.boardSpace (s : State) (r : Region) : Nat :=
  if s.interleaved then
    s.ports * ((List.range s.ports).map (fun p => s.get (TM_BOARD_PORT.SIZE p))).foldl min (2 ^ 32) * pageBytes
  else if r.port < s.ports then s.get (TM_BOARD_PORT.SIZE r.port) * pageBytes else 0

/-- R242, R322: is a region refused VALID? -/
def State.regionRefused (s : State) (r : Region) : Bool :=
  let twill := !s.interleaved
  let lc := s.fuses.lifecycle
  s.regions.any (fun q => q.k != r.k && decide (q.base < r.base + r.pages) && decide (r.base < q.base + q.pages)) ||
    r.pages == 0 || decide (2 ^ 31 < r.base + r.pages) || r.backing == 3 || (r.backing == 2 && r.wb) ||
    (r.backing == 1 && decide (s.boardSpace r <
      r.backBase + r.pages * pageBytes + (if twill then r.pages * 64 * 64 else 0))) ||
    (r.backing == 2 && (match s.namespaceEntry r.nsid with
      | none => true
      | some j => (s.boundQueues j).isEmpty || s.get (TM_FLASH_NS.LBA_SHIFT j) != 12 ||
          decide (s.get (TM_FLASH_NS.LBAS j) < r.backBase + 512 * r.pages + (if twill then r.pages else 0)))) ||
    (r.backing == 0 && decide (s.freeFrames < r.pages)) ||
    ((lc == 2 || lc == 3) && r.backing != 0 && !s.flag (SS_REGION_KEY.ENCRYPT r.k))

/-- R243, R245: stacks for the frames of `n` new HOME pages, each from the stack with the most free frames. -/
def homeStacks : Nat → List Nat → List Nat
  | 0, _ => []
  | n + 1, free =>
    let b := (List.range 4).foldl (fun b i => if free.getD b 0 < free.getD i 0 then i else b) 0
    b :: homeStacks n (modAt free b (· - 1))

/-- R243: the pages of a NONE region become HOME, filled with zeros. -/
def State.makeHome (s : State) (r : Region) : State :=
  let homes := homeStacks r.pages ((List.range 4).map s.stackFree)
  let new : SMap Page := homes.mapIdx (fun i st => (r.base + i,
    { s.page (r.base + i) with st := .home, stack := st, base := .valid, tiles := [], lastUse := s.revolution }))
  let old := s.tiers.pages
  let t := { s.tiers with
      pages := old.filter (fun p => decide (p.1 < r.base)) ++ new ++
               old.filter (fun p => decide (r.base + r.pages ≤ p.1)),
      beam := mapDelRange s.tiers.beam (r.base * pageBytes) (r.pages * pageBytes) }
  ({ s with tiers := t }).keepFree

/-- R243: may VALID clear: no page of the region is pinned or has a fill or write-back in flight. -/
def State.regionBusy (s : State) (r : Region) : Bool :=
  (mapRange s.tiers.pages r.base r.pages).any (fun p => s.pagePinned p.1 || p.2.st == .writing) ||
    s.tiers.fills.any (fun f => f.issued && decide (r.base ≤ f.tile / 64) && decide (f.tile / 64 < r.base + r.pages))

/-- R243: the region's frames are freed, dirty tiles included; nothing is written back. -/
def State.freeRegion (s : State) (r : Region) : State :=
  let sl := s.tiers.slices.map (fun m => m.filter (fun f =>
    !(decide (r.base ≤ f.2.tile / 64) && decide (f.2.tile / 64 < r.base + r.pages))))
  { s with tiers := { s.tiers with
      pages := mapDelRange s.tiers.pages r.base r.pages,
      beam := mapDelRange s.tiers.beam (r.base * pageBytes) (r.pages * pageBytes),
      slices := sl } }

/-- R242, R243: a write of a word of TM_REGION[k]. -/
def State.writeRegion (s : State) (k word : Nat) (v : W64) : State :=
  let off := (TM_REGION.VALID k).off + 8 * word
  if s.flag (TM_REGION.VALID k) then
    if word == 0 && !bitOf v.toNat 63 then
      let r := s.regionWords k
      if s.regionBusy r then s.set TM_STATUS.REGION_REFUSED 1
      else (s.freeRegion r).writeFields off v
    else s.set TM_STATUS.REGION_REFUSED 1
  else if word == 0 && bitOf v.toNat 63 then
    let s' := s.writeFields off v
    let r := s'.regionWords k
    if s.regionRefused r then s.set TM_STATUS.REGION_REFUSED 1
    else if r.backing == 0 then s'.makeHome r else s'.keepFree
  else s.writeFields off v

/-- R242: REGION_WRITE. -/
def execRegionWrite (k : Fin 64) (word : Fin 4) (v : W64) (s : State) : Host.Outcome State Fault Refusal :=
  .next (s.after <| s.atPort ((TM_REGION.VALID k.val).off + 8 * word.val) (fun s => s.writeRegion k.val word.val v))

/-- R274: a write of TM_FLASH_NS[j]; ignored where its NSID backs a valid region. -/
def State.writeFlashNs (s : State) (j word : Nat) (v : W64) : State :=
  let nsid := s.get (TM_FLASH_NS.NSID j)
  if s.flag (TM_FLASH_NS.VALID j) && s.regions.any (fun r => r.backing == 2 && r.nsid == nsid) then s
  else s.writeFields ((TM_FLASH_NS.VALID j).off + 8 * word) v

/-- R274: FLASH_NS_WRITE. -/
def execFlashNsWrite (j : Fin 8) (word : Fin 2) (v : W64) (s : State) : Host.Outcome State Fault Refusal :=
  .next (s.after <| s.atPort ((TM_FLASH_NS.VALID j.val).off + 8 * word.val) (fun s => s.writeFlashNs j.val word.val v))

/-- R274: QUEUE_PAIR_BIND: the host binds or unbinds a queue pair to the Flash port. -/
def execQueuePairBind (q : Fin 8) (bound : Bool) (s : State) : Host.Outcome State Fault Refusal :=
  let m := s.get TM_FLASH_CTRL.BOUND
  let off := if bitOf m q.val then m - 2 ^ q.val else m
  .next (s.after <| s.set TM_FLASH_CTRL.BOUND (if bound then off + 2 ^ q.val else off))

/-! ## Serving fills and write-backs (R251) -/

/-- The unit that serves a fill now: the stack of a VALID tile (a crossbar copy under R247 takes its place), else the
backing's unit; none while another fill fetches the tile. -/
def State.fillUnit (s : State) (f : Fill) : Option Nat :=
  let p := f.tile / 64
  match s.regionOfPage p with
  | none => none
  | some r =>
    if (s.page p).st.held then
      match ((s.page p).tile (f.tile % 64)).st with
      | .valid => some (s.page p).stack
      | .invalid => if r.backing == 0 then some (s.page p).stack
          else if s.backFailed r then none else some (s.backUnit r)
      | _ => none
    else if s.pageFailed p then none else some (s.backUnit r)

/-- R273: the bound queue with the fewest commands outstanding, below DEPTH. -/
def State.flashQueue (s : State) (nsid : Nat) : Option Nat :=
  match s.namespaceEntry nsid with
  | none => none
  | some j =>
    let out := fun q => (s.tiers.fills.filter (fun f => f.issued && f.unit == 8 && f.queue == q)).length
    let depth := max 1 (s.get TM_FLASH_CTRL.DEPTH)
    ((s.boundQueues j).filter (fun q => out q < depth)).foldl (fun b q =>
      match b with
      | none => some q
      | some x => if out q < out x then some q else b) none

/-- What becomes of a fill that its unit would serve. -/
inductive Served where
  | yes (s : State)
  | waits
  | gone (s : State)

/-- Remove one waiting fill. -/
def State.dropFill (s : State) (f : Fill) : State :=
  { s with tiers := { s.tiers with fills := s.tiers.fills.filter (fun g => !(g.tile == f.tile && g.slice == f.slice &&
      g.issued == f.issued)) } }

/-- R263: a prefetch fill is abandoned for its tile in its slice: the tile leaves the pin list of each set that asked for it. -/
def State.abandonFill (s : State) (f : Fill) : State :=
  let s := ((s.dropFill f).bump TM_PIN_EVENTS.NO_ROOM).set TM_IRQ_STATUS.PREFETCH_NO_ROOM 1
  match f.slice with
  | none => s
  | some h => { s with tiers := { s.tiers with
      sets := s.tiers.sets.map (fun p => if f.sets.contains p.1 then
        (p.1, { p.2 with tiles := p.2.tiles.filter (· != (f.tile, h)) }) else p) } }

/-- R254: the Bobbin frame of a fill: the one that already holds the tile, an empty one, or an evicted one. -/
def State.takeSlot (s : State) (f : Fill) (h : Nat) : Option (State × Nat) :=
  match s.frameOf h f.tile with
  | some fr => if fr.2.filling then none else
      some (s.modSlice h (fun m => mapIns m fr.1 { fr.2 with filling := true }), fr.1)
  | none =>
    match s.sliceFrame h with
    | none => none
    | some i =>
      let s := if (mapFind (s.slice h) i).isSome then s.bump (BC_SLICE_EVENTS.EVICTIONS h) else s
      let sets := (s.tiers.sets.filter (fun p => p.2.tiles.contains (f.tile, h))).map (·.1)
      some (s.modSlice h (fun m => mapIns m i { tile := f.tile, filling := true, sets := sets }), i)

/-- R251, R254, R255: a fill takes its Bobbin frame and its Beam frame and goes out, waits, or is abandoned. -/
def State.serveFill (s : State) (u : Nat) (f : Fill) : Served :=
  let p := f.tile / 64
  let q? := if u == 8 then (match s.regionOfPage p with | some r => s.flashQueue r.nsid | none => none) else some 0
  match q? with
  | none => .waits
  | some q =>
    let bob : Option (State × Option Nat) :=
      match f.slice with
      | none => some (s, none)
      | some h => (s.takeSlot f h).map (fun r => (r.1, some r.2))
    match bob with
    | none =>
      if !f.demand && s.sliceFull (f.slice.getD 0) && (s.frameOf (f.slice.getD 0) f.tile).isNone then
        .gone (s.abandonFill f)
      else .waits
    | some (s1, fr) =>
      let s1 := if (s1.page p).st.held then s1 else s1.makeRoom
      if !(s1.page p).st.held && s1.freeFrames == 0 then
        -- no frame in the pool yet: what the unit does is to begin the eviction that will free one
        if s.comingFrames != 0 || s.victims.isEmpty then .waits else .gone s.makeRoom
      else
        let s2 := if (s1.page p).st.held then s1.touchPage p else s1.takeFrame p .clean .invalid
        let st := s2.tileState f.tile
        let s2 := if st == .valid then s2 else s2.modPage p (fun q => q.setTile (f.tile % 64) ⟨.fetching, false⟩)
        let s2 := (s2.modPage p (fun q => { q with pins := q.pins + 1 })).keepFree
        let from_ := match f.slice with
          | some h => (List.range 8).find? (fun k => k != h && s.sliceReady k f.tile f.sectors)
          | none => none
        let fs := s2.tiers.fills.map (fun g => if g == f then
          { f with issued := true, unit := u, frame := fr, queue := q, keyed := s2.keyThere p, copied := from_ } else g)
        .yes { s2 with tiers := { s2.tiers with fills := fs } }

/-- The first fill of a list that its unit can serve now. -/
def State.serveFirst (s : State) (u : Nat) : List Fill → Option State
  | [] => none
  | f :: t =>
    match s.serveFill u f with
    | .yes s => some s
    | .gone s => some s
    | .waits => s.serveFirst u t

/-- Table 10.4: at the dirty limit a DIRTY page backed by the unit enters WRITING, the one used longest ago first (log entry
121), where no write-back of the unit waits. -/
def State.limitDirty (s : State) (u : Nat) : State :=
  if s.dirtyFrames < s.get TM_CTRL.DIRTY_LIMIT || s.tiers.wbs.any (fun w => w.unit == u && !w.issued) then s else
  let old := sortBy (fun (a b : Nat × Page) => decide (a.2.lastUse < b.2.lastUse))
    (s.tiers.pages.filter (fun p => p.2.st == .dirty && (s.regionOfPage p.1).any (fun r => s.backUnit r == u)))
  match old with
  | [] => s
  | p :: _ => s.startWriteBack p.1 false

/-- A write-back of the unit goes out, where its key and its unit are there. -/
def State.serveWriteBack (s : State) (u : Nat) : Option State :=
  if s.unitFailed u then none else
  let s := s.limitDirty u
  match s.tiers.wbs.find? (fun w => w.unit == u && !w.issued) with
  | none => none
  | some w =>
    some { s with tiers := { s.tiers with wbs := s.tiers.wbs.map (fun x => if x == w then { w with issued := true, keyed := s.keyThere w.page } else x) } }

/-- Fills whose tile is unmapped, POISONED, LOST or FAILED end: they make no block wait (R252); the first kind is an access to no
region (R244). A fill whose sectors are already ready has nothing left to bring. -/
def State.pruneFills (s : State) : State :=
  let s := s.noteUnmapped ((s.tiers.fills.filter (fun f => !f.issued)).map (·.tile))
  let keep := s.tiers.fills.filter (fun f => f.issued || !(s.tileError f.tile ||
    (match f.slice with
     | some h => s.sliceReady h f.tile f.sectors
     | none => ((s.page (f.tile / 64)).tile (f.tile % 64)).st == .valid && (s.page (f.tile / 64)).st.held)))
  { s with tiers := { s.tiers with fills := keep } }

/-- R251: TILE_FILL_ISSUE: the unit serves its next request in class order: demand fills, prefetch fills, write-backs, with
write-backs above prefetch while DIRTY_FRAMES is at or above DIRTY_LIMIT. -/
def State.issueFill (s : State) (u : Nat) : State :=
  let s := s.pruneFills
  if s.unitFailed u then s else
  let mine := s.tiers.fills.filter (fun f => !f.issued && s.fillUnit f == some u)
  let demand := s.serveFirst u (mine.filter (·.demand))
  let pre := s.serveFirst u (mine.filter (fun f => !f.demand))
  let wb := s.serveWriteBack u
  let order := if s.get TM_CTRL.DIRTY_LIMIT ≤ s.dirtyFrames then [demand, wb, pre] else [demand, pre, wb]
  ((order.filterMap id).head?).getD s

/-- R251: TILE_FILL_ISSUE. -/
def execTileFillIssue (u : Fin 9) (s : State) : Host.Outcome State Fault Refusal :=
  .next (s.after <| if s.serving then s.issueFill u.val else s)

/-- R253: the estimate that sets a frame's count at its fill. -/
def State.fillCount (s : State) (o : FillOwner) : Nat :=
  let est := match o with
    | .none => 0
    | .key k => s.sketchEst k
    | .row k _ _ => s.sketchEst k
  min 65535 (est / 2 ^ s.get BC_CTRL.HOT_SHIFT)

/-- R247: the bytes of the frame that a fill is copied from, while it still holds the sectors. -/
def State.copySource (s : State) (f : Fill) : Option (SMap Byte) :=
  match f.copied with
  | none => none
  | some k => if s.sliceReady k f.tile f.sectors then (s.frameOf k f.tile).map (·.2.data) else none

/-- R250: the tile's sectors land in its slice and its ready bit is set. -/
def State.landFill (s : State) (f : Fill) : State :=
  match f.slice, f.frame with
  | some h, some i =>
    let fr := (mapFind (s.slice h) i).getD { tile := f.tile }
    let secs := sortNub (fr.sectors ++ f.sectors)
    let base := f.tile * tileBytes
    let src := (s.copySource f).getD s.tiers.beam
    let data := f.sectors.foldl (fun m j =>
      putRun m (base + 512 * j) (getRun src (base + 512 * j) 512)) fr.data
    let s := s.modSlice h (fun m => mapIns m i
      { fr with sectors := secs, filling := false, data := data, count := s.fillCount f.owner })
    s.bump (BC_SLICE_EVENTS.FILLS h)
  | _, _ => s

/-- A fill that brought nothing lets its Bobbin frame go. -/
def State.voidFill (s : State) (f : Fill) : State :=
  match f.slice, f.frame with
  | some h, some i =>
    let fr := (mapFind (s.slice h) i).getD { tile := f.tile }
    s.modSlice h (fun m => if fr.sectors.isEmpty then mapDel m i else mapIns m i { fr with filling := false })
  | _, _ => s

/-- A fill in flight ends: its pin of the page goes, and it leaves the list. -/
def State.endFill (s : State) (f : Fill) : State :=
  (s.dropFill f).modPage (f.tile / 64) (fun q => { q with pins := q.pins - 1 })

/-- The host's bytes in the backing that the fill reads (R267): keys as in `Tiers.board` and `Tiers.flash`. -/
def State.hostBytes (s : State) (u : Nat) (cells : List Host.Cell) : State :=
  let put := fun (m : SMap Byte) => cells.foldl (fun m c => mapPut 0 m c.1 c.2) m
  if u == 8 then { s with tiers := { s.tiers with flash := put s.tiers.flash } }
  else if 4 ≤ u then { s with tiers := { s.tiers with board := put s.tiers.board } }
  else s

/-- R250: the oldest fill in flight on a unit completes: the tile is brought into Beam where it was not there, then into
its slice. -/
def State.completeFill (s : State) (u : Nat) (cells : List Host.Cell) : State :=
  match s.tiers.fills.find? (fun f => f.issued && f.unit == u) with
  | none => s
  | some f =>
    let s := s.hostBytes u cells
    let p := f.tile / 64
    let copied := (s.copySource f).isSome
    let reader := if f.slice.isNone then f.source else if f.demand then 2 else 7
    let s := match s.regionOfPage p with
      | some r => if ((s.page p).tile (f.tile % 64)).st == TileSt.fetching then s.fetchTile r f.tile reader f.keyed else s
      | none => s
    let ok := ((s.page p).tile (f.tile % 64)).st == TileSt.valid
    let s := if ok then s.landFill f else s.voidFill f
    let s := s.endFill f
    let s := if !ok then s
      else if f.demand then s.bump TM_FILL_EVENTS.DEMAND_TILES else s.bump TM_FILL_EVENTS.PREFETCH_TILES
    let s := if ok && u < 4 && !copied then
        s.watchAccess false reader f.slice (f.tile * tileBytes) tileBytes []
      else s
    s

/-! ## Write-backs and landed writes -/

/-- R266: the backing accepts the tiles of a write-back in flight on the unit. -/
def execWriteBackComplete (u : Fin 9) (s : State) : Host.Outcome State Fault Refusal :=
  .next (s.after <| match s.tiers.wbs.find? (fun w => w.issued && w.unit == u.val) with
    | none => s
    | some w => (s.finishWriteBack w.page).resumePageCmd)

/-- R361: a Tally write has landed: HEAD advances; the drain ends with its last write. -/
def State.tallyLanded (s : State) : State :=
  let s := s.set CU_TALLY_PTR.HEAD (s.get CU_TALLY_PTR.HEAD + 1)
  let n := s.cust.drainLeft - 1
  let s := { s with cust := { s.cust with drainLeft := n } }
  if n == 0 && s.cust.tally.isEmpty then
    { s.set CU_TALLY_CTRL.DRAIN 0 with cust := { s.cust with draining := false, drainLeft := 0 } }
  else s

/-- R265: the oldest engine write lands in Beam once its page has a frame, no tile of it is FETCHING, and a tile that it writes
in part is there. -/
def State.landOldest (s : State) : State :=
  match s.tiers.writes with
  | [] => s
  | w :: rest =>
    let r := s.attempt (fun s => { s with tiers := { s.tiers with writes := rest } }.landWrite w)
    if !r.2 then r.1 else
    (if w.source == 11 then r.1.tallyLanded else r.1).resumePageCmd

/-! ## Errors (R275, R276, R278) -/

/-- R276: an error response to the oldest request in flight on a unit. -/
def State.errorResponse (s : State) (u : Nat) : State :=
  match s.tiers.fills.find? (fun f => f.issued && f.unit == u) with
  | some f =>
    let p := f.tile / 64
    let q := s.page p
    let s := s.tierLog 1 u (f.tile * tileBytes)
    let refetch := u < 4 && q.st != .home && !q.dirtyTiles.contains (f.tile % 64) &&
      (s.regionOfPage p).any (·.backing != 0)
    let s := (s.voidFill f).endFill f
    if refetch then
      let s := (s.bump TM_TIER_EVENTS.REFETCH).modPage p (fun q => q.setTile (f.tile % 64) ⟨.invalid, false⟩)
      let again : Fill := { f with issued := false, frame := none }
      { s with tiers := { s.tiers with fills := again :: s.tiers.fills } }
    else s.poisonTile f.tile
  | none =>
    match s.tiers.wbs.find? (fun w => w.issued && w.unit == u) with
    | none => s
    | some w =>
      let s := s.tierLog 1 u (w.page * pageBytes)
      let s := { s with tiers := { s.tiers with wbs := s.tiers.wbs.filter (· != w) } }
      (s.modPage w.page (fun q =>
        { (q.wb.foldl (fun q i => q.setTile i { q.tile i with dirty := true }) q) with
            wb := [], st := .dirty, evicting := false })).resumePageCmd

/-- R278: the second copy of the page table moves from a failed stack to the lowest healthy stack without the surviving
copy, and takes its frames there at once, evicting pages of that stack where it has too few free. -/
def State.moveTable (s : State) (stack : Nat) : State :=
  if !s.tiers.tableStacks.contains stack then s else
  let left := s.tiers.tableStacks.filter (· != stack)
  match (List.range 4).find? (fun i => !s.unitFailed i && !left.contains i) with
  | none => { s with tiers := { s.tiers with tableStacks := left, tableCopying := none } }
  | some i =>
    let short := s.tableFrames - s.stackFree i
    let s := ((s.victims.filter (fun p => (s.page p).stack == i)).take short).foldl State.evictPage s
    ({ s with tiers := { s.tiers with tableStacks := left ++ [i], tableCopying := some i } }).keepFree

/-- R278: a Beam stack fails: its pages become ABSENT or LOST. Answers the LOST pages. -/
def State.stackLoss (s : State) (stack : Nat) : State × List Nat :=
  let hit := s.tiers.pages.filter (fun p => p.2.st.held && p.2.stack == stack)
  let lost := (hit.filter (fun p => p.2.st != .clean)).map (·.1)
  let s := hit.foldl (fun s p => s.dropPage p.1 (if p.2.st == .clean then .absent else .lost)) s
  let s := { s with tiers := { s.tiers with spillFrames := s.tiers.spillFrames.filter (· != stack) } }
  let s := s.moveTable stack
  match lost with
  | [] => (s, [])
  | p :: _ =>
    let s := (s.bump TM_TIER_EVENTS.LOST_PAGES lost.length).set TM_IRQ_STATUS.PAGE_LOST 1
    (s.recordFault { cls := 0x0D, source := 7, action := 0xA, detail := p * pageBytes }, lost)

/-- R275: the engine writes outstanding to a Beam stack. -/
def State.stackWrites (s : State) (u : Nat) : List EngWrite :=
  s.tiers.writes.filter (fun w => (s.page (w.addr / pageBytes)).st.held && (s.page (w.addr / pageBytes)).stack == u)

/-- R265, R275: an engine write outstanding to a failed stack ends: it is dropped. -/
def State.endWrite (s : State) (w : EngWrite) : State :=
  let s := ({ s with tiers := { s.tiers with writes := s.tiers.writes.erase w } }).pinPages w.addr w.bytes.length false
  (if w.source == 11 then s.tallyLanded else s).noteDropped w

/-- R275: a unit fails: every request outstanding to it ends. Answers the tiles whose fetch ended, and the LOST pages. -/
def State.failUnit (s : State) (u : Nat) : State × List Nat × List Nat :=
  let mine := s.tiers.fills.filter (fun f => f.issued && f.unit == u)
  let s := mine.foldl (fun s f =>
    let s := (s.voidFill f).endFill f
    s.modPage (f.tile / 64) (fun q =>
      if (q.tile (f.tile % 64)).st == .fetching then q.setTile (f.tile % 64) ⟨.invalid, false⟩ else q)) s
  let wbs := s.tiers.wbs.filter (fun w => w.issued && w.unit == u)
  let ws := s.tiers.wbs.map (fun (w : WriteBack) => if w.unit == u then { w with issued := false } else w)
  let s := { s with tiers := { s.tiers with wbs := ws } }
  let m := s.get TM_STATUS.UNIT_FAILED
  let s := if bitOf m u then s else s.set TM_STATUS.UNIT_FAILED (m + 2 ^ u)
  let s := s.set TM_IRQ_STATUS.UNIT_FAILED 1
  let addr := ((mine.head?).map (fun f => f.tile * tileBytes)).getD (((wbs.head?).map (fun w => w.page * pageBytes)).getD 0)
  let s := s.tierLog 0 u addr
  let s := s.recordFault { cls := 0x0C, source := 7, action := 3, detail := u }
  let s := (s.stackWrites u).foldl State.endWrite s
  let r := if u < 4 then s.stackLoss u else (s, [])
  (r.1.resumePageCmd, mine.map (·.tile), r.2)

/-- R278: PAGE_TABLE_COPY_COMPLETE. -/
def execPageTableCopyComplete (s : State) : Host.Outcome State Fault Refusal :=
  .next { s with tiers := { s.tiers with tableCopying := none } }

end Sys2Proof.Machine
end

