-- ==== Sys2Proof/Machine/LearnOps.lean ====
section
/-! DEFINITION. Learning on the engine (chapter 8): which adapters learn (R190, R203), the optimizer area and its chunks
(R204, R296), the stashes (R191, R193 to R195), long sums and their terms (R198), the UPD jobs of a projection (R207), the
pending version and its runs (R210, R220, R221), norm and scalars (R205, R206), lost learning data (R278, R351). -/

namespace Sys2Proof.Machine

/-! ## Adapters that learn (R190, R203) -/

/-- Adapters replicated within the local Mill, whose gradients the Shed Exchange reduces (R212, R296). -/
def State.replicatedHere (s : State) (d : Dir) : Bool :=
  s.flag SX_NODE.VALID && d.mill == 1 && d.ownerMill == s.get SX_NODE.MILL && decide (1 < s.get SX_NODE.HOSTS)

/-- R296: does this host own chunk k of the adapter? -/
def State.ownsChunk (s : State) (d : Dir) (k : Nat) : Bool :=
  !s.replicatedHere d || k % s.get SX_NODE.HOSTS == s.get SX_NODE.HOST

/-- R203: the Loom address of the learn record of adapter a. -/
def State.recordAddr (s : State) (a : Nat) : Nat := s.getF ST_LEARN_RECORD_BASE.BASE * 2 ^ 21 + 32 * a

/-- The four words of a learn record. -/
def State.readRecord (s : State) (a : Nat) : State × List W64 :=
  let r := s.loomReadOpen 8 (s.recordAddr a) 32
  (r.1, (groupsOf 8 r.2).map (fun b => BitVec.ofNat 64 (leNat b)))

/-- The learner of an adapter in a revolution. -/
def State.learner? (s : State) (a rev : Nat) : Option Learner :=
  s.skein.learners.find? (fun l => l.adapter == a && l.rev == rev)

/-- Change the learner of an adapter in a revolution. -/
def State.modLearner (s : State) (a rev : Nat) (f : Learner → Learner) : State :=
  { s with skein := { s.skein with learners := modWhere (fun l => l.adapter == a && l.rev == rev) f s.skein.learners } }

/-- R190, R203: the first contribution of adapter a in a LEARN revolution reads its record; does the adapter learn? -/
def State.contribute (s : State) (a tenant : Nat) : State × Bool :=
  if s.phase != 2 then (s, false) else
  match s.learner? a s.revolution with
  | some l => (s, l.learns)
  | none =>
    let based := s.getF ST_LEARN_RECORD_BASE.VALID == 1
    let r := if based then s.readRecord a else (s, [])
    let learns := based && s.getF ST_LEARN_CTRL.ENABLE == 1 && s.getF (ST_TP_CTRL.ENABLE tenant) == 1 &&
      bitOf ((r.2.getD 2 0).toNat) 63
    let l : Learner := { adapter := a, rev := s.revolution, learns := learns, record := r.2 }
    ({ r.1 with skein := { r.1.skein with learners := r.1.skein.learners ++ [l] } }, learns)

/-- R199, R200: have the gradients of a layer closed in the current revolution? -/
def State.layerClosed (s : State) (layer : Nat) : Bool := decide (s.skein.closedFrom ≤ layer)

/-! ## The optimizer area (R204, R296) -/

/-- A section of the optimizer area: the arrays of one matrix, its norm slot, and the number of its first chunk. -/
structure Section where
  layer : Nat
  proj : Nat
  isB : Bool
  k : Nat
  n : Nat
  base : Nat
  norm : Nat
  chunk0 : Nat
  deriving DecidableEq, Repr

/-- Elements of a section. -/
def Section.elems (x : Section) : Nat := x.k * x.n
/-- R296: chunks of a section. -/
def Section.chunks (x : Section) : Nat := ceilDiv x.elems 2048

/-- R204: the sections of one layer. -/
def layerSections (shape : Nat → Option (Nat × Nat)) (d : Dir) (opt l : Nat) : List Section :=
  let ms := runMats shape d
  let size := fun (m : Nat × Bool × Nat × Nat) => m.2.2.1 * m.2.2.2
  let per := (ms.map size).sum
  let perChunks := (ms.map (fun m => ceilDiv (size m) 2048)).sum
  ms.mapIdx (fun i m =>
    ({ layer := l, proj := m.1, isB := m.2.1, k := m.2.2.1, n := m.2.2.2,
       base := opt + 16 * (l * per + ((ms.take i).map size).sum),
       norm := opt + 16 * d.layers * per + 4 * (l * ms.length + i),
       chunk0 := l * perChunks + ((ms.take i).map (fun m => ceilDiv (size m) 2048)).sum } : Section))

/-- OPT_BASE of a learner's record. -/
def Learner.opt (l : Learner) : Nat := bitsOf (l.record.getD 2 0).toNat 51 0

/-- R204: every section of a learner's optimizer area, in order. -/
def State.learnSections (s : State) (d : Dir) (opt : Nat) : List Section :=
  (List.range d.layers).flatMap (layerSections s.shape d opt)

/-- The section of a matrix. -/
def State.sectionOf (s : State) (d : Dir) (opt l p : Nat) (isB : Bool) : Option Section :=
  (layerSections s.shape d opt l).find? (fun x => x.proj == p && x.isB == isB)

/-- The section that holds chunk number k of the adapter. -/
def State.sectionOfChunk (s : State) (d : Dir) (opt k : Nat) : Option Section :=
  let per := (((runMats s.shape d).map (fun m => ceilDiv (m.2.2.1 * m.2.2.2) 2048))).sum
  if per == 0 || d.layers ≤ k / per then none
  else (layerSections s.shape d opt (k / per)).find? (fun x => decide (x.chunk0 ≤ k) && decide (k < x.chunk0 + x.chunks))

/-- Bytes of the whole area, norm slots included. -/
def State.optBytes (s : State) (d : Dir) : Nat :=
  let ms := runMats s.shape d
  d.layers * (16 * (ms.map (fun m => m.2.2.1 * m.2.2.2)).sum + 4 * ms.length)

/-- FP32 values of the Loom range. -/
def State.loomF32s (s : State) (addr n : Nat) : State × List F32 :=
  let r := s.loomReadOpen 8 addr (4 * n)
  (r.1, (groupsOf 4 r.2).map (fun b => BitVec.ofNat 32 (leNat b)))

/-- FP32 values as bytes. -/
def f32Bytes (l : List F32) : List Byte := l.flatMap (fun x => toLe 4 x.toNat)

/-- A sorted byte map as runs of consecutive bytes. -/
def byteRuns : SMap Byte → List (Nat × List Byte)
  | [] => []
  | (i, b) :: t =>
    match byteRuns t with
    | (j, bs) :: rs => if j == i + 1 then (i, b :: bs) :: rs else (i, [b]) :: (j, bs) :: rs
    | [] => [(i, [b])]

/-- R265: bytes written by the Spindle of Harness h, run by run. -/
def State.queueBytes (s : State) (h : Nat) (m : SMap Byte) : State :=
  (byteRuns m).foldl (fun s r => s.queueWrite 5 (some h) r.1 r.2) s

/-- Values at 4-byte places as a byte map. -/
def wordMap (m : SMap Byte) (l : List (Nat × F32)) : SMap Byte :=
  l.foldl (fun m x => ((toLe 4 x.2.toNat).mapIdx (fun i b => (x.1 + i, b))).foldl (fun m c => mapIns m c.1 c.2) m) m

/-! ## Long sums (R198) -/

/-- Is this the long sum of a matrix? -/
def LongSum.is (x : LongSum) (rev a l p : Nat) (isB : Bool) : Bool :=
  x.rev == rev && x.adapter == a && x.layer == l && x.proj == p && x.isB == isB

/-- R198: n more terms of a long sum: the number of the first of them. -/
def State.takeTerms (s : State) (rev a l p : Nat) (isB : Bool) (n : Nat) : State × Nat :=
  match s.heddle.sums.find? (fun x => x.is rev a l p isB) with
  | some x =>
    let sums := modWhere (fun x => x.is rev a l p isB) (fun x => { x with terms := x.terms + n }) s.heddle.sums
    ({ s with heddle := { s.heddle with sums := sums } }, x.terms)
  | none =>
    let x : LongSum := { rev := rev, adapter := a, layer := l, proj := p, isB := isB, terms := n }
    ({ s with heddle := { s.heddle with sums := s.heddle.sums ++ [x] } }, 0)

/-! ## The stashes (R191 to R195) -/

/-- R191, R287: the bolt part of a stash key: BOLT_ID[23:0], and the source Mill and host of a remote bolt. -/
def Bolt.stashKey (b : Bolt) : Nat :=
  dBoltId b.desc % 2 ^ 24 + (match b.remote with | some r => 2 ^ 24 * (1 + r) | none => 0)

/-- The stash entry of a row for a projection. -/
def State.stashFind (s : State) (b : Bolt) (p row : Nat) (isDh : Bool) : Option Stash :=
  s.skein.stashes.find? (fun e => e.layer == angleLayer (dAngle b.desc) && e.proj == p && e.bolt24 == b.stashKey &&
    e.row == row && e.isDh == isDh)

/-- Do two entries lie under one key? -/
def Stash.sameKey (e f : Stash) : Bool :=
  e.layer == f.layer && e.proj == f.proj && e.bolt24 == f.bolt24 && e.row == f.row && e.isDh == f.isDh

/-- R193, R194: an unused entry that records the row's ADAPTER, TENANT, REQUEST and POSITION. -/
def Stash.pairs (e : Stash) (r : Row) : Bool :=
  !e.used && e.adapter == r.adapter && e.tenant == r.tenant && e.request == r.request && e.position == r.position

/-- Mark an entry as paired or used. -/
def State.useStash (s : State) (e : Stash) : State :=
  { s with skein := { s.skein with stashes := modWhere e.sameKey (fun x => { x with used := true }) s.skein.stashes } }

/-- R195: the stash range in force, its base and its bytes. -/
def State.stashRange (s : State) : Nat × Nat :=
  if s.getF ST_LEARN_STASH.VALID == 1 then
    (s.getF ST_LEARN_STASH.BASE * 2 ^ 21, s.getF ST_LEARN_STASH.PAGES * pageBytes)
  else (0, 0)

/-- R191, R193, R195: a row of Harness h writes a stash entry. A paired H entry is kept; an entry that no pick reads is
written over in place; a row that finds the range full writes none. -/
def State.stashWrite (s : State) (h : Nat) (e : Stash) (bytes : List Byte) : State :=
  let old := s.skein.stashes.find? e.sameKey
  if old.any (fun o => o.used && !o.isDh) then s else
  let rng := s.stashRange
  let place : Option (Nat × Nat) := match old with
    | some o => if !o.used && o.len == bytes.length then some (o.addr, s.skein.stashNext)
        else if s.skein.stashNext + bytes.length ≤ rng.2 then
          some (rng.1 + s.skein.stashNext, s.skein.stashNext + bytes.length) else none
    | none => if s.skein.stashNext + bytes.length ≤ rng.2 then
          some (rng.1 + s.skein.stashNext, s.skein.stashNext + bytes.length) else none
  match place with
  | none => (s.set ST_LEARN_STATUS.STASH_FULL 1).bump ST_LEARN_EVENTS.STASH_MISS
  | some (addr, nextFree) =>
    let es := s.skein.stashes.filter (fun o => !e.sameKey o) ++ [{ e with addr := addr, len := bytes.length }]
    let s := { s with skein := { s.skein with stashes := es, stashNext := nextFree } }
    s.queueWrite 5 (some h) addr bytes

/-! ## Pending versions (R210, R220, R221) -/

/-- R210, R220: the first UPD write of a revolution opens the adapter's pending version; none where no further version
number exists. -/
def State.openPending (s : State) (a rev : Nat) : Option State :=
  if (s.learner? a rev).any (·.opened) then some s else
  let s := s.reachDir a
  match s.dir? a with
  | none => none
  | some d =>
    let top := max d.current d.pending
    if top == 0xFFFFFFFF then none
    else
      let s := if d.pending != 0 then s else
        let r := s.loomReadOpen 8 (d.mapAddr d.curSlot 0) (8 * d.layers)
        r.1.loomWrite 8 (d.mapAddr d.pendSlot 0) r.2
      let s := (s.putDir a (d.put 2 63 32 (top + 1))).setPendList a true
      some (s.modLearner a rev (fun l => { l with opened := true }))

/-- R221: the run of layer l that UPD writes: in place where only the pending map names it, else a copy in fresh tiles
of the pool; none where the pool cannot supply them. -/
def State.pendingRun (s : State) (a l : Nat) : Option (State × Option Run) :=
  match s.rawDir a with
  | none => some (s, none)
  | some d =>
    let e := s.mapEntry d d.pendSlot l
    match runOfEntry e.2 with
    | none => some (e.1, none)
    | some run =>
      let s := e.1
      let others := d.curSlot :: (if d.drainVersion == 0 then [] else [d.drainSlot])
      if !(others.any (fun i => (runOfEntry ((s.mapEntry d i l).2)).any (·.addr == run.addr))) then some (s, some run)
      else match s.poolFind run.tiles with
        | none => none
        | some t =>
          let s := s.poolMark t run.tiles true
          let s := (List.range run.tiles).foldl (fun s i =>
            let r := s.loomReadOpen 8 (run.addr + i * tileBytes) tileBytes
            r.1.loomWrite 8 ((t + i) * tileBytes) r.2) s
          let w : W64 := BitVec.ofNat 64 (2 ^ 63 + t * tileBytes + run.tiles)
          some (s.loomPutWord 8 (d.mapAddr d.pendSlot l) w, some ⟨t * tileBytes, run.tiles⟩)

/-- R221: the pool is empty: the layer's UPD instances do not run, and the adapter is counted at the next boundary. -/
def State.poolEmpty (s : State) (a rev l : Nat) : State :=
  let sv := s.spindles.map (fun v => { v with
    jobs := v.jobs.filter (fun j => !(j.key.cls == 5 && j.key.bolt == rev && j.key.adapter == a && j.key.layer == l)) })
  ({ s with spindles := sv }).modLearner a rev (fun x => { x with poolFailed := insertSorted l x.poolFailed })
    |>.set ST_STATUS.POOL_EMPTY 1 |>.bump ST_VERSION_EVENTS.POOL_EMPTY

/-! ## UPD jobs (R207, R299) -/

/-- R207: the jobs of layer l, projection p of a learner whose scalars are fixed: A then B, chunk by chunk, for the chunks
that this host owns. -/
def State.formUpdates (s : State) (x : Learner) (l p : Nat) : State :=
  let s := (s.reachDir x.adapter).modLearner x.adapter x.rev (fun y =>
    { y with waiting := y.waiting.filter (· != (l, p)) })
  match s.rawDir x.adapter with
  | none => s
  | some d =>
    if x.poolFailed.contains l then s else
    let secs := (layerSections s.shape d x.opt l).filter (·.proj == p)
    let owned := secs.any (fun sec => (List.range sec.chunks).any (fun k => s.ownsChunk d (sec.chunk0 + k)))
    -- R299: a host that owns no chunk of it opens the pending version all the same
    let s := if owned then s else (s.openPending x.adapter x.rev).getD s
    secs.foldl (fun s sec =>
      (List.range sec.chunks).foldl (fun s k =>
        if !s.ownsChunk d (sec.chunk0 + k) then s else
        let s0 := x.scalars.getD (if sec.isB then 1 else 0) 0
        s.addJob (s.standIn ((x.adapter + k) % 8))
          { key := { cls := 5, bolt := x.rev, adapter := x.adapter, layer := l, proj := p, isB := sec.isB, chunk := k },
            params := s0 :: x.scalars.drop 2, pos := 2048 * k, total := min sec.elems (2048 * (k + 1)) }) s) s

/-- R207: an accepted UPD word starts the update of its layer and projection for every adapter that learns and was not
skipped, once. -/
def State.startUpdates (s : State) (l p : Nat) : State :=
  (s.skein.learners.filter (fun x => x.rev == s.revolution && x.learns && !x.skipped && !x.started.contains (l, p))).foldl
    (fun s x =>
      let s := s.reachDir x.adapter
      if (s.rawDir x.adapter).any (fun d => decide (l < d.layers) && bitOf d.projMask p) then
        let s := s.modLearner x.adapter x.rev (fun y =>
          { y with started := y.started ++ [(l, p)], waiting := y.waiting ++ [(l, p)] })
        if x.normDone then s.formUpdates x l p else s
      else s) s

/-! ## Norm and scalars (R205, R206) -/

/-- A learn record written back, word by word, as Table 8.3 gives its fields. -/
def State.putRecord (s : State) (a : Nat) (ws : List W64) : State :=
  s.loomWrite 8 (s.recordAddr a) (ws.flatMap wordBytes)

/-- Have the gradients of a learner all been written (R205)? The gradients of a revolution that has ended are closed. -/
def State.gradientsDone (s : State) (x : Learner) : Bool :=
  (s.skein.closedFrom == 0 || x.rev != s.revolution) &&
    !s.heddle.sums.any (fun y => y.adapter == x.adapter && y.rev == x.rev) &&
    !s.spindles.any (fun v => v.jobs.any (fun j => j.key.cls == 4 && j.key.adapter == x.adapter && j.key.bolt == x.rev))

/-- R201: the matrices of a list of sections that received no term have gradient +0 and norm slot +0. -/
def State.zeroMissing (s : State) (x : Learner) (secs : List Section) : State :=
  let miss := secs.filter (fun q => !x.outDone.contains (q.layer, q.proj, q.isB))
  let s := miss.foldl (fun s q =>
    let s := s.loomWrite 8 q.base (List.replicate (4 * q.elems) 0)
    s.loomWrite 8 q.norm (List.replicate 4 0)) s
  s.modLearner x.adapter x.rev (fun y =>
    { y with outDone := y.outDone ++ miss.map (fun q => (q.layer, q.proj, q.isB)) })

/-- R203: the learn record of a learner written back: STEP, NORM_SQ, B1_POW, B2_POW, SKIPPED, LOST and CLIP are the
engine's, the other fields stay as they stand. -/
def State.writeBackRecord (s : State) (x : Learner) (w0 w1 : W64) (skipped clip : Nat) : State :=
  let r := s.readRecord x.adapter
  let lost := bitsOf (x.record.getD 2 0).toNat 61 61
  r.1.putRecord x.adapter [w0, w1, putBits (putBits (r.2.getD 2 0) 62 62 skipped) 61 61 lost, putBits (r.2.getD 3 0) 63 32 clip]

/-- R205: the update of an adapter is skipped in this revolution. -/
def State.skipUpdate (s : State) (x : Learner) (normSq : Option F32) : State :=
  let w0 := x.record.getD 0 0
  let w0 := match normSq with
    | some q => putBits w0 31 0 q.toNat
    | none => w0
  let s := (s.writeBackRecord x w0 (x.record.getD 1 0) 1 (bitsOf (x.record.getD 3 0).toNat 63 32)).bump ST_LEARN_EVENTS.SKIPPED
  s.modLearner x.adapter x.rev (fun y => { y with normDone := true, skipped := true, waiting := [] })

/-- The norm slots of an adapter in order: whether of a B matrix, and the value. -/
def State.normSlots (s : State) (secs : List Section) : State × List (Bool × F32) :=
  secs.foldl (fun a q =>
    let r := a.1.loomF32s q.norm 1
    (r.1, a.2 ++ [(q.isB, r.2.headD 0)])) (s, [])

/-- FP32 1.0. -/
def oneF32 : F32 := 0x3F800000

/-- R205, R206, Tables 8.3 and 8.4: norm, clip factor and scalars of an adapter from its norm slots. -/
def State.fixScalars (s : State) (x : Learner) (d : Dir) : State :=
  let secs := s.learnSections d x.opt
  let q := s.normSlots secs
  let add := fun (b : Bool) => ((q.2.filter (·.1 == b)).map (·.2)).foldl f32Add 0
  let sc := alphaOverRank d.alpha d.rank
  let normSq := f32Add (add false) (f32Mul (f32Mul sc sc) (add true))
  let norm := f32Sqrt normSq
  let s := q.1
  if f32IsNan norm || f32IsInf norm then s.skipUpdate x (some normSq)
  else
    let k := d.tenant
    let get := fun (f : Fld) => (BitVec.ofNat 32 (s.get f) : F32)
    let b1 := get (ST_TP_BETA.BETA1 k)
    let b2 := get (ST_TP_BETA.BETA2 k)
    let lr := get (ST_TP_RATE.LR k)
    let clip := get (ST_TP_EPS.CLIP_NORM k)
    let c := if clip.toNat % 2 ^ 31 == 0 || f32Le norm clip then oneF32 else f32Div clip norm
    let w0 := (x.record.getD 0 0).toNat
    let w1 := (x.record.getD 1 0).toNat
    let p1 := f32Mul (BitVec.ofNat 32 (bitsOf w1 63 32)) b1
    let p2 := f32Mul (BitVec.ofNat 32 (bitsOf w1 31 0)) b2
    let root := f32Sqrt (f32Sub oneF32 p2)
    let scalars := [c, f32Mul c sc, b1, f32Sub oneF32 b1, b2, f32Sub oneF32 b2,
      f32Div (f32Mul lr root) (f32Sub oneF32 p1), f32Mul (get (ST_TP_EPS.EPSILON k)) root,
      f32Sub oneF32 (f32Mul lr (get (ST_TP_RATE.WEIGHT_DECAY k)))]
    let s := s.writeBackRecord x (BitVec.ofNat 64 ((bitsOf w0 63 32 + 1) % 2 ^ 32 * 2 ^ 32 + normSq.toNat))
      (BitVec.ofNat 64 (p1.toNat * 2 ^ 32 + p2.toNat)) 0 c.toNat
    let s := s.modLearner x.adapter x.rev (fun y => { y with normDone := true, scalars := scalars })
    match s.learner? x.adapter x.rev with
    | none => s
    | some y => y.waiting.foldl (fun s lp => s.formUpdates y lp.1 lp.2) s

/-! ## Lost learning data (R278, R351) -/

/-- R351: LOST is set in a learn record, and TRAIN clears in the same write. -/
def State.markLost (s : State) (a : Nat) : State :=
  if s.getF ST_LEARN_RECORD_BASE.VALID != 1 then s else
  let r := s.readRecord a
  let w := putBits (putBits (r.2.getD 2 0) 61 61 1) 63 63 0
  let mark := fun (x : Learner) =>
    { x with record := setAt x.record 2 (putBits (x.record.getD 2 0) 61 61 1) }
  let s := r.1.loomPutWord 8 (s.recordAddr a + 16) w
  { s with skein := { s.skein with learners := modWhere (fun (x : Learner) => x.adapter == a) mark s.skein.learners } }

/-- The adapters with a valid directory entry. -/
def State.validAdapters (s : State) : State × List Nat :=
  if !s.dirReady then (s, []) else
  let base := s.dirAddr 0
  let s := (tilesOf base 4194304).foldl (fun s t => (s.reachTile t 8).1) s
  let cands := sortNub ((mapRange s.tiers.beam base 4194304).map (fun p => (p.1 - base) / 64))
  (s, cands.filter (fun a => (s.dir? a).isSome))

/-- R278: does learning data, or the pending run, of an adapter include a page of a list? -/
def State.learnTouches (s : State) (a : Nat) (pages : List Nat) : State × Bool :=
  match s.dir? a with
  | none => (s, false)
  | some d =>
    let hit := fun lo n => n != 0 && pages.any (fun p => decide (p * pageBytes < lo + n) && decide (lo < (p + 1) * pageBytes))
    let r := if s.getF ST_LEARN_RECORD_BASE.VALID == 1 then s.readRecord a else (s, [])
    let opt := r.2.any (· != 0) && hit (bitsOf (r.2.getD 2 0).toNat 51 0) (s.optBytes d)
    let stash := s.skein.stashes.any (fun e => e.adapter == a && hit e.addr e.len)
    let pend := d.pending != 0 && (List.range d.layers).any (fun l =>
      (s.peekRun a d.pending l).any (fun q => hit q.addr (q.tiles * tileBytes)))
    (r.1, opt || stash || pend)

/-- R278: the learn records of the adapters whose data a lost page held are marked, and their pending versions go. -/
def State.markLostPages (s : State) (pages : List Nat) : State :=
  if pages.isEmpty then s else
  let v := s.validAdapters
  v.2.foldl (fun s a =>
    let r := s.learnTouches a pages
    if r.2 then (r.1.markLost a).discardPending a else r.1) v.1

/-- R349: a long sum lost terms: the adapter's update of the revolution will be skipped, and its gradients go. -/
def State.gradientIncomplete (s : State) (a rev layer proj : Nat) : State :=
  if (s.learner? a rev).any (fun l => l.incomplete) then s else
  let s := s.modLearner a rev (fun l => { l with incomplete := true })
  (s.recordFault { cls := 0x11, source := 8, action := 8,
                   detail := a + layer * 2 ^ 16 + proj * 2 ^ 26 }).bump
    CU_LOSS_EVENTS.GRADIENT_INCOMPLETE

/-- R349: a long sum lost terms. -/
def State.sumLost (s : State) (rev a layer proj : Nat) (isB : Bool) : State :=
  let sums := modWhere (fun x => x.is rev a layer proj isB) (fun x => { x with incomplete := true }) s.heddle.sums
  ({ s with heddle := { s.heddle with sums := sums } }).gradientIncomplete a rev layer proj

/-- The revolution of a pick's bolt. -/
def State.pickRev (s : State) (p : Pick) : Nat := ((s.bolt? p.bolt).map (fun b => angleRev (dAngle b.desc))).getD 0

/-- A pick with nothing left to form leaves. -/
def State.settlePick (s : State) (id : Nat) : State :=
  match s.pick? id with
  | none => s
  | some p => if p.rows.all p.void.contains then (s.removePick p).afterPick p else s

/-- The picks that would have formed the results of lost rows take nothing more of them. -/
def State.cutRows (s : State) (hit : Pick → Bool) (rows : List Nat) : State :=
  let ps := s.heddle.picks.filter (fun p => hit p && p.rows.any rows.contains)
  let cut := fun (p : Pick) =>
    { p with void := p.void ++ rows.filter (fun r => p.rows.contains r && !p.committed.contains r && !p.void.contains r) }
  let s := ps.foldl (fun s p => s.modPick p.id cut) s
  ps.foldl (fun s p => s.settlePick p.id) s

/-- Frames that held the spilled partials of a long sum are free again (R256). -/
def State.freeSpills (s : State) (x : LongSum) : State :=
  { s with tiers := { s.tiers with spillFrames := (x.cells.filterMap (·.frame)).foldl (fun l i => l.erase i) s.tiers.spillFrames } }

/-! ## The boundary (R195, R211) -/

/-- R211: did the revolution of a learner leave a projection of the adapter without its update (a skipped one, R205,
leaves all)? -/
def State.updMissed (s : State) (x : Learner) : Bool :=
  match s.rawDir x.adapter with
  | none => false
  | some d => x.skipped || !x.poolFailed.isEmpty ||
      (List.range d.layers).any (fun l => (setBits 16 d.projMask).any (fun p => !x.started.contains (l, p)))

/-- R195, R211: at the boundary that ends revolution `rev` the stashes become void, and the adapters whose revolution
missed an update are counted and lose their gradients. -/
def State.learnBoundary (s : State) (rev : Nat) : State :=
  let s := { s with skein := { s.skein with stashes := [], stashNext := 0, closedFrom := 1024 } }
  let xs := s.skein.learners.filter (fun x => x.rev == rev && x.learns)
  let s := xs.foldl (fun s x => s.reachDir x.adapter) s
  (xs.filter s.updMissed).foldl (fun s x =>
    let a := x.adapter
    let s := (s.heddle.sums.filter (fun y => y.adapter == a && y.rev == rev)).foldl State.freeSpills s
    let sums := s.heddle.sums.filter (fun y => !(y.adapter == a && y.rev == rev))
    let sv := s.spindles.map (fun v => { v with
      jobs := v.jobs.filter (fun j => !(j.key.cls == 4 && j.key.adapter == a && j.key.bolt == rev)) })
    let s := { s with heddle := { s.heddle with sums := sums }, spindles := sv }
    (s.modLearner a rev (fun y => { y with normDone := true, waiting := [] })).bump ST_LEARN_EVENTS.UPD_MISSED) s

/-- A LEARN revolution opens: the learners of earlier ones go, but for those with updates that wait, and so do the
exchanges of their gradients. -/
def State.learnOpen (s : State) : State :=
  let stay := fun (x : Learner) => !x.waiting.isEmpty || s.spindles.any (fun v => v.jobs.any (fun j =>
      j.key.cls == 5 && j.key.adapter == x.adapter && j.key.bolt == x.rev))
  let xs := s.skein.learners.filter stay
  let left := xs.map (·.adapter)
  let e := { s.exch with reductions := s.exch.reductions.filter (fun r => left.contains r.adapter),
                         norms := s.exch.norms.filter (fun r => left.contains r.adapter) }
  { s with skein := { s.skein with learners := xs }, exch := e }

end Sys2Proof.Machine
end

