-- ==== Sys2Proof/Machine/Security.lean ====
section
/-! DEFINITION. Commands of the Selvedge Security Unit: the key store (R318 to R321), region keys (R322), lifecycle
transitions (R325, R326) and the unlock challenge (R330, R331). Levels and the grant procedure are in
Machine/Grant.lean. -/

namespace Sys2Proof.Machine

/-! ## The key store (R319 to R321) -/

/-- Bytes of consecutive registers. -/
def State.regBytes (s : State) (off n : Nat) : List Byte :=
  (List.range n).flatMap (fun i => wordBytes (s.word (off + 8 * i)))

/-- Words of consecutive registers cleared. -/
def State.clearRegs (s : State) (off n : Nat) : State :=
  (List.range n).foldl (fun s i => s.setWord (off + 8 * i) 0) s

/-- A key command completes with a code; hardware clears SS_KEY_BUF (R320). -/
def State.keyDone (s : State) (code : Nat) : State :=
  (s.complete SS_KEY_CMD.GO SS_KEY_CMD.BUSY SS_KEY_CMD.STATUS code).clearRegs (SS_KEY_BUF.WORD 0).off 10

/-- Table 13.2 and the DEBUGGED rule of R319: is a key operation permitted? -/
def State.keyPermitted (s : State) (op : Nat) : Bool :=
  let lc := s.fuses.lifecycle
  match op with
  | 0 => lc == 1 && !s.sec.debugged
  | 1 => ((lc == 1 && !s.fuses.kik.isEmpty && !s.fuses.kikDestroyed) || lc == 2 || lc == 3) && !s.sec.debugged
  | _ => true

/-- The key in a slot of a kind: TENANT 0, MILL_EXCHANGE 1, DEPLOY_EXCHANGE 2. -/
def State.slotKey (s : State) (kind slot : Nat) : Option (List Byte) :=
  if kind == 0 then mapFind s.sec.keys slot else mapFind s.sec.xkeys (kind - 1)

/-- Put a key into a slot, or clear it. -/
def State.setSlotKey (s : State) (kind slot : Nat) (key : Option (List Byte)) : State :=
  let put := fun (m : SMap (List Byte)) (i : Nat) => match key with
    | some k => mapIns m i k
    | none => mapDel m i
  if kind == 0 then { s with sec := { s.sec with keys := put s.sec.keys slot } }
  else { s with sec := { s.sec with xkeys := put s.sec.xkeys (kind - 1) } }

/-- R321: is a cipher use of a tenant slot in flight, begun before its ERASE? -/
def State.keyInUse (s : State) (slot : Nat) : Bool :=
  let uses := fun p => match s.regionOfPage p with
    | some r => s.encrypted r && s.get (SS_REGION_KEY.TENANT r.k) == slot
    | none => false
  s.tiers.fills.any (fun f => f.issued && f.keyed && 4 ≤ f.unit && uses (f.tile / 64)) ||
    s.tiers.wbs.any (fun w => w.issued && w.keyed && uses w.page)

/-- R321: clear slots at once where no use is in flight, else leave the command waiting with BUSY. -/
def State.eraseSlots (s : State) (slots : List (Nat × Nat)) : State :=
  let held := slots.filter (fun k => k.1 == 0 && s.keyInUse k.2)
  let s := (slots.filter (fun k => !held.contains k)).foldl (fun s k => s.setSlotKey k.1 k.2 none) s
  if held.isEmpty then s.keyDone 0
  else { (s.set SS_KEY_CMD.BUSY 1) with sec := { s.sec with erasing := held } }

/-- Every slot that holds a key. -/
def State.loadedSlots (s : State) : List (Nat × Nat) :=
  s.sec.keys.map (fun k => (0, k.1)) ++ s.sec.xkeys.map (fun k => (k.1 + 1, 0))

/-- R320: load a key into a slot, tested in the order of R319. -/
def State.loadKey (s : State) (wrapped : Bool) (kind slot : Nat) : State :=
  if (s.slotKey kind slot).isSome then s.keyDone 2
  else
    let n := if kind == 0 then 64 else 32
    let buf := s.regBytes (SS_KEY_BUF.WORD 0).off 10
    let key := if wrapped then keyUnwrap s.fuses.kik (buf.take (n + 8)) else some (buf.take n)
    match key with
    | none => s.keyDone 3
    | some k =>
      if kind == 0 && k.take 32 == k.drop 32 then s.keyDone 5
      else (s.setSlotKey kind slot (some k)).keyDone 0

/-- GO of SS_KEY_CMD. -/
def State.takeKey (s : State) : State :=
  let op := s.get SS_KEY_CMD.OP
  let kind := s.get SS_KEY_CMD.KIND
  let slot := s.get SS_KEY_CMD.SLOT
  if kind == 3 then s.keyDone 4
  else if !s.keyPermitted op then s.keyDone 1
  else match op with
    | 0 => s.loadKey false kind slot
    | 1 => s.loadKey true kind slot
    | 2 => s.eraseSlots [(kind, if kind == 0 then slot else 0)]
    | _ => s.eraseSlots s.loadedSlots

/-- A write of SS_KEY_CMD. -/
def State.writeKeyCmd (s : State) (v : W64) : State := s.issue v SS_KEY_CMD.GO SS_KEY_CMD.BUSY State.takeKey

/-- The word that issues a key command. -/
def keyCmdWord (op kind slot : Nat) : W64 :=
  cmdWord [(SS_KEY_CMD.GO, 1), (SS_KEY_CMD.OP, op), (SS_KEY_CMD.KIND, kind), (SS_KEY_CMD.SLOT, slot)]

/-- R319: LOAD_PLAIN. -/
def execLoadPlain (kind : BitVec 2) (slot : BitVec 12) (s : State) : Host.Outcome State Fault Refusal :=
  .next (s.after <| s.atPort SS_KEY_CMD.GO.off (fun s => s.writeKeyCmd (keyCmdWord 0 kind.toNat slot.toNat)))

/-- R320: LOAD_WRAPPED. -/
def execLoadWrapped (kind : BitVec 2) (slot : BitVec 12) (s : State) : Host.Outcome State Fault Refusal :=
  .next (s.after <| s.atPort SS_KEY_CMD.GO.off (fun s => s.writeKeyCmd (keyCmdWord 1 kind.toNat slot.toNat)))

/-- R321: ERASE. -/
def execErase (kind : BitVec 2) (slot : BitVec 12) (s : State) : Host.Outcome State Fault Refusal :=
  .next (s.after <| s.atPort SS_KEY_CMD.GO.off (fun s => s.writeKeyCmd (keyCmdWord 2 kind.toNat slot.toNat)))

/-- R319: ERASE_ALL. -/
def execEraseAll (s : State) : Host.Outcome State Fault Refusal :=
  .next (s.after <| s.atPort SS_KEY_CMD.GO.off (fun s => s.writeKeyCmd (keyCmdWord 3 0 0)))

/-- R321: KEY_ERASE_RELEASE: the last cipher use of the erased keys has ended, and the ERASE completes. -/
def execKeyEraseRelease (s : State) : Host.Outcome State Fault Refusal :=
  .next (s.after <| if s.sec.erasing.isEmpty || s.sec.erasing.any (fun k => s.keyInUse k.2) then s
    else
      let t := s.sec.erasing.foldl (fun t k => t.setSlotKey k.1 k.2 none) s
      ({ t with sec := { t.sec with erasing := [] } }).keyDone 0)

/-! ## Region keys and the provisioning buffer -/

/-- R322: a write of SS_REGION_KEY[k], ignored while the region is valid. -/
def State.writeRegionKey (s : State) (k : Nat) (v : W64) : State :=
  if s.flag (TM_REGION.VALID k) then s else s.writeFields (SS_REGION_KEY.ENCRYPT k).off v

/-- R322: REGION_KEY_WRITE. -/
def execRegionKeyWrite (k : Fin 64) (v : W64) (s : State) : Host.Outcome State Fault Refusal :=
  .next (s.after <| s.atPort (SS_REGION_KEY.ENCRYPT k.val).off (fun s => s.writeRegionKey k.val v))

/-- R325: a write of SS_PROV_BUF[i], ignored outside FACTORY and OPEN_DEV. -/
def State.writeProvBuf (s : State) (i : Nat) (v : W64) : State :=
  if s.fuses.lifecycle < 2 then s.writeFields (SS_PROV_BUF.WORD i).off v else s

/-- R325: PROV_BUF_WRITE. -/
def execProvBufWrite (i : Fin 10) (v : W64) (s : State) : Host.Outcome State Fault Refusal :=
  .next (s.after <| s.atPort (SS_PROV_BUF.WORD i.val).off (fun s => s.writeProvBuf i.val v))

/-! ## Lifecycle (R325, R326) -/

/-- A transition completes with a code. -/
def State.lifecycleDone (s : State) (code : Nat) : State :=
  s.complete SS_LIFECYCLE_CMD.GO SS_LIFECYCLE_CMD.BUSY SS_LIFECYCLE_CMD.STATUS code

/-- R326: every key is erased, the KIK is destroyed, DEBUGGED is set. -/
def State.retireErase (s : State) : State :=
  let s := if s.sec.erasing.isEmpty then s else s.keyDone 0
  { s with
    fuses := { s.fuses with kik := List.replicate 32 0xFF, kikDestroyed := true },
    sec := { s.sec with keys := [], xkeys := [], erasing := [], debugged := true } }

/-- A transition is burned: it takes effect at the next reset. -/
def State.burn (s : State) (target : Nat) : State :=
  let s := { s with fuses := { s.fuses with pending := target } }
  let s := s.clearRegs (SS_PROV_BUF.WORD 0).off 10
  (s.set SS_IRQ_STATUS.LIFECYCLE_BURNED 1).lifecycleDone 0

/-- GO of SS_LIFECYCLE_CMD (Table 13.3). -/
def State.takeLifecycle (s : State) : State :=
  let t := s.get SS_LIFECYCLE_CMD.TARGET
  let lc := s.fuses.lifecycle
  let kik := s.regBytes (SS_PROV_BUF.WORD 0).off 4
  let hash := s.regBytes (SS_PROV_BUF.WORD 4).off 6
  if s.fuses.pending != lc then s.lifecycleDone 5
  else if lc == 0 && t == 1 then s.burn 1
  else if lc < 2 && t == 2 then
    if kik.all (· == 0) || hash.all (· == 0) then s.lifecycleDone 2
    else ({ s with fuses := { s.fuses with kik := kik, debugHash := hash } }).burn 2
  else if lc == 2 && t == 3 then
    if s.fuses.imageHash.isEmpty then s.lifecycleDone 3 else s.burn 3
  else if lc < 3 && t == 4 then s.retireErase.burn 4
  else if lc == 3 && t == 4 then
    if s.sec.retireAuth then s.retireErase.burn 4 else s.lifecycleDone 4
  else s.lifecycleDone 1

/-- A write of SS_LIFECYCLE_CMD. -/
def State.writeLifecycleCmd (s : State) (v : W64) : State :=
  s.issue v SS_LIFECYCLE_CMD.GO SS_LIFECYCLE_CMD.BUSY State.takeLifecycle

/-! ## The unlock challenge (R330, R331) -/

/-- Table 13.4: the words of the challenge message. -/
def State.challengeWords (s : State) (purpose no : Nat) (nonce : List W64) : List W64 :=
  let f := s.fuses
  [BitVec.ofNat 64 (purpose * 2 ^ 56 + f.lifecycle * 2 ^ 48 + f.inst * 2 ^ 40 + f.lot),
   BitVec.ofNat 64 (f.wafer * 2 ^ 59 + f.dieX * 2 ^ 51 + f.dieY * 2 ^ 43),
   BitVec.ofNat 64 no] ++ nonce ++ [0]

/-- R330: a challenge with a nonce from the random source. Other purposes make NEW take no effect. -/
def State.newChallenge (s : State) (nonce : List W64) : State :=
  let purpose := s.get SS_UNLOCK_CMD.PURPOSE
  let s := s.set SS_UNLOCK_CMD.NEW 0
  if purpose == 1 || purpose == 2 then
    let no := s.sec.challenges + 1
    let ws := s.challengeWords purpose no nonce
    let s := (List.range 8).foldl (fun s i => s.setWord (SS_CHALLENGE.WORD i).off (ws.getD i 0)) s
    { s with sec := { s.sec with challenges := no, challenge := some purpose } }
  else s

/-- R330: UNLOCK_NEW: NEW with a purpose; the nonce is what the random source draws. -/
def execUnlockNew (purpose : BitVec 8) (nonce : BitVec 256) (s : State) : Host.Outcome State Fault Refusal :=
  .next (s.after <| s.atPort SS_UNLOCK_CMD.NEW.off (fun s =>
    (s.writeFields SS_UNLOCK_CMD.NEW.off (cmdWord [(SS_UNLOCK_CMD.NEW, 1), (SS_UNLOCK_CMD.PURPOSE, purpose.toNat)])).newChallenge
      ((List.range 4).map (fun i => BitVec.ofNat 64 (nonce.toNat / 2 ^ (64 * i))))))

/-- An unlock completes with a code. -/
def State.unlockDone (s : State) (code : Nat) : State :=
  s.complete SS_UNLOCK_CMD.GO SS_UNLOCK_CMD.BUSY SS_UNLOCK_CMD.STATUS code

/-- Big-endian number of bytes. -/
def beNat (l : List Byte) : Nat := l.foldl (fun a b => a * 256 + b.toNat) 0

/-- R331: the result of the two checks: KEY_HASH 2, SIGNATURE 3, or OK 0. -/
def State.unlockResult (s : State) : Nat :=
  let buf := s.regBytes (SS_UNLOCK_BUF.WORD 0).off 24
  let msg := s.regBytes (SS_CHALLENGE.WORD 0).off 8
  if sha384 (buf.take 96) != s.fuses.debugHash then 2
  else if ecdsaVerify (beNat (buf.take 48)) (beNat ((buf.drop 48).take 48)) (beNat ((buf.drop 96).take 48))
      (beNat ((buf.drop 144).take 48)) (beNat (sha384 msg)) then 0
  else 3

/-- GO of SS_UNLOCK_CMD: the refusals in the order of R331; else a verification begins, and the engine leaves IDLE (R334). -/
def State.takeUnlock (s : State) : State :=
  let chal := s.sec.challenge
  let s := { s with sec := { s.sec with challenge := none } }
  if s.pm.st == .hold || s.pm.st == .enteringHold then s.unlockDone 5
  else if s.sec.lockout then s.unlockDone 4
  else if s.fuses.lifecycle != 3 then s.unlockDone 6
  else match chal with
    | none => s.unlockDone 1
    | some p =>
      let pm := if s.pm.st == .idle then { s.pm with st := .run } else s.pm
      { (s.set SS_UNLOCK_CMD.BUSY 1) with sec := { s.sec with verifying := some (p, s.unlockResult) }, pm := pm }

/-- A write of SS_UNLOCK_CMD; the nonce of a NEW in it is a fresh open value of the random source. -/
def State.writeUnlockCmd (s : State) (v : W64) : State :=
  let busy := s.flag SS_UNLOCK_CMD.BUSY
  let s := s.writeFields SS_UNLOCK_CMD.GO.off v
  let s := if bitOf v.toNat 63 then
      ({ s with free := s.free + 4 }).newChallenge ((List.range 4).map (fun i => Config.freeWord (s.free + i)))
    else s
  if bitOf v.toNat 62 && !busy then s.takeUnlock else s

/-- R331: UNLOCK_GO. -/
def execUnlockGo (s : State) : Host.Outcome State Fault Refusal :=
  .next (s.after <| s.atPort SS_UNLOCK_CMD.GO.off (fun s =>
    s.writeUnlockCmd (cmdWord [(SS_UNLOCK_CMD.GO, 1), (SS_UNLOCK_CMD.PURPOSE, s.get SS_UNLOCK_CMD.PURPOSE)])))

end Sys2Proof.Machine
end

