-- ==== Sys2Proof/Machine/ExchOps.lean ====
section
/-! DEFINITION. The Shed Exchange's operations (chapter 11): owners (R282, R283), when it may send (R291, R295), messages
and their tags (R289, R290), rounds of remote rows (R284 to R286), failed remote rows (R294), gradient and norm exchange
(R297, R298), gather, move and the end of a reshard (R300 to R303). Hosts are numbered 8 · Mill + host. -/

namespace Sys2Proof.Machine

/-! ## Places and owners (R281 to R283) -/

/-- The local Mill. -/
def State.mill (s : State) : Nat := s.get SX_NODE.MILL
/-- The local host, numbered. -/
def State.self (s : State) : Nat := 8 * s.mill + s.get SX_NODE.HOST

/-- Is a host alive in the owner map, its Mill reachable? -/
def State.alive (s : State) (host : Nat) : Bool :=
  s.flag (ST_OWNER_MAP.VALID (host / 8)) && bitOf (s.get (ST_OWNER_MAP.ALIVE (host / 8))) (host % 8)

/-- Where the rows of an adapter are computed: here, at another host, or nowhere that can be reached. -/
inductive Owner where
  | here | at (host : Nat) | unreachable
  deriving DecidableEq, Repr

/-- Table 11.1, R281, R283. -/
def State.ownerOf (s : State) (d : Dir) : Owner :=
  let m := d.ownerMill
  if !s.flag SX_NODE.VALID then .here
  else if m == s.mill && (d.mill == 1 || 8 * m + d.shard == s.self) then .here
  else if d.mill == 0 then (if s.alive (8 * m + d.shard) then .at (8 * m + d.shard) else .unreachable)
  else
    let n := s.get (ST_OWNER_MAP.HOSTS m)
    let j := s.get SX_NODE.HOST % max 1 n
    match ((List.range n).map (fun i => 8 * m + (j + i) % max 1 n)).find? s.alive with
    | some h => .at h
    | none => .unreachable

/-! ## Messages (R289 to R291) -/

/-- R290: the exchange key for a host: of the Mill, or of the deployment. -/
def State.exchangeKey (s : State) (host : Nat) : Option (List Byte) :=
  s.slotKey (if host / 8 == s.mill then 1 else 2) 0

/-- R295, Table 13.5: may the Shed Exchange use the fabric in the present lifecycle, debug level and power state? -/
def State.exchangeOpen (s : State) : Bool :=
  let lc := s.fuses.lifecycle
  s.flag SX_NODE.VALID && (lc == 1 || lc == 2 || lc == 3) && !s.fullRow && !s.scrubbing &&
    s.boot.stage == .up && (s.pm.st == .run || s.pm.st == .idle) && !s.cust.engineFailed

/-- May a message go to a host: the fabric is open, the epoch is set, numbers are left, the key is installed? -/
def State.canSend (s : State) (host : Nat) : Bool :=
  s.exchangeOpen && s.flag SX_EPOCH.VALID && decide (s.exch.nextSeq < 2 ^ 64 - 1) && (s.exchangeKey host).isSome

/-- SX_FAULT_LOG takes an event while its VALID is 0. Kinds: PEER_TIMEOUT 0, TAG_FAIL 1, UNDELIVERABLE 2, VERSION_MISMATCH 3,
ABORTED 4, DENIED 5, REPLAY 6. -/
def State.sxLog (s : State) (kind host adapter seq : Nat) : State :=
  if s.flag SX_FAULT_LOG.VALID then s else
  (((((s.set SX_FAULT_LOG.VALID 1).set SX_FAULT_LOG.KIND kind).set SX_FAULT_LOG.MILL (host / 8)).set SX_FAULT_LOG.HOST
    (host % 8)).set SX_FAULT_LOG.ADAPTER adapter).set SX_FAULT_LOG.SEQ seq

/-- Table 11.2: a header. -/
structure Header where
  kind : Nat
  last : Bool
  src : Nat
  dst : Nat
  length : Nat
  seq : Nat
  angle : W64
  epoch : Nat
  deriving DecidableEq, Repr

/-- Table 11.2: a header as bytes. -/
def Header.bytes (h : Header) : List Byte :=
  toLe 8 (h.kind * 2 ^ 60 + (if h.last then 2 ^ 59 else 0) + h.src * 2 ^ 44 + h.dst * 2 ^ 32 + h.length) ++
    toLe 8 h.seq ++ wordBytes h.angle ++ toLe 8 h.epoch

/-- Table 11.2: a header from bytes. -/
def Header.ofBytes (b : List Byte) : Header :=
  let w := leNat (b.take 8)
  { kind := bitsOf w 63 60, last := bitOf w 59, src := bitsOf w 55 44, dst := bitsOf w 43 32, length := bitsOf w 20 0,
    seq := leNat ((b.drop 8).take 8), angle := BitVec.ofNat 64 (leNat ((b.drop 16).take 8)),
    epoch := bitsOf (leNat ((b.drop 24).take 8)) 15 0 }

/-- R290: the nonce of a message. -/
def Header.nonce (h : Header) : List Byte :=
  bytesOf (beBytes 4 (h.src * 2 ^ 20 + h.kind * 2 ^ 16 + h.epoch) ++ beBytes 8 h.seq)

/-- KiB counted from bytes, with the bytes that make up no KiB yet. (Log entry 33.) -/
def kib (rest n : Nat) : Nat × Nat := ((rest + n) / 1024, (rest + n) % 1024)

/-- A message to be sent: its kind, its payload, the rows that it carries, the adapter it is of. -/
structure Outgoing where
  kind : Nat
  payload : List Byte
  rows : List (Nat × Nat) := []
  adapter : Option Nat := none
  deriving DecidableEq, Repr

/-- R290, R291, R293: a message goes to the fabric, and is outstanding from now. None goes once the numbers are used up. Answers
whether it went. -/
def State.sendMsg (s : State) (dst : Nat) (last : Bool) (angle : W64) (o : Outgoing) : State × Bool :=
  let kind := o.kind
  let payload := o.payload
  match s.exchangeKey dst with
  | none => (s, false)
  | some key =>
    if 2 ^ 64 - 1 ≤ s.exch.nextSeq then (s, false) else
    let h : Header := { kind := kind, last := last, src := s.self, dst := dst, length := payload.length,
                        seq := s.exch.nextSeq, angle := angle, epoch := s.get SX_EPOCH.EPOCH }
    let cipher := gcmCrypt key h.nonce payload
    let bytes := h.bytes ++ cipher ++ gcmTag key h.nonce h.bytes cipher
    let k := kib s.exch.outRest bytes.length
    let m : Sent := { id := s.exch.nextMsg, dst := dst, kind := kind, bytes := bytes, rows := o.rows, adapter := o.adapter }
    let x := { s.exch with nextSeq := s.exch.nextSeq + 1, nextMsg := s.exch.nextMsg + 1,
                           outstanding := s.exch.outstanding ++ [m], outRest := k.2 }
    (({ s with exch := x }).bump SX_BYTES.KIB_OUT k.1, true)

/-- Sections, with the rows each carries, packed into payloads of at most 1,048,576 B; no section spans two. -/
def packSections : List (List Byte × List (Nat × Nat)) → List (List Byte × List (Nat × Nat))
  | [] => []
  | x :: t =>
    match packSections t with
    | [] => [x]
    | y :: r => if x.1.length + y.1.length ≤ 1048576 then (x.1 ++ y.1, x.2 ++ y.2) :: r else x :: y :: r

/-- R289: messages go to a host in order; the last of them carries LAST where they are all of their batch. Answers those that did
not go. -/
def State.sendAll (s : State) (dst : Nat) (angle : W64) (final : Bool) (ms : List Outgoing) : State × List Outgoing :=
  (ms.mapIdx (fun i m => (i, m))).foldl (fun a m =>
    let r := a.1.sendMsg dst (final && m.1 + 1 == ms.length) angle m.2
    (r.1, if r.2 then a.2 else a.2 ++ [m.2])) (s, [])

/-- Sections as the messages that carry them. -/
def asMessages (kind : Nat) (adapter : Option Nat) (sections : List (List Byte × List (Nat × Nat))) : List Outgoing :=
  (packSections sections).map (fun m => ⟨kind, m.1, m.2, adapter⟩)

/-! ## Failed remote rows (R292 to R295) -/

/-- The remote rows of every round. -/
def State.remoteRows (s : State) : List RemoteRow := s.exch.rounds.flatMap (·.rows)

/-- Remote rows leave their rounds; a round without rows goes, and so does a REQUEST none of whose rows is left. -/
def State.dropRemote (s : State) (p : RemoteRow → Bool) : State :=
  let rs := (s.exch.rounds.map (fun r => { r with rows := r.rows.filter (fun x => !p x) })).filter (fun r => !r.rows.isEmpty)
  let left := rs.flatMap (·.rows)
  let out := s.exch.outstanding.filter (fun m => m.kind != 1 ||
    m.rows.any (fun q => left.any (fun x => x.bolt == q.1 && x.row == q.2 && x.sent)))
  { s with exch := { s.exch with rounds := rs, outstanding := out } }

/-- R294: one failed remote row: TIER_FAILED, a metadata-only record, and its bolt's tier status. -/
def State.failRemoteRow (s : State) (x : RemoteRow) (timeout : Bool) : State :=
  let link := ((s.row? x.bolt x.row).map (·.link)).getD 0
  let s := (s.modResult x.bolt x.row x.proj (fun r => { r with status := 4 })).answer link x.bolt x.row x.proj [] false false
  let s := s.modBolt x.bolt (fun b => { b with tierTimeout := b.tierTimeout || timeout, tierError := b.tierError || !timeout })
  (s.bump SX_EVENTS.FAILED_ROWS).releaseRow x.bolt x.row

/-- R294: remote rows fail. -/
def State.failRemote (s : State) (p : RemoteRow → Bool) (timeout : Bool) : State :=
  let xs := s.remoteRows.filter p
  xs.foldl (fun s x => s.failRemoteRow x timeout) (s.dropRemote p)

/-! ## Rounds (R284 to R286) -/

/-- Table 11.3: the section of a bolt's rows: its header, with zero in the reserved fields (R9), and, for each row, its tag and its
row record. -/
def requestSection (b : Bolt) (rows : List Row) : List Byte :=
  let w6 := putBits (putBits (putBits (b.desc.getD 6 0) 45 42 1) 41 21 rows.length) 20 0 0
  let desc := (List.range 8).map (fun i =>
    BitVec.ofNat 64 (descMask i) &&&
    (if i == 6 then w6
    else if i == 2 then putBits (b.desc.getD 2 0) 48 48 0
    else if i == 4 then putBits (b.desc.getD 4 0) 7 0 0
    else b.desc.getD i 0))
  desc.flatMap wordBytes ++ rows.flatMap (fun r =>
    toLe 8 (r.index * 2 ^ 44) ++ wordBytes r.meta0 ++ wordBytes r.meta1 ++
      padTo (payloadPadded (dFmt b.desc) (dDin b.desc)) r.payload)

/-- The sections of a bolt's remote rows for one owner; none is longer than a payload. -/
def State.boltSections (s : State) (bolt : Nat) (rows : List Nat) : List (List Byte × List (Nat × Nat)) :=
  match s.bolt? bolt with
  | none => []
  | some b =>
    let rs := rows.filterMap b.row?
    let per := max 1 ((1048576 - 64) / (8 + recordBytes b.desc))
    (groupsOf per rs).map (fun g => (requestSection b g, g.map (fun r => (bolt, r.index))))

/-- R285: a round launches: its rows go to their owners, or fail where the fabric is closed to them (R295). -/
def State.launchRound (s : State) (r : Round) : State :=
  let s := s.bump SX_EVENTS.ROUNDS
  let s := if r.late.isSome then s.bump SX_EVENTS.LATE_ROWS (sortNub (r.rows.map (·.row))).length else s
  let sent := r.rows.map (fun x => { x with sent := true })
  let rs := s.exch.rounds.map (fun q => if q == r then { r with launched := true, rows := sent } else q)
  let s := { s with exch := { s.exch with rounds := rs } }
  let s := (sortNub (r.rows.map (·.owner))).foldl (fun s h =>
    let mine := r.rows.filter (·.owner == h)
    if !s.canSend h then (s.failRemote (fun x => mine.any (fun y => y.bolt == x.bolt && y.row == x.row && y.proj == x.proj)) false).sxLog 5 h 0 0
    else
      let bolts := (mine.map (·.bolt)).eraseDups
      let secs := bolts.flatMap (fun b => s.boltSections b (sortNub ((mine.filter (·.bolt == b)).map (·.row))))
      let q := s.sendAll h r.angle true (asMessages 1 none secs)
      let unsent := q.2.flatMap (·.rows)
      if unsent.isEmpty then q.1
      else (q.1.failRemote (fun x => x.owner == h && x.sent && unsent.contains (x.bolt, x.row)) false).sxLog 5 h 0 0) s
  s.releaseFed

/-- R284, R285: a remote row joins the round of its bolt's angle, or its bolt's follow-up round. -/
def State.joinRound (s : State) (x : RemoteRow) (angle : W64) : State :=
  let main := !s.exch.roundDone && angle == s.angle
  let late := if main then none else some x.bolt
  let fits := fun (r : Round) => r.angle == angle && r.late == late && !r.launched
  let rs := if s.exch.rounds.any fits then
      modWhere fits (fun r => { r with rows := r.rows ++ [x] }) s.exch.rounds
    else s.exch.rounds ++ [{ angle := angle, late := late, rows := [x] }]
  { s with exch := { s.exch with rounds := rs } }

/-- Has every part of a bolt been grouped? -/
def Bolt.grouped (b : Bolt) : Bool :=
  b.refused.isSome || b.stopped || (b.arrived && b.rows.all (·.grouped))

/-- R285: the rounds that are due launch: the current word's once every bolt of its angle is grouped, a follow-up round
once its bolt is. -/
def State.launchDue (s : State) : State :=
  let due := s.exch.rounds.filter (fun r => !r.launched && (match r.late with
    | some b => (s.bolt? b).all Bolt.grouped
    | none => (s.weft.bolts.filter (fun b => b.remote.isNone && dAngle b.desc == r.angle)).all Bolt.grouped))
  due.foldl (fun s r =>
    let s := if r.late.isNone && r.angle == s.angle then { s with exch := { s.exch with roundDone := true } } else s
    s.launchRound r) s

/-- R285: the deadline of the current round has passed, or the next advance or opening word is accepted. -/
def State.launchMain (s : State) : State :=
  let due := s.exch.rounds.filter (fun r => !r.launched && r.late.isNone)
  let s := { s with exch := { s.exch with roundDone := true } }
  due.foldl (fun s r => s.launchRound r) s

/-! ## Gradients across a Mill (R296 to R298) -/

/-- The other hosts of the local Mill. -/
def State.peers (s : State) : List Nat :=
  ((List.range (s.get SX_NODE.HOSTS)).map (· + 8 * s.mill)).filter (· != s.self)

/-- R298: is every host of the Mill alive? -/
def State.millAlive (s : State) : Bool := s.peers.all s.alive

/-- Table 11.3: a data header. -/
def dataHeader (a first version chunks : Nat) : List Byte :=
  toLe 8 (a * 2 ^ 48 + first) ++ toLe 8 (version * 2 ^ 32 + chunks)

/-- R298: the exchange of an adapter's gradients fails: its update will be skipped. -/
def State.failLearning (s : State) (a : Nat) : State :=
  { s with skein := { s.skein with
      learners := modWhere (fun l => l.adapter == a && l.learns && !l.normDone) (fun l => { l with incomplete := true })
        s.skein.learners } }

/-- R297, R298: messages of an adapter's exchange go to a host of the Mill; where one cannot go, the exchange fails. -/
def State.sendLearning (s : State) (a h : Nat) (ms : List Outgoing) : State :=
  let r := if s.canSend h then s.sendAll h s.angle true ms else (s, ms)
  if r.2.isEmpty then r.1 else (r.1.failLearning a).sxLog 5 h a 0

/-- The learner of an adapter whose gradients are exchanged now. -/
def State.exchanging (s : State) (a : Nat) : Option Learner :=
  s.skein.learners.find? (fun l => l.adapter == a && l.learns && !l.normDone && !l.incomplete)

/-- A host's partial of a chunk joins the chunk's reduction. -/
def State.addPart (s : State) (a k host : Nat) (vals : List F32) : State :=
  let hit := fun (r : Reduction) => r.adapter == a && r.chunk == k
  let put := fun (r : Reduction) => { r with parts := mapIns r.parts host vals }
  let rs := if s.exch.reductions.any hit then modWhere hit put s.exch.reductions
    else s.exch.reductions ++ [put { adapter := a, chunk := k }]
  { s with exch := { s.exch with reductions := rs } }

/-- R139: the add of two partials. -/
def addPartials (a b : List F32) : List F32 := List.zipWith (fun x y => (slotAdd ⟨x, false⟩ ⟨y, false⟩).bits) a b

/-- R297: a chunk whose partials are all there is reduced in host order and written to the gradient area. -/
def State.reduceChunk (s : State) (x : Learner) (d : Dir) (k : Nat) : State :=
  match s.exch.reductions.find? (fun r => r.adapter == x.adapter && r.chunk == k && !r.done) with
  | none => s
  | some r =>
    if r.parts.length != s.get SX_NODE.HOSTS then s else
    match s.sectionOfChunk d x.opt k with
    | none => s
    | some sec =>
      let sum := match r.parts.map (·.2) with
        | [] => []
        | p :: t => t.foldl addPartials p
      let rs := modWhere (fun q => q.adapter == x.adapter && q.chunk == k) (fun q => { q with parts := [(0, sum)], done := true })
        s.exch.reductions
      let s := { s with exch := { s.exch with reductions := rs } }
      s.queueWrite 9 none (sec.base + 8192 * (k - sec.chunk0)) (f32Bytes sum)

/-- The chunks of an adapter that this host owns. -/
def State.ownedChunks (s : State) (x : Learner) (d : Dir) : List Nat :=
  ((s.learnSections d x.opt).flatMap (fun q => (List.range q.chunks).map (· + q.chunk0))).filter (s.ownsChunk d)

/-- R298: the sum of squares of a section's owned reduced chunks. -/
def State.ownSquares (s : State) (x : Learner) (d : Dir) (sec : Section) : F32 :=
  ((List.range sec.chunks).map (· + sec.chunk0)).foldl (fun acc k =>
    if !s.ownsChunk d k then acc else
    match s.exch.reductions.find? (fun r => r.adapter == x.adapter && r.chunk == k) with
    | none => acc
    | some r =>
      let v := ((r.parts.map (·.2)).headD []).map (fun y => some (f32Mul y y))
      f32Add acc ((treeRoot f32Add 11 v).getD 0)) 0

/-- A host's norm partials join the norm exchange of an adapter. -/
def State.addNorm (s : State) (a host : Nat) (vals : List F32) : State :=
  let hit := fun (r : NormExchange) => r.adapter == a
  let put := fun (r : NormExchange) => { r with parts := mapIns r.parts host vals }
  let rs := if s.exch.norms.any hit then modWhere hit put s.exch.norms else s.exch.norms ++ [put { adapter := a }]
  { s with exch := { s.exch with norms := rs } }

/-- R298: once every host's partials are there, the norm slots are formed in ascending host order. -/
def State.finishNorm (s : State) (x : Learner) (d : Dir) : State :=
  match s.exch.norms.find? (fun r => r.adapter == x.adapter && !r.done) with
  | none => s
  | some r =>
    if r.parts.length != s.get SX_NODE.HOSTS then s else
    let sums := match r.parts.map (·.2) with
      | [] => []
      | p :: t => t.foldl (fun a b => List.zipWith f32Add a b) p
    let rs := modWhere (fun q => q.adapter == x.adapter) (fun q => { q with done := true }) s.exch.norms
    let s := { s with exch := { s.exch with norms := rs } }
    ((s.learnSections d x.opt).mapIdx (fun i q => (i, q))).foldl (fun s q =>
      s.queueWrite 9 none q.2.norm (toLe 4 (sums.getD q.1 0).toNat)) s

/-- R298: once every owned chunk is reduced, the partials of the norm slots go to every other host. -/
def State.sendNorms (s : State) (x : Learner) (d : Dir) : State :=
  let mine := s.ownedChunks x d
  let done := mine.all (fun k => s.exch.reductions.any (fun r => r.adapter == x.adapter && r.chunk == k && r.done))
  let host := s.get SX_NODE.HOST
  if !done || s.exch.norms.any (fun n => n.adapter == x.adapter && (mapFind n.parts host).isSome) then s else
  let secs := s.learnSections d x.opt
  let vals := secs.map (s.ownSquares x d)
  let s := s.addNorm x.adapter host vals
  let s := s.peers.foldl (fun s h => s.sendLearning x.adapter h
    (asMessages 4 (some x.adapter) [(dataHeader x.adapter 0 0 secs.length ++ f32Bytes vals, [])])) s
  s.finishNorm x d

/-- R297: the gradients of a closed layer go to the owners of their chunks once its GRAD_OUT work has ended. -/
def State.sendLayer (s : State) (x : Learner) (d : Dir) (l : Nat) : State :=
  let busy := s.heddle.sums.any (fun y => y.adapter == x.adapter && y.rev == x.rev && y.layer == l) ||
    s.spindles.any (fun v => v.jobs.any (fun j => j.key.cls == 4 && j.key.adapter == x.adapter && j.key.bolt == x.rev &&
      j.key.layer == l))
  if busy || x.sent.contains l || (x.rev == s.revolution && !s.layerClosed l) then s else
  let secs := layerSections s.shape d x.opt l
  let s := (s.zeroMissing x secs).modLearner x.adapter x.rev (fun y => { y with sent := insertSorted l y.sent })
  let chunks := secs.flatMap (fun q => (List.range q.chunks).map (fun i => (q, i)))
  let r := chunks.foldl (fun (a : State × List (Nat × List F32)) c =>
    let n := min 2048 (c.1.elems - 2048 * c.2)
    let v := a.1.loomF32s (c.1.base + 8192 * c.2) n
    (v.1, a.2 ++ [(c.1.chunk0 + c.2, v.2)])) (s, [])
  let own := r.2.filter (fun c => r.1.ownsChunk d c.1)
  let s := own.foldl (fun s c => (s.addPart x.adapter c.1 (s.get SX_NODE.HOST) c.2).reduceChunk x d c.1) r.1
  let s := s.peers.foldl (fun s h =>
    let secs := (r.2.filter (fun c => c.1 % s.get SX_NODE.HOSTS == h % 8)).map (fun c =>
      (dataHeader x.adapter c.1 0 1 ++ f32Bytes c.2, ([] : List (Nat × Nat))))
    s.sendLearning x.adapter h (asMessages 3 (some x.adapter) secs)) s
  s.sendNorms x d

/-- R297, R298: every replicated adapter that learns sends the layers that are ready, while every host of the Mill is alive. -/
def State.exchangeGradients (s : State) : State :=
  (s.skein.learners.filter (fun x => x.learns && !x.normDone && !x.incomplete)).foldl (fun s x =>
    let s := s.reachDir x.adapter
    match s.rawDir x.adapter with
    | none => s
    | some d =>
      if !s.replicatedHere d then s
      else if !s.millAlive then s.failLearning x.adapter else
      (List.range d.layers).foldl (fun s l =>
        match s.exchanging x.adapter with
        | none => s
        | some x => s.sendLayer x d l) s) s

/-- R297: gradients may be ready to be sent. -/
def State.gradientsDue (s : State) : State :=
  if s.tiers.work.contains .gradients then s else s.addWork .gradients

/-! ## Reshards (R300 to R303) -/

/-- R303: a reshard ends incomplete: the adapters whose gather is incomplete lose their pending versions. -/
def State.failReshard (s : State) (kind host adapter seq : Nat) : State :=
  match s.exch.reshard with
  | none => s
  | some r =>
    let unsent := (s.exch.outstanding.filter (fun m => r.sends.contains m.id && m.kind == 5)).filterMap (·.adapter)
    let as := sortNub (r.gathers.map (·.1) ++ unsent)
    let pay := fun (w : Work) => match w with | .payload k _ _ _ => k == 5 || k == 6 | .reshard _ => true | _ => false
    let s := { s with tiers := { s.tiers with work := s.tiers.work.filter (fun w => !pay w) } }
    let s := { s with exch := { s.exch with reshard := none,
                                            outstanding := s.exch.outstanding.filter (fun m => !r.sends.contains m.id) } }
    let s := as.foldl (fun s a => (s.addWork (.discard a true)).bump SX_GATHER_EVENTS.ADAPTERS_LOST) s
    (s.sxLog kind host adapter seq).set SX_STATUS.RESHARD_FAILED 1

/-- Change the reshard under way. -/
def State.modReshard (s : State) (f : Reshard → Reshard) : State :=
  let x := { s.exch with reshard := s.exch.reshard.map f }
  { s with exch := x }

/-- R302: a reshard is complete once everything has been sent and delivered, and everything expected has been written: its engine
writes have landed. -/
def State.checkReshard (s : State) : State :=
  match s.exch.reshard with
  | none => s
  | some r =>
    if r.started && r.gathers.isEmpty && r.moves.isEmpty && r.sends.isEmpty && !s.tiers.writes.any (·.source == 9) &&
        !s.tiers.work.any (fun w => match w with | .payload k _ _ _ => k == 5 || k == 6 | _ => false) then
      { s with exch := { s.exch with reshard := none } }
    else s

/-- R301: one chunk of a pending run as GATHER carries it: its elements, then its block scales. -/
def State.gatherChunk (s : State) (m : Mat) (first n : Nat) : State × List Byte :=
  let idx := (List.range n).map (· + first)
  let code := fun (a : State × List Nat) i =>
    let e := m.updElem i
    let r := a.1.loomReadOpen 9 (m.elemAddr e.1 e.2) (if m.fmt.bits == 16 then 2 else 1)
    (r.1, a.2 ++ [if m.fmt.bits == 4 then bitsOf (leNat r.2) (m.bitOff e.1 e.2 % 8 + 3) (m.bitOff e.1 e.2 % 8) else leNat r.2])
  let c := idx.foldl code (s, [])
  if m.fmt.isMx then
    let r := c.1.loomReadOpen 9 (m.scales + first / 32) (ceilDiv n 32)
    (r.1, packCodes m.fmt c.2 ++ r.2)
  else (c.1, packCodes m.fmt c.2)

/-- R301, R208: codes, and scales, of elements in update order go to their places in a run. -/
def State.codeBytes (s : State) (m : Mat) (codes : List (Nat × Nat)) (scales : List (Nat × Nat)) : State × SMap Byte :=
  let r := codes.foldl (fun (a : State × SMap Byte) c =>
    let e := m.updElem c.1
    let addr := m.elemAddr e.1 e.2
    if m.fmt.bits == 4 then
      let old : State × Nat := match mapFind a.2 addr with
        | some b => (a.1, b.toNat)
        | none => let r := a.1.loomReadOpen 8 addr 1; (r.1, leNat r.2)
      let v := if m.bitOff e.1 e.2 % 8 == 0 then old.2 / 16 * 16 + c.2 % 16 else old.2 % 16 + c.2 % 16 * 16
      (old.1, mapIns a.2 addr (BitVec.ofNat 8 v))
    else if m.fmt.bits == 16 then (a.1, mapIns (mapIns a.2 addr (BitVec.ofNat 8 c.2)) (addr + 1) (BitVec.ofNat 8 (c.2 / 256)))
    else (a.1, mapIns a.2 addr (BitVec.ofNat 8 c.2))) (s, [])
  (r.1, scales.foldl (fun mp c => mapIns mp (m.scales + c.1) (BitVec.ofNat 8 c.2)) r.2)

/-- The matrix of a section in a run. -/
def State.runMat (s : State) (d : Dir) (run : Run) (sec : Section) : Option Mat := matOf s.shape d run sec.proj sec.isB

/-- R301: the adapters that a gather covers: replicated here, their pending versions opened by UPD in the last LEARN
revolution and not skipped. -/
def State.gatherAdapters (s : State) : State × List (Learner × Dir) :=
  (s.skein.learners.filter (fun x => x.opened && !x.skipped && x.rev == s.skein.learnRev)).foldl (fun a x =>
    let s := a.1.reachDir x.adapter
    match s.rawDir x.adapter with
    | none => (s, a.2)
    | some d => if s.replicatedHere d && d.pending != 0 then (s, a.2 ++ [(x, d)]) else (s, a.2)) (s, [])

/-- R301: the GATHER sections of an adapter: its owned chunks of the pending version. -/
def State.gatherSections (s : State) (x : Learner) (d : Dir) : State × List (List Byte × List (Nat × Nat)) :=
  (s.learnSections d x.opt).foldl (fun a sec =>
    match a.1.peekRun x.adapter d.pending sec.layer with
    | none => a
    | some run =>
      match a.1.runMat d run sec with
      | none => a
      | some m =>
        ((List.range sec.chunks).filter (fun i => a.1.ownsChunk d (sec.chunk0 + i))).foldl (fun a i =>
          let r := a.1.gatherChunk m (2048 * i) (min 2048 (sec.elems - 2048 * i))
          (r.1, a.2 ++ [(dataHeader x.adapter (sec.chunk0 + i) d.pending 1 ++ r.2, [])])) a) (s, [])

/-- The messages sent since a count belong to the reshard. -/
def State.ownSends (s : State) (since : Nat) : State :=
  let ids := (s.exch.outstanding.filter (fun m => decide (since ≤ m.id))).map (·.id)
  s.modReshard (fun r => { r with sends := r.sends ++ ids })

/-- Messages by their destination, in the order they are to go. -/
def addTo (m : SMap (List Outgoing)) (h : Nat) (l : List Outgoing) : SMap (List Outgoing) :=
  if l.isEmpty then m else mapIns m h (mapGet [] m h ++ l)

/-- R301: the gather of a plan: what this host expects, and what it sends to each host. -/
def State.startGather (s : State) : State × SMap (List Outgoing) :=
  let g := s.gatherAdapters
  g.2.foldl (fun a xd =>
    let s := a.1
    let peers := s.peers.filter s.alive
    let expect := peers.map (fun h => (xd.1.adapter, h,
      (((s.learnSections xd.2 xd.1.opt).map (fun q => ((List.range q.chunks).filter (fun i =>
        (q.chunk0 + i) % s.get SX_NODE.HOSTS == h % 8)).length)).sum)))
    let s := s.modReshard (fun r => { r with gathers := r.gathers ++ expect.filter (fun e => e.2.2 != 0) })
    let secs := s.gatherSections xd.1 xd.2
    (secs.1, peers.foldl (fun m h => addTo m h (asMessages 5 (some xd.1.adapter) secs.2)) a.2)) (g.1, [])

/-- R302: a move entry: tiles that this host expects, or sends. -/
def State.startMove (s : State) (out : SMap (List Outgoing)) (w0 w1 : W64) : State × SMap (List Outgoing) :=
  let x := w0.toNat
  let y := w1.toNat
  let src := bitsOf x 63 52
  let dst := bitsOf y 63 52
  let first := bitsOf x 51 0 / tileBytes
  let n := bitsOf y 31 0
  let s := if dst == s.self && src != s.self then
      s.modReshard (fun r => { r with moves := r.moves ++ [(src, first, n)] })
    else s
  if src == s.self && dst != s.self then
    let r := (List.range n).foldl (fun (a : State × List (List Byte × List (Nat × Nat))) i =>
      let t := first + i
      let b := a.1.loomReadOpen 9 (t * tileBytes) tileBytes
      (b.1, a.2 ++ [(toLe 8 (t * tileBytes) ++ toLe 8 1 ++ b.2, [])])) (s, [])
    (r.1, addTo out dst (asMessages 6 none r.2))
  else (s, out)

/-- R300: a reshard of plan p begins: it is active from now, and its plan is to be read. -/
def State.beginPlan (s : State) (plan : Nat) : State :=
  let s := s.set SX_STATUS.PLAN plan
  ({ s with exch := { s.exch with reshard := some { plan := plan } } }).addWork (.reshard plan)

/-- R300 to R302: the plan has been read: everything this host sends goes out, LAST on the last message to each host. -/
def State.startReshard (s : State) (plan : Nat) : State :=
  let since := s.exch.nextMsg
  let p := s.loomReadOpen 9 (s.get SX_PLAN_BASE.BASE * 2 ^ 21 + 32 * plan) 32
  let w0 := leNat (p.2.take 8)
  let n := leNat ((p.2.drop 8).take 4)
  let g := if bitOf w0 63 then p.1.startGather else (p.1, [])
  let m := (List.range n).foldl (fun (a : State × SMap (List Outgoing)) i =>
    let e := a.1.loomReadOpen 9 (bitsOf w0 51 0 / 32 * 32 + 32 * i) 16
    e.1.startMove a.2 (BitVec.ofNat 64 (leNat (e.2.take 8))) (BitVec.ofNat 64 (leNat (e.2.drop 8)))) g
  let sent := m.2.foldl (fun (a : State × Bool) d =>
    let r := if a.1.canSend d.1 then a.1.sendAll d.1 a.1.angle true d.2 else (a.1, d.2)
    if r.2.isEmpty then (r.1, a.2) else (r.1.sxLog 5 d.1 0 0, false)) (m.1, true)
  let s := (sent.1.ownSends since).modReshard (fun r => { r with started := true })
  if sent.2 then s.checkReshard else s.failReshard 5 0 0 0

/-! ## A closed fabric (R295) -/

/-- R295: is anything under way on the fabric: remote rows, messages, a reshard, the exchange of an adapter's gradients? -/
def State.exchangeBusy (s : State) : Bool :=
  !s.remoteRows.isEmpty || s.exch.reshard.isSome || !s.exch.outstanding.isEmpty || !s.exch.held.isEmpty ||
    s.exch.reductions.any (fun r => !r.done) || s.exch.norms.any (fun n => !n.done)

/-- R295: the fabric closes: every remote row and every exchange under way fails. -/
def State.closeExchange (s : State) : State :=
  let busy := s.exchangeBusy
  let s := s.failRemote (fun _ => true) false
  let s := s.failReshard 5 0 0 0
  let s := (sortNub ((s.exch.reductions.map (·.adapter)) ++ s.exch.norms.map (·.adapter))).foldl State.failLearning s
  let reductions := s.exch.reductions.filter (·.done)
  let norms := s.exch.norms.filter (·.done)
  let s := { s with exch := { s.exch with outstanding := [], held := [], reductions := reductions, norms := norms } }
  if busy then s.sxLog 5 0 0 0 else s

end Sys2Proof.Machine
end

