-- ==== Sys2Proof/Machine/Gather.lean ====
section
/-! DEFINITION. What a host does with the payloads of GRADIENT, NORM, GATHER and MOVE messages (R297, R298, R301, R302). -/

namespace Sys2Proof.Machine

/-! ## Gradients and norms (R297, R298) -/

/-- R297: a peer's gradient of an adapter that has had no row here yet: the adapter takes part from now, with gradient +0 of its own
(R201). -/
def State.joinExchange (s : State) (a : Nat) : State :=
  match s.dir? a with
  | none => s
  | some d => if s.replicatedHere d then (s.contribute a d.tenant).1 else s

/-- R297: the chunks of a GRADIENT section, from chunk k on. -/
def State.takeChunks (s : State) (src a : Nat) : Nat → Nat → List Byte → State × List Byte
  | 0, _, b => (s, b)
  | n + 1, k, b =>
    match s.dir? a with
    | none => (s, [])
    | some d =>
      match s.sectionOfChunk d 0 k with
      | none => (s, [])
      | some sec =>
        let size := 4 * min 2048 (sec.elems - 2048 * (k - sec.chunk0))
        let vals := (groupsOf 4 (b.take size)).map (fun q => BitVec.ofNat 32 (leNat q))
        let s := match s.exchanging a with
          | some x => if s.ownsChunk d k then ((s.addPart a k (src % 8) vals).reduceChunk x d k).sendNorms x d else s
          | none => s
        State.takeChunks s src a n (k + 1) (b.drop size)

/-- R297: the sections of a GRADIENT payload. -/
def State.takeGradient (s : State) (src : Nat) : Nat → List Byte → State
  | 0, _ => s
  | fuel + 1, b =>
    if b.length < 16 then s else
    let w0 := leNat (b.take 8)
    let a := bitsOf w0 63 48
    let s := (s.reachDir a).joinExchange a
    let r := s.takeChunks src a (bitsOf (leNat ((b.drop 8).take 8)) 31 0) (bitsOf w0 31 0) (b.drop 16)
    State.takeGradient r.1 src fuel r.2

/-- R298: the sections of a NORM payload. -/
def State.takeNorm (s : State) (src : Nat) : Nat → List Byte → State
  | 0, _ => s
  | fuel + 1, b =>
    if b.length < 16 then s else
    let a := bitsOf (leNat (b.take 8)) 63 48
    let n := bitsOf (leNat ((b.drop 8).take 8)) 31 0
    let vals := (groupsOf 4 ((b.drop 16).take (4 * n))).map (fun q => BitVec.ofNat 32 (leNat q))
    let s := (s.reachDir a).joinExchange a
    let s := match s.exchanging a, s.rawDir a with
      | some x, some d => (s.addNorm a (src % 8) vals).finishNorm x d
      | _, _ => s
    State.takeNorm s src fuel (b.drop (16 + 4 * n))

/-! ## Gathers (R301) -/

/-- R301: bytes of a gathered chunk of n elements: the elements, and the block scales. -/
def chunkBytes (f : EFmt) (n : Nat) : Nat := ceilDiv (n * f.bits) 8 + (if f.isMx then ceilDiv n 32 else 0)

/-- The codes of a gathered chunk. -/
def chunkCodes (f : EFmt) (n : Nat) (b : List Byte) : List Nat :=
  (List.range n).map (fun i => bitsOf (leNat ((b.drop (i * f.bits / 8)).take 2)) (i * f.bits % 8 + f.bits - 1) (i * f.bits % 8))

/-- R301: one chunk goes to its places in the pending run. -/
def State.placeChunk (s : State) (a : Nat) (d : Dir) (k : Nat) (b : List Byte) : State :=
  match s.sectionOfChunk d 0 k with
  | none => s
  | some sec =>
    let first := 2048 * (k - sec.chunk0)
    let n := min 2048 (sec.elems - first)
    match s.pendingRun a sec.layer with
    | some (s, some run) =>
      match s.runMat d run sec with
      | none => s
      | some m =>
        let codes := (chunkCodes m.fmt n b).mapIdx (fun i c => (first + i, c))
        let scales := if m.fmt.isMx then
            ((b.drop (ceilDiv (n * m.fmt.bits) 8)).take (ceilDiv n 32)).mapIdx (fun i c => (first / 32 + i, c.toNat))
          else []
        let r := s.codeBytes m codes scales
        ((byteRuns r.2).foldl (fun s q => s.queueWrite 9 none q.1 q.2) r.1).bump SX_GATHER_EVENTS.CHUNKS_IN
    | _ => s

/-- The bytes of chunk k of an adapter as GATHER carries it. -/
def State.chunkSize (s : State) (d : Dir) (k : Nat) : Nat :=
  match s.sectionOfChunk d 0 k with
  | none => 0
  | some sec => chunkBytes d.fmt (min 2048 (sec.elems - 2048 * (k - sec.chunk0)))

/-- The chunks of a section, from chunk k on. -/
def State.placeChunks (s : State) (a : Nat) (d : Dir) : Nat → Nat → List Byte → State
  | 0, _, _ => s
  | n + 1, k, b => State.placeChunks (s.placeChunk a d k b) a d n (k + 1) (b.drop (s.chunkSize d k))

/-- R302: chunks expected from a host have come. -/
def State.gotChunks (s : State) (a src n : Nat) : State :=
  let got := fun (g : Nat × Nat × Nat) => if g.1 == a && g.2.1 == src then (g.1, g.2.1, g.2.2 - n) else g
  s.modReshard (fun r => { r with gathers := (r.gathers.map got).filter (·.2.2 != 0) })

/-- R301: the sections of a GATHER payload, each tested against its adapter's PENDING. One of an adapter without an entry has no
PENDING to equal, and its size is not known: it ends the reading. -/
def State.gatherSection (s : State) (src : Nat) : Nat → List Byte → State
  | 0, _ => s
  | fuel + 1, b =>
    if b.length < 16 then s else
    let w0 := leNat (b.take 8)
    let w1 := leNat ((b.drop 8).take 8)
    let a := bitsOf w0 63 48
    let k := bitsOf w0 31 0
    let n := bitsOf w1 31 0
    let s := s.reachDir a
    match s.dir? a with
    | none => (s.bump SX_GATHER_EVENTS.VERSION_MISMATCH).sxLog 3 src a 0
    | some d =>
      let span := ((List.range n).map (fun i => s.chunkSize d (k + i))).sum
      let s := if bitsOf w1 63 32 == d.pending && d.pending != 0 then
          (s.placeChunks a d n k ((b.drop 16).take span)).gotChunks a src n
        else (s.bump SX_GATHER_EVENTS.VERSION_MISMATCH).sxLog 3 src a 0
      State.gatherSection s src fuel (b.drop (16 + span))

/-! ## Moves (R302) -/

/-- R302: one tile of a MOVE section: written where it is the next that a move entry of its source expects, else dropped. -/
def State.moveTile (s : State) (src t : Nat) (b : List Byte) : State :=
  let due := fun (m : Nat × Nat × Nat) => m.1 == src && m.2.1 == t
  if !s.exch.reshard.any (fun r => r.moves.any due) then s else
  let next := fun (m : Nat × Nat × Nat) => if due m then (m.1, m.2.1 + 1, m.2.2 - 1) else m
  (s.queueWrite 9 none (t * tileBytes) b).modReshard (fun r => { r with moves := (r.moves.map next).filter (·.2.2 != 0) })

/-- R302: the sections of a MOVE payload. -/
def State.moveSection (s : State) (src : Nat) : Nat → List Byte → State
  | 0, _ => s
  | fuel + 1, b =>
    if b.length < 16 then s else
    let first := bitsOf (leNat (b.take 8)) 51 0 / tileBytes
    let n := bitsOf (leNat ((b.drop 8).take 8)) 31 0
    let s := (List.range n).foldl (fun s i =>
      s.moveTile src (first + i) ((b.drop (16 + i * tileBytes)).take tileBytes)) s
    State.moveSection s src fuel (b.drop (16 + n * tileBytes))

/-- What a verified payload of kind 3 to 6 does. -/
def State.usePayload (s : State) (kind src : Nat) (b : List Byte) : State :=
  let fuel := b.length / 16 + 1
  match kind with
  | 3 => s.takeGradient src fuel b
  | 4 => s.takeNorm src fuel b
  | 5 => s.gatherSection src fuel b
  | _ => s.moveSection src fuel b

/-- R300, R301, R302: the payload of a verified GATHER (5) or MOVE (6) message; one that comes before this host's BEGIN_RESHARD
waits. -/
def State.reshardPayload (s : State) (kind src : Nat) (angle : W64) (b : List Byte) : State :=
  if s.exch.reshard.isNone then { s with exch := { s.exch with early := s.exch.early ++ [(kind, src, b)] } }
  else s.addWork (.payload kind src angle b)

/-- Payloads that came early are used once the reshard has begun; a message that was lost before it fails it (R303). -/
def State.takeEarly (s : State) : State :=
  let early := s.exch.early
  let lost := s.exch.earlyLost
  let s := { s with exch := { s.exch with early := [], earlyLost := none } }
  match lost with
  | some l => s.failReshard l.1 l.2.1 0 l.2.2
  | none => early.foldl (fun s e => s.reshardPayload e.1 e.2.1 s.angle e.2.2) s

end Sys2Proof.Machine
end

