-- ==== Sys2Proof/Machine/Gangs.lean ====
section
/-! DEFINITION. Forming gangs at grouping: the outcome of a row (R69, R216, R217, R225), the lists and Harnesses of a
window's adapters (R123, R226), their gangs for forward and backward bolts (R108, R196), the stash pairings (R193, R194,
R200), the picks of flying-shuttle mode (R310, R311). -/

namespace Sys2Proof.Machine

/-! ## Outcomes (R69, R216, R217, R225) -/

/-- R217: do the bolt's widths for a projection match its shape, for the bolt's pass? -/
def State.widthsMatch (s : State) (d : List W64) (p : Nat) : Bool :=
  match s.shape p with
  | none => false
  | some (din, dout) =>
    if dBackward d then dDin d == dout && dDout d p == din else dDin d == din && dDout d p == dout

/-- R219: the version that a row of adapter a latches, or would. -/
def State.latched (s : State) (a : Nat) (d : Dir) : Nat := (mapFind s.skein.latches a).getD d.current

/-- The skein tiles of a projection in a layer's run: those of A and of B. -/
def State.projTiles (s : State) (d : Dir) (run : Run) (p : Nat) : List Nat :=
  sortNub (((matOf s.shape d run p false).toList ++ (matOf s.shape d run p true).toList).flatMap Mat.allTiles)

/-- Where a row of a bolt is computed. The rows of a remote bolt have reached their owner. -/
def State.rowOwner (s : State) (b : Bolt) (d : Dir) : Owner := if b.remote.isSome then .here else s.ownerOf d

/-- What a grouped row is for one projection: the status of Table 3.6, its version, its adapter. -/
structure Judged where
  row : Row
  proj : Nat
  status : Nat
  version : Nat := 0
  owner : Owner := .here
  /-- a TIER_FAILED outcome that a failure under R275 caused (R277) -/
  gone : Bool := false
  /-- the tiles that a TIER_FAILED outcome could not read -/
  bad : List Nat := []
  deriving DecidableEq, Repr

/-- R69, Table 3.6: the outcome of a row that is not EMBED, for a projection. A row whose owner is another host is tested
here for what the directory says of it. -/
def State.judge (s : State) (b : Bolt) (r : Row) (p : Nat) : Judged :=
  let out := fun (st : Nat) => ({ row := r, proj := p, status := st } : Judged)
  if r.mask then out 1 else
  match s.dir? r.adapter with
  | none => out 2
  | some d =>
    let layer := angleLayer (dAngle b.desc)
    if !bitOf d.projMask p || !s.widthsMatch b.desc p || d.layers ≤ layer then out 2
    else match s.rowOwner b d with
      | .here =>
        let v := s.latched r.adapter d
        match s.peekRun r.adapter v layer with
        | none => out 2
        | some run =>
          if r.tenant != d.tenant then out 3
          else
            let tiles := s.projTiles d run p
            if tiles.any s.tileError then { out 4 with gone := tiles.any s.tileGone, bad := tiles.filter s.tileError }
            else { out 0 with version := v }
      | o => if r.tenant != d.tenant then out 3 else { out 0 with owner := o }

/-- R225: the descriptor cache holds the entry of adapter a, the latest in front; it holds 8,192 of them (log entry 123). -/
def State.cacheEntry (s : State) (a : Nat) : State :=
  { s with skein := { s.skein with cache := (a :: s.skein.cache.filter (· != a)).take 8192 } }

/-- R225: what the tests of a row read is brought within reach: the entry of its adapter, unless the descriptor cache holds it,
and the map entry of its layer. -/
def State.reachRow (s : State) (layer a : Nat) : State :=
  let s := (if s.skein.cache.contains a then s else s.reachDir a).cacheEntry a
  match s.dir? a with
  | none => s
  | some d => (s.runOf a (s.latched a d) layer).1

/-- R316: a result ends TENANT_MISMATCH. -/
def State.tenantMismatch (s : State) (tenant adapter owner : Nat) : State :=
  let s := (s.bump SS_TENANT_EVENTS.MISMATCH).set SS_IRQ_STATUS.MISMATCH 1
  if s.flag SS_TENANT_LOG.VALID then s else
  (((s.set SS_TENANT_LOG.VALID 1).set SS_TENANT_LOG.TENANT tenant).set SS_TENANT_LOG.ADAPTER adapter).set
    SS_TENANT_LOG.OWNER owner

/-- R69, R123: a result that is not APPLIED is answered with metadata only, and keeps out of every list. -/
def State.answerOut (s : State) (b : Bolt) (j : Judged) (owner : Nat) : State :=
  let s := s.modBolt b.id (fun x => { x with
    results := x.results ++ [{ row := j.row.index, proj := j.proj, status := j.status, adapter := j.row.adapter,
                               harness := j.row.link, table := j.row.embed }],
    tierTimeout := x.tierTimeout || (j.status == 4 && j.gone),
    tierError := x.tierError || (j.status == 4 && !j.gone) })
  let s := if j.status == 3 then s.tenantMismatch j.row.tenant j.row.adapter owner else s
  let s := s.noteUnmapped j.bad
  (s.bump (SD_ROW_EVENTS.ROWS_COMPACTED j.row.link)).answer j.row.link b.id j.row.index j.proj [] false false

/-! ## Lists of a window (R123, R226) -/

/-- An adapter of a window: its rows with the projections for which they are APPLIED, in ascending row index. -/
structure AdList where
  adapter : Nat
  version : Nat
  rows : List (Row × List Nat)
  deriving DecidableEq, Repr

/-- R123: the lists of a window's APPLIED outcomes, by adapter. -/
def adapterLists (js : List Judged) : List AdList :=
  (sortNub (js.map (fun j => j.row.adapter))).map (fun a =>
    let mine := js.filter (fun j => j.row.adapter == a)
    let idx := sortNub (mine.map (fun j => j.row.index))
    { adapter := a, version := (mine.head?.map (·.version)).getD 0,
      rows := idx.filterMap (fun i =>
        let of := mine.filter (fun j => j.row.index == i)
        of.head?.map (fun j => (j.row, of.map (·.proj)))) })

/-- R226: the order of the adapters of a window. -/
def listBefore (a b : AdList) : Bool :=
  decide (b.rows.length < a.rows.length) || (a.rows.length == b.rows.length && decide (a.adapter < b.adapter))

/-- An adapter's part in one Harness (R226). -/
structure AdPart where
  h : Nat
  adapter : Nat
  version : Nat
  rows : List (Row × List Nat)
  deriving DecidableEq, Repr

/-- R226: the Harnesses of each adapter of a window, with the parts of its list. -/
def State.placeLists (s : State) (b : Bolt) (ls : List AdList) : State × List AdPart :=
  let r := (sortBy listBefore ls).foldl (fun (a : State × List Nat × List AdPart) l =>
    match a.1.dir? l.adapter with
    | none => a
    | some d =>
      let before := (sortNub ((b.results.filter (fun r => r.adapter == l.adapter && r.fed)).map (·.row))).filter
        (fun i => !l.rows.any (fun x => x.1.index == i))
      let n := l.rows.length
      let c := a.1.chooseHarnesses a.2.1 l.adapter d.rank d.policy n (before.length + n)
      let k := c.2.1.length
      let parts := c.2.1.mapIdx (fun j h =>
        let w := partBounds n k j
        ({ h := h, adapter := l.adapter, version := l.version, rows := (l.rows.drop w.1).take (w.2 - w.1) } : AdPart))
      (c.1, c.2.2, a.2.2 ++ parts.filter (fun q => !q.rows.isEmpty))) (s, List.replicate 8 0, [])
  (r.1, r.2.2)

/-! ## Row copies (R126) -/

/-- R126: the rows that gangs of Harness h read are copied into its row stage, once each. -/
def State.askRows (s : State) (h bolt : Nat) (rows : List Row) : State :=
  if (s.bolt? bolt).any (·.remote.isSome) then s else
  rows.foldl (fun s r =>
    let x := s.harness h
    if r.link == h || x.reqs.any (fun q => q.bolt == bolt && q.row == r.index) ||
        x.stage.any (fun e => e.bolt == bolt && e.row == r.index && e.kind == .row && !e.spoiled) then s
    else s.modHarness h (fun x => { x with reqs := x.reqs ++ [⟨bolt, r.index⟩] })) s

/-- R192: the GRAD_ROW jobs of a backward bolt's rows in Harness h. -/
def State.askGradRows (s : State) (h : Nat) (b : Bolt) (rows : List Row) : State :=
  if !dBackward b.desc then s else
  rows.foldl (fun s r =>
    let key : JobKey := { cls := 2, bolt := b.id, row := r.index }
    if (s.job? h key).isSome || (s.harness h).stage.any (fun e => e.bolt == b.id && e.row == r.index && e.kind == .dY && !e.spoiled)
    then s else s.addJob h { key := key, rows := [r.index], total := dDin b.desc }) s

/-! ## Learning rows (R190 to R200) -/

/-- R200: would adapter a learn, without a contribution? -/
def State.learnsNow (s : State) (a tenant : Nat) : State × Bool :=
  if s.phase != 2 then (s, false) else
  match s.learner? a s.revolution with
  | some l => (s, l.learns)
  | none =>
    if s.getF ST_LEARN_RECORD_BASE.VALID != 1 then (s, false) else
    let r := s.readRecord a
    (r.1, s.getF ST_LEARN_CTRL.ENABLE == 1 && s.getF (ST_TP_CTRL.ENABLE tenant) == 1 && bitOf ((r.2.getD 2 0).toNat) 63)

/-- R190, R200, R203: does a part contribute; the rows that come after the close are counted. -/
def State.learnPart (s : State) (b : Bolt) (x : AdPart) (tenant : Nat) : State × Bool :=
  if s.layerClosed (angleLayer (dAngle b.desc)) then
    let r := s.learnsNow x.adapter tenant
    if r.2 then ((r.1.bump ST_LEARN_EVENTS.LATE_ROWS x.rows.length).set ST_LEARN_STATUS.LATE_GRADIENT 1, false)
    else (r.1, false)
  else s.contribute x.adapter tenant

/-- R193, R194: the rows of a list that pair with an unused stash entry, with where it lies; the entries become used. -/
def State.pairRows (s : State) (b : Bolt) (p : Nat) (isDh : Bool) (rows : List Row) : State × List (Row × Nat) :=
  rows.foldl (fun a r =>
    match a.1.stashFind b p r.index isDh with
    | some e => if e.pairs r then (a.1.useStash e, a.2 ++ [(r, e.addr)]) else a
    | none => a) (s, [])

/-! ## Gangs (R108, R196) -/

/-- What every gang of a part shares. -/
def gangBase (b : Bolt) (window : Nat) (d : Dir) (x : AdPart) (p replay : Nat) (rows : List Row) : Gang :=
  { bolt := b.id, window := window, proj := p, adapter := x.adapter, tenant := d.tenant,
    layer := angleLayer (dAngle b.desc), rank := d.rank, version := x.version, fmt := d.fmt,
    rows := rows.map (·.index), kind := .r, purposes := [], din := dDin b.desc, dout := dDout b.desc p,
    rowFmt := dFmt b.desc, tiles := [], replay := replay }

/-- The gang of the rows that pair with a stash (Table 8.2, lines 3 and 6). -/
def State.pairGang (s : State) (b : Bolt) (window : Nat) (d : Dir) (x : AdPart) (p : Nat) (back : Bool)
    (rows : List Row) : State × List Gang :=
  let r := s.pairRows b p (!back) rows
  let n := r.2.length
  let s := if back then r.1.bump ST_LEARN_EVENTS.UNPAIRED (rows.length - n) else r.1
  if n == 0 then (s, [])
  else
    let t := s.takeTerms (angleRev (dAngle b.desc)) x.adapter (angleLayer (dAngle b.desc)) p back n
    let g := gangBase b window d x p 0 (r.2.map (·.1))
    (t.1, [{ g with kind := .tRows, purposes := [if back then .dB else .dA], firstTerm := t.2, stash := r.2.map (·.2) }])

/-- R108, Table 8.2: the gangs of a part for one projection; `learns` where its rows contribute, `plain` where the picks of
lines 1 and 2, or 4 and 5, are formed. -/
def State.partGangs (s : State) (b : Bolt) (window : Nat) (d : Dir) (x : AdPart) (p replay : Nat) (learns plain : Bool) :
    State × List Gang :=
  let rows := (x.rows.filter (fun r => r.2.contains p)).map (·.1)
  if rows.isEmpty then (s, []) else
  let back := dBackward b.desc
  let g := gangBase b window d x p replay rows
  let tiles := ((s.peekRun x.adapter x.version g.layer).map (fun run => s.projTiles d run p)).getD []
  let kind := if back then PickKind.tStored
    else if rows.length ≤ s.get (ALLOC_CTRL.W_MAX_ROWS x.h) then .w else .r
  let main : Gang := { g with kind := kind, tiles := tiles, purposes := if back then [.dHidden, .dX] else [.hidden, .delta] }
  let r := if learns then s.pairGang b window d x p back rows else (s, [])
  (r.1, (if plain then [main] else []) ++ r.2)

/-- The gangs of a part, with what its rows need in its Harness. -/
def State.formPart (s : State) (b : Bolt) (window : Nat) (x : AdPart) (replay : Nat) (first plain : Bool) :
    State × List (Nat × Nat × List Gang) :=
  match s.dir? x.adapter with
  | none => (s, [])
  | some d =>
    let l := if first then s.learnPart b x d.tenant else (s, false)
    let rows := x.rows.map (·.1)
    let s := (l.1.askRows x.h b.id rows).askGradRows x.h b rows
    let s := if l.2 then s.modBolt b.id (fun y => { y with results := modWhere (fun r =>
        r.adapter == x.adapter && rows.any (fun q => q.index == r.row)) (fun r => { r with learn := true }) y.results })
      else s
    let r := (dProjs b.desc).foldl (fun (a : State × List Gang) p =>
      let g := a.1.partGangs b window d x p replay l.2 plain
      (g.1, a.2 ++ g.2)) (s, [])
    (r.1, if r.2.isEmpty then [] else [(x.h, d.tenant, r.2)])

/-- R307: the queues of a Harness: tenants ascending, adapters ascending. -/
def tenantQueues (gs : List (Nat × List Gang)) : List (Nat × List (List Gang)) :=
  (sortNub (gs.map (·.1))).map (fun k =>
    (k, sortBy (fun a b => decide (((a.head?.map (·.adapter)).getD 0) < ((b.head?.map (·.adapter)).getD 0)))
      ((gs.filter (·.1 == k)).map (·.2))))

/-- R125, R307: the parts of a window become gangs, and each Harness's gangs its turns. -/
def State.formParts (s : State) (b : Bolt) (window : Nat) (parts : List AdPart) (replay : Nat) (first plain : Bool) : State :=
  let r := parts.foldl (fun (a : State × List (Nat × Nat × List Gang)) x =>
    let g := a.1.formPart b window x replay first plain
    (g.1, a.2 ++ g.2)) (s, [])
  (List.range 8).foldl (fun s h =>
    let mine := (r.2.filter (·.1 == h)).map (fun g => (g.2.1, g.2.2))
    if mine.isEmpty then s else s.queueTurns h (s.newTurns b.id window (tenantQueues mine))) r.1

/-! ## Flying-shuttle mode (R310, R311) -/

/-- Usable cores, ascending: those of the allocator's map that take picks. -/
def State.usableCores (s : State) : List Nat :=
  s.servingHarnesses.flatMap (fun h => (s.freeSegs h).map (fun f => coreKey h f.1))

/-- R68: is a bolt eligible? -/
def Bolt.eligible (b : Bolt) : Bool := dSprintOk b.desc && b.rows.all (fun r => r.mask || r.sprint)

/-- R310: LS_SPRINT_ROWS.ROWS; values above 8 act as 8. -/
def State.sprintRows (s : State) : Nat := min 8 (s.get LS_SPRINT_ROWS.ROWS)

/-- R310, condition 8: the class map and slot 0 of every Harness are the factory's. -/
def State.hiddenIsFactory (s : State) : Bool :=
  (List.range 8).all (fun h => s.get (SV_MAP.SLOT h 0) == 0 &&
    (List.range 64).all (fun i => s.word (SV_PROG.WORD h 0 i).off == factoryWord 0 i))

/-- R310: conditions 2 to 8 for a bolt whose parts have arrived: `js` are the outcomes of its rows that are not EMBED, `bagged` counts
its APPLIED EMBED rows. A bolt with APPLIED rows in an earlier window stays out: those run in turns (log entry 126). -/
def State.sprintFits (s : State) (b : Bolt) (js : List Judged) (bagged : Nat) : Bool :=
  let ok := js.filter (fun j => j.status == 0)
  let n := (sortNub (ok.map (fun j => j.row.index))).length + bagged
  let ads := sortNub (ok.map (fun j => j.row.adapter))
  let ranks := (ads.map (fun a => ((s.dir? a).map Dir.rank).getD 0)).sum
  s.flag LS_SPRINT_ROWS.ENABLE && n != 0 && decide (n ≤ s.sprintRows) && (dProjs b.desc).length == 1 &&
    ok.all (fun j => j.owner == .here) && b.remote.isNone && decide (ranks ≤ 256) && s.heddle.sprint.isNone &&
    s.hiddenIsFactory && b.results.all (fun r => r.table || r.status != 0 && !r.fed || b.rows.any (fun x => x.index == r.row && x.spoiled)) && !s.usableCores.isEmpty

/-- R311: the segments of a core that are dealt one of `n` columns, of which `base` were dealt before. Each stands for itself. -/
def sprintSegs (base n : Nat) : List (Nat × Nat) :=
  ((List.range 32).filter (fun g => decide ((g + 32 - base % 32) % 32 < n))).map (fun g => (g, g))

/-- R311: the two picks of one adapter on core i of P. `base` counts the rank columns of the adapters before it. -/
def State.sprintPicks (s : State) (b : Bolt) (window base i P : Nat) (core : Nat) (x : AdList) (d : Dir) (p : Nat) : State :=
  let rows := x.rows.map (fun r => r.1.index)
  let D := dDin b.desc
  let N := dDout b.desc p
  let kLo := D * i / P
  let kHi := D * (i + 1) / P
  let cLo := N * i / P
  let cHi := N * (i + 1) / P
  let down : Pick :=
    { id := 0, bolt := b.id, kind := .w, statFmt := dFmt b.desc, streamFmt := d.fmt, proj := p,
      layer := angleLayer (dAngle b.desc), adapter := x.adapter, tenant := d.tenant, h := core / 66, c := core % 66,
      segs := sprintSegs base d.rank, gang := 32, rank := d.rank, rows := rows, kOff := kLo, kLen := kHi - kLo,
      kTiles := ceilDiv (kHi - kLo) (dFmt b.desc).perBank, colLo := base, n := d.rank, outTiles := 1,
      version := x.version, purpose := .sprintDown, window := window }
  let up : Pick := { down with
      segs := sprintSegs 0 (cHi - cLo), statFmt := .bf16, kOff := 0, kLen := d.rank, kTiles := 1, colLo := cLo, n := cHi - cLo,
      outTiles := ceilDiv (ceilDiv (cHi - cLo) 32) 64, purpose := .sprintUp }
  let s := if kLo == kHi then s else s.addPick down
  if cLo == cHi then s else s.addPick up

/-- R311: the picks of a flying-shuttle bolt on every usable core. -/
def State.enterSprint (s : State) (b : Bolt) (window : Nat) (ls : List AdList) : State :=
  let cores := s.usableCores
  let P := cores.length
  let p := (dProjs b.desc).headD 0
  let hs := sortNub (cores.map (· / 66))
  let s := hs.foldl (fun s h => s.askRows h b.id (ls.flatMap (fun x => x.rows.map (·.1)))) s
  let s := (ls.foldl (fun (a : State × Nat) x =>
    match a.1.dir? x.adapter with
    | none => a
    | some d =>
      let s := (cores.mapIdx (fun i c => (i, c))).foldl (fun s c => s.sprintPicks b window a.2 c.1 P c.2 x d p) a.1
      (s, a.2 + d.rank)) (s, 0)).1
  let f : Sprint := { bolt := b.id, cores := cores, formed := true, startAclk := b.lastBeat }
  { s with heddle := { s.heddle with sprint := some f } }

/-- R310: a bolt is found to run in flying-shuttle mode. Its picks are formed as its last window closes. -/
def State.claimSprint (s : State) (b : Bolt) : State :=
  let s := s.modBolt b.id (fun x => { x with sprint := true })
  let f : Sprint := { bolt := b.id, cores := [], startAclk := b.lastBeat }
  ({ s with heddle := { s.heddle with sprint := some f } }).bump LS_SPRINT_EVENTS.SPRINT_BOLTS

end Sys2Proof.Machine
end

