-- ==== Sys2Proof/Machine/Shuttle.lean ====
section
/-! DEFINITION. Grouping windows (R122): bags of EMBED rows and their outcomes (R231 to R236, Table 9.5), the outcomes
of the other rows, remote rows (R284), flying-shuttle entry (R310), gangs and turns. -/

namespace Sys2Proof.Machine

/-! ## Bags (R231, R232) -/

/-- R232: may two rows lie in one bag, the second right after the first? -/
def sameBag (a b : Row) : Bool :=
  b.index == a.index + 1 && a.link == b.link && a.request == b.request && a.adapter == b.adapter && a.tenant == b.tenant

/-- R232: the maximal runs of a list of EMBED rows in ascending index. -/
def bagRuns : List Row → List (List Row)
  | [] => []
  | r :: t =>
    match bagRuns t with
    | (q :: b) :: bs => if sameBag r q then (r :: q :: b) :: bs else [r] :: (q :: b) :: bs
    | bs => [r] :: bs

/-- R231: the index words of a row's payload that are not empty. -/
def indexWords (d : List W64) (r : Row) : List Nat :=
  ((groupsOf 8 (r.payload.take (payloadLen (dFmt d) (dDin d) / 8 * 8))).map leNat).filter (· != 2 ^ 64 - 1)

/-- R232: does a run that ends with row r go no further: the next row of its part begins another, or no more comes? -/
def Bolt.runEnds (b : Bolt) (r : Row) : Bool :=
  match b.row? (r.index + 1) with
  | some q => !(q.embed && !q.mask && sameBag r q)
  | none => b.stopped || b.remote.isSome || !b.parts.any (fun p => p.link == r.link && decide (p.first ≤ r.index) &&
      decide (r.index + 1 < p.first + p.count) && p.got + p.short != p.count)

/-- R232: the bags of a bolt that are to be formed: every row of them has been grouped, in one window or in several. A table
whose POOL is NONE makes every row its own. -/
def State.bagsDue (s : State) (b : Bolt) : List (List Row) :=
  let rows := sortBy (fun (x y : Row) => decide (x.index < y.index)) (b.rows.filter (fun r => r.grouped && !r.bagged))
  (bagRuns rows).flatMap (fun run =>
    if (s.table? (((run.head?).map Row.adapter).getD 64)).any (·.pool == 0) then run.map (fun r => [r])
    else if (run.getLast?).all b.runEnds then [run] else [])

/-- R231, R232: the indices of a bag. -/
def bagIndices (d : List W64) (t : Table) (rows : List Row) : List Nat :=
  if t.pool == 0 then (rows.flatMap (indexWords d)).take 1 else rows.flatMap (indexWords d)

/-! ## Resolving indices (R230, R236) -/

/-- What the bags of a window have resolved so far in one Harness, under their definitions: the distinct rows fetched. -/
structure Resolved where
  s : State
  defs : List Table
  seen : List Nat
  reads : List RowRead
  bag : List BagIndex
  owners : List FillOwner

/-- R236: a row that exists is read: fetched for the first time, read from the copy fetched, or fetched again beyond the 65,536
distinct rows of the window. -/
def Resolved.meet (x : Resolved) (key : Nat) : Resolved :=
  if x.seen.contains key then { x with s := x.s.bump ST_HOT_EVENTS.DEDUP_HITS }
  else if x.seen.length < 65536 then { x with seen := key :: x.seen }
  else { x with s := x.s.bump ST_HOT_EVENTS.DEDUP_FULL }

/-- R240: the sketch key of index i of table k. -/
def indexKey (k i : Nat) : Nat := 2 ^ 63 + k * 2 ^ 34 + i

/-- The default row of a table, as a read. -/
def Table.defaultRead (t : Table) : RowRead := { addr := t.deflt, len := t.slotBytes, table := t.k, slot := none }

/-- R230: index i of a DIRECT or HASHED table: the slot its pointer names. -/
def State.pointRow (s : State) (t : Table) (i : Nat) : State × Option RowRead :=
  if t.logical ≤ i then (s, none) else
  let v := s.loomHalf (t.pointerAddr (t.physRow i))
  if v.2 == absentSlot then (v.1, none)
  else (v.1, some { addr := t.slotAddr v.2, len := t.slotBytes, table := t.k, slot := some v.2 })

/-- An index whose rows are found joins the bag. -/
def Resolved.add (x : Resolved) (rs : List (RowRead × FillOwner)) (mul : Bool) : Resolved :=
  let n := x.reads.length
  { x with reads := x.reads ++ rs.map (·.1), owners := x.owners ++ rs.map (·.2),
           bag := x.bag ++ [⟨n, if rs.length == 2 then some (n + 1) else none, mul⟩] }

/-- R234: an index that resolves to DEFAULT takes the table's default row. -/
def Resolved.addDefault (x : Resolved) (t : Table) : Resolved :=
  { (x.add [(t.defaultRead, .none)] false) with s := x.s.bump ST_EMBED_EVENTS.DEFAULTED }

/-- The owner of the tiles of a row read, for its fill (R238, R253). -/
def RowRead.owner (r : RowRead) (i : Nat) : FillOwner := .row (indexKey r.table i) r.table (r.slot.getD 0)

/-- R230, R234, R240: one index of an APPLIED bag. -/
def Resolved.index (x : Resolved) (t : Table) (i : Nat) : Resolved :=
  let x := { x with s := (x.s.bump ST_EMBED_EVENTS.LOOKUPS).sketchCount (indexKey t.k i) }
  let comp := fun (k : Nat) => x.defs.tail.find? (·.k == k)
  if t.logical ≤ i then x.addDefault t
  else if t.kind == 2 then
    match comp t.compA, comp t.compB with
    | some a, some b =>
      let ra := x.s.pointRow a (i / max 1 t.m)
      let rb := ra.1.pointRow b (i % max 1 t.m)
      let x := { x with s := rb.1 }
      match ra.2, rb.2 with
      | some p, some q =>
        let key := 2 ^ 41 + t.k * 2 ^ 34 + i
        let again := x.seen.contains key
        let x := x.meet key
        let x := if again then x else
          (x.meet (a.k * 2 ^ 34 + a.physRow (i / max 1 t.m))).meet (b.k * 2 ^ 34 + b.physRow (i % max 1 t.m))
        x.add [(p, p.owner (i / max 1 t.m)), (q, q.owner (i % max 1 t.m))] t.mul
      | _, _ => x.addDefault t
    | _, _ => x.addDefault t
  else
    let r := x.s.pointRow t i
    let x := { x with s := r.1 }
    match r.2 with
    | some p => (x.meet (t.k * 2 ^ 34 + t.physRow i)).add [(p, p.owner i)] false
    | none => x.addDefault t

/-- Sectors of a tile that a read touches. -/
def RowRead.sectors (r : RowRead) (t : Nat) : List Nat :=
  let lo := max r.addr (t * tileBytes)
  sectorsOf (lo - t * tileBytes) (min (r.addr + r.len) ((t + 1) * tileBytes) - lo)

/-- R234, R251: the fills that a row read needs in slice h. -/
def State.askRead (s : State) (h : Nat) (r : RowRead) (o : FillOwner) : State :=
  (tilesOf r.addr r.len).foldl (fun s t =>
    if s.sliceReady h t (r.sectors t) then s
    else s.queueFill { tile := t, slice := some h, owner := o, sectors := r.sectors t }) s

/-- A row read whose bytes have reached its slice takes them; one on a tile that cannot be read has failed (R277). -/
def State.captureRead (s : State) (h : Nat) (r : RowRead) : RowRead :=
  if r.got.isSome || r.failed then r
  else if (tilesOf r.addr r.len).any s.tileError then { r with failed := true, gone := (tilesOf r.addr r.len).any s.tileGone }
  else if (tilesOf r.addr r.len).all (fun t => s.sliceReady h t (r.sectors t)) then
    { r with got := some (s.sliceBytes h r.addr r.len) }
  else r

/-- The pooling jobs of every Harness take the rows that have come. -/
def State.captureReads (s : State) : State :=
  { s with spindles := s.spindles.mapIdx (fun h v => { v with
      jobs := v.jobs.map (fun j => if j.reads.isEmpty then j else { j with reads := j.reads.map (s.captureRead h) }) }) }

/-! ## Rows of tables -/

/-- R229: element i of a stored row, in FP32 (R166). -/
def Table.rowF32 (t : Table) (bytes : List Byte) (i : Nat) : F32 :=
  let f := t.fmt
  toF32 (elemOf f (codeAt f bytes i) ((bytes.getD (t.width * f.bits / 8 + i / 32) 0).toNat)).v

/-- Values of a delta row in OUT_FMT (R152), and whether a NAN and a SAT event arose. -/
def outRow (outFmt : Nat) (vals : List F32) : List Byte × Bool × Bool :=
  let c := (convLanes (if outFmt == 1 then none else some .bf16) (vals.map (fun x => (x, true)))).1
  (c.flatMap (fun v => toLe (if outFmt == 1 then 4 else 2) v.bits), c.any (·.nan), c.any (·.sat))

/-! ## Outcomes of bags (R233, Table 9.5) -/

/-- R233: the line of Table 9.5 for a projection: its status, and whether the first row carries the default row. -/
def State.bagOutcome (s : State) (d : List W64) (rows : List Row) (p : Nat) : Nat × Bool :=
  match rows.head? with
  | none => (2, false)
  | some r =>
    match s.table? r.adapter with
    | none => (2, false)
    | some t =>
      let n := (bagIndices d t rows).length
      if !t.shared && r.tenant != t.tenant then (3, false)
      else if t.width != dDout d p then (2, false)
      else if 65535 < n || n == 0 then (2, true)
      else (0, false)

/-- The default row of table t as a record's data; none where it cannot be read (R277). -/
def State.defaultData (s : State) (t : Table) (outFmt : Nat) : State × Option (List Byte × Bool × Bool) :=
  let r := s.loomRead 8 t.deflt t.slotBytes
  (r.1, r.2.map (fun b => outRow outFmt ((List.range t.width).map (t.rowF32 b))))

/-- R233: the results of a bag for one projection whose status is not APPLIED. -/
def State.bagOut (s : State) (b : Bolt) (rows : List Row) (p st : Nat) (deflt : Bool) : State :=
  let t? := (rows.head?).bind (fun r => s.table? r.adapter)
  let owner := (t?.map (·.tenant)).getD 0
  let first := (rows.head?.map (·.index)).getD 0
  rows.foldl (fun s r =>
    match deflt && r.index == first, t? with
    | true, some t =>
      let v := s.defaultData t (dOutFmt b.desc)
      match v.2 with
      | none => v.1.answerOut b { row := r, proj := p, status := 4 } owner
      | some x =>
        let s := v.1.modBolt b.id (fun y => { y with
          results := y.results ++ [{ row := r.index, proj := p, status := st, adapter := r.adapter, harness := r.link, table := true }] })
        (s.bump (SD_ROW_EVENTS.ROWS_COMPACTED r.link)).answer r.link b.id r.index p x.1 x.2.1 x.2.2
    | _, _ => s.answerOut b { row := r, proj := p, status := st } owner) s

/-- Table 9.5: the counts of a bag. -/
def State.countBag (s : State) (b : Bolt) (t : Table) (n : Nat) (ps : List Nat) : State :=
  let s := s.bump ST_EMBED_EVENTS.WIDTH_MISMATCH (if ps.any (fun p => t.width != dDout b.desc p) then 1 else 0)
  if ps.all (fun p => t.width != dDout b.desc p) then s
  else if 65535 < n then s.bump ST_EMBED_EVENTS.OVERLONG
  else if n == 0 then (s.bump ST_EMBED_EVENTS.EMPTY_BAGS).modBolt b.id (fun y => { y with emptySeen := true })
  else s

/-- R233, R234: one bag: its results, and its pooling job, whose indices are to be resolved. -/
def State.groupBag (s : State) (b : Bolt) (window : Nat) (rows : List Row) : State :=
  let ps := dProjs b.desc
  let outs := ps.map (fun p => (p, s.bagOutcome b.desc rows p))
  let s := match rows.head? with
    | none => s
    | some r => match s.table? r.adapter with
      | none => s
      | some t => if !t.shared && r.tenant != t.tenant then s
        else s.countBag b t (bagIndices b.desc t rows).length ps
  let s := outs.foldl (fun s o => if o.2.1 == 0 then s else s.bagOut b rows o.1 o.2.1 o.2.2) s
  let on := outs.filter (fun o => o.2.1 == 0)
  match rows.head?, on with
  | some r, _ :: _ =>
    match s.table? r.adapter with
    | none => s
    | some t =>
      let h := s.standIn r.link
      let s := s.modBolt b.id (fun y => { y with results := y.results ++ on.flatMap (fun o => rows.map (fun q =>
        ({ row := q.index, proj := o.1, status := 0, adapter := r.adapter, harness := h, table := true } : Result))) })
      s.addJob h { key := { cls := if t.pool == 2 then 7 else 6, bolt := b.id, adapter := t.k, row := r.index },
                   indices := bagIndices b.desc t rows, total := t.width, rows := rows.map (·.index), window := window,
                   defs := t :: (if t.kind == 2 then [t.compA, t.compB].filterMap s.table? else []) }
  | _, _ => s

/-- R230, R235, R236: the indices of one bag are resolved, and its results take the table's REVISION; `seen`: what its Harness
has fetched for the window. -/
def State.lookupBag (a : State × List Nat) (h : Nat) (j : Job) : State × List Nat :=
  match j.defs with
  | [] => a
  | t :: _ =>
    let x0 : Resolved := { s := a.1, defs := j.defs, seen := a.2, reads := [], bag := [], owners := [] }
    let x := j.indices.foldl (fun (x : Resolved) i => x.index t i) x0
    let rev := x.s.get (ST_TABLE.REVISION t.k)
    let mine := fun (r : Result) => r.table && r.status == 0 && j.rows.contains r.row
    let s := x.s.modBolt j.key.bolt (fun y => { y with results := modWhere mine (fun r => { r with version := rev }) y.results })
    let s := s.modJob h j.key (fun y => { y with indices := [], reads := x.reads, bag := x.bag })
    ((x.reads.zip x.owners).foldl (fun s q => s.askRead h q.1 q.2) s, x.seen)

/-- R236: a Harness takes the pointers of the bags that a window of a bolt formed there. -/
def State.lookupBags (s : State) (h bolt window : Nat) : State :=
  let js := (s.spindle h).jobs.filter (fun j => j.key.bolt == bolt && j.window == window && !j.indices.isEmpty)
  (js.foldl (fun a j => State.lookupBag a h j) (s, [])).1.captureReads

/-! ## The window (R122) -/

/-- R284: a result of a remote row: it joins the round of its owner, or fails where its owner cannot be reached (R283). -/
def State.groupRemote (s : State) (b : Bolt) (j : Judged) : State :=
  let s := s.modBolt b.id (fun y => { y with results := y.results ++
    [{ row := j.row.index, proj := j.proj, status := 0, adapter := j.row.adapter, harness := j.row.link }] })
  let x : RemoteRow := { bolt := b.id, row := j.row.index, proj := j.proj, adapter := j.row.adapter, owner := 0 }
  match j.owner with
  | .at host => s.joinRound { x with owner := host } (dAngle b.desc)
  | _ => s.failRemoteRow x false

/-- R219, R240: a result that is APPLIED here: it latches its version and is counted. -/
def State.groupLocal (s : State) (b : Bolt) (j : Judged) : State :=
  let s := s.modBolt b.id (fun y => { y with results := y.results ++
    [{ row := j.row.index, proj := j.proj, status := 0, version := j.version, adapter := j.row.adapter,
       harness := j.row.link, fed := true }] })
  let s := match s.dir? j.row.adapter with
    | some d => (s.latch j.row.adapter d).1
    | none => s
  let s := s.sketchCount j.row.adapter
  { s with skein := { s.skein with referenced := insertSorted j.row.adapter s.skein.referenced } }

/-- R434: a result that needs the payload of a row whose replay-buffer copy is unusable is lost. -/
def State.groupSpoiled (s : State) (b : Bolt) (r : Row) (proj : Nat) : State :=
  let s := s.modBolt b.id (fun y => { y with partialLoss := true, results := y.results ++
    [{ row := r.index, proj := proj, status := 0, adapter := r.adapter, harness := r.link }] })
  s.loseResult b.id r.index proj

/-- The Harness of each result of a part. -/
def State.markParts (s : State) (b : Bolt) (parts : List AdPart) : State :=
  parts.foldl (fun s x => s.modBolt b.id (fun y => { y with
    results := modWhere (fun r => r.adapter == x.adapter && r.status == 0 && x.rows.any (fun q => q.1.index == r.row))
      (fun r => { r with harness := x.h }) y.results })) s

/-- R122: rows that the next window of a bolt takes, in ascending index. -/
def State.windowRows (s : State) (b : Bolt) : List Row :=
  sortBy (fun x y => decide (x.index < y.index))
    ((b.rows.filter (fun r => !r.grouped)).take (1024 * max 1 (s.get SD_CTRL.WINDOW_ROWS)))

/-- R198: must the window of a bolt wait, in a LEARN revolution, for a bolt accepted before it that may add terms to the same
long sums: one of the same layer and pass, with a projection in common, whose rows are not all grouped? DEDUCED: the terms
of a pick are numbered as it is formed, and in the order of acceptance of their bolts (log entry 119). -/
def State.termsWait (s : State) (b : Bolt) : Bool :=
  let learns := fun (x : Bolt) => s.phase == 2 && angleRev (dAngle x.desc) == s.revolution
  let same := fun (x : Bolt) => angleLayer (dAngle x.desc) == angleLayer (dAngle b.desc) &&
    anglePass (dAngle x.desc) == anglePass (dAngle b.desc) && (dProjs x.desc).any (fun p => (dProjs b.desc).contains p)
  learns b && !s.layerClosed (angleLayer (dAngle b.desc)) &&
    s.weft.bolts.any (fun x => x.id != b.id && (x.begun || x.remote.isSome) && decide (x.order < b.order) && learns x && same x &&
      x.refused.isNone && !x.stopped && !x.internal && x.st == .running && !(x.arrived && x.rows.all (·.grouped)))

/-- The rows of a bolt that wait for a window. -/
def Bolt.waiting (b : Bolt) : List Row := b.rows.filter (fun r => !r.grouped)

/-- R66, R122: does the window of a bolt close now: its order has been dispatched, and the rows that wait fill a window? A bag
that only the end of its part shows to be whole is formed then (R232). -/
def State.windowCloses (s : State) (b : Bolt) : Bool :=
  !s.termsWait b && b.refused.isNone && !b.internal && b.st == .running && b.opened && (b.orderDone || b.remote.isSome) &&
    if b.waiting.isEmpty then !(s.bagsDue b).isEmpty
    else !b.stopped && (b.arrived || decide (1024 * max 1 (s.get SD_CTRL.WINDOW_ROWS) ≤ b.waiting.length) ||
      b.rows.any (fun r => r.held && b.remote.isNone && s.aboveHighWater r.link))

/-- R310: is it found out in this window whether a bolt that is eligible runs in flying-shuttle mode? DEDUCED: as soon as all of its
rows are known (log entry 126). -/
def Bolt.findsMode (b : Bolt) : Bool := b.arrived && !b.modeKnown && b.eligible && !dBackward b.desc

/-- The outcomes of rows of a bolt that are not EMBED, for each projection. -/
def State.judgeRows (s : State) (b : Bolt) (rows : List Row) : List Judged :=
  (rows.filter (fun r => !(r.embed && !r.mask))).flatMap (fun r => (dProjs b.desc).map (s.judge b r))

/-- R310: the APPLIED EMBED rows of a bolt: those in bags, and those of `later` windows. -/
def State.appliedBags (s : State) (b : Bolt) (later : List Row) : Nat :=
  let p := (dProjs b.desc).headD 0
  let now := ((s.bolt? b.id).map (·.results)).getD []
  (sortNub ((now.filter (fun r => r.table && r.status == 0)).map (·.row))).length +
    later.countP (fun r => r.embed && !r.mask && (s.bagOutcome b.desc [r] p).1 == 0)

/-- R310: the mode of an eligible bolt is found out. -/
def State.findMode (s : State) (b : Bolt) (js : List Judged) (later : List Row) : State :=
  let fits := s.sprintFits b (js ++ s.judgeRows b later) (s.appliedBags b later)
  let s := s.modBolt b.id (fun y => { y with modeKnown := true })
  if fits then s.claimSprint b else s.bump LS_SPRINT_EVENTS.INELIGIBLE

/-- The APPLIED outcomes of a bolt in flying-shuttle mode, of every window. -/
def Bolt.appliedHere (b : Bolt) : List Judged :=
  (b.results.filter (fun r => r.status == 0 && r.fed && !r.table && !r.ended)).filterMap (fun r =>
    (b.rows.find? (fun x => x.index == r.row)).map (fun x => { row := x, proj := r.proj, status := 0, version := r.version }))

/-- R310, R311: the picks of a flying-shuttle bolt are formed once its last window has closed. -/
def State.runSprint (s : State) (b : Bolt) (window : Nat) : State :=
  if !b.rows.all (·.grouped) then s else
  let ls := adapterLists b.appliedHere
  let r := s.placeLists b ls
  (s.enterSprint b window ls).formParts b window r.2 0 true false

/-- R310: the APPLIED rows of a window run in flying-shuttle mode, or in turns. -/
def State.runWindow (s : State) (b : Bolt) (window : Nat) (js : List Judged) : State :=
  match s.bolt? b.id with
  | none => s
  | some now =>
    if now.sprint then s.runSprint now window
    else
      let r := s.placeLists b (adapterLists (js.filter (fun j => j.status == 0 && j.owner == .here)))
      (r.1.markParts b r.2).formParts b window r.2 0 true true

/-- R232 to R236: the bags of a bolt that are whole are formed, and each Harness is to take their pointers. -/
def State.formBags (s : State) (id window : Nat) : State :=
  match s.bolt? id with
  | none => s
  | some b =>
    let bags := s.bagsDue b
    let done := fun (r : Row) => bags.any (fun g => g.any (fun q => q.index == r.index))
    let s := s.modBolt id (fun y => { y with rows := modWhere done (fun r => { r with pooled := true }) y.rows })
    let s := bags.foldl (fun s rs =>
      if rs.any (·.spoiled) then
        rs.foldl (fun s r => (dProjs b.desc).foldl (fun s p => s.groupSpoiled b r p) s) s
      else s.groupBag b window rs) s
    (List.range 8).foldl (fun s h =>
      if (s.spindle h).jobs.any (fun j => j.key.bolt == id && j.window == window && !j.indices.isEmpty) then
        s.addWork (.lookup h id window)
      else s) s

/-- R122 to R126: a grouping window of a bolt closes. -/
def State.groupWindow (s : State) (b : Bolt) : State :=
  let rows := s.windowRows b
  let window := b.windows + 1
  let layer := angleLayer (dAngle b.desc)
  let hit := fun (r : Row) => rows.any (fun q => q.index == r.index)
  let s := s.modBolt b.id (fun y =>
    { y with windows := if rows.isEmpty then y.windows else window, checking := false,
             rows := modWhere hit (fun r => { r with grouped := true }) y.rows })
  let later := if b.findsMode then b.waiting.filter (fun r => !hit r) else []
  let asks := (rows ++ later).filter (fun r => !r.embed && !r.mask)
  let s := (sortNub (asks.map Row.adapter)).foldl (fun s a => s.reachRow layer a) s
  let js := s.judgeRows b rows
  let s := js.foldl (fun s j =>
    if j.status != 0 then s.answerOut b j (((s.dir? j.row.adapter).map Dir.tenant).getD 0)
    else if j.row.spoiled then s.groupSpoiled b j.row j.proj
    else match j.owner with
      | .here => s.groupLocal b j
      | _ => s.groupRemote b j) s
  let s := s.formBags b.id window
  let s := if b.findsMode && !rows.isEmpty then s.findMode b js later else s
  let s := if rows.isEmpty then s else s.runWindow b window (js.filter (fun j => !j.row.spoiled))
  s.releaseRows b.id

/-- R122, R225: a grouping window closes once the entries that the tenant check of its rows reads are there; until then its bolt
waits for the check. -/
def State.closeWindow (s : State) (b : Bolt) : State :=
  let r := s.attempt (fun s => s.groupWindow b)
  if r.2 then r.1 else r.1.modBolt b.id (fun y => { y with checking := true })

/-- The bolt that a command names by its 32-bit ID: the local one where it qualifies, else the oldest remote bolt of that
ID that does (R287). -/
def State.named (s : State) (id : Nat) (ok : Bolt → Bool) : Option Bolt :=
  (s.weft.bolts.find? (fun b => b.id == id && ok b)).or
    (s.weft.bolts.find? (fun b => b.remote.isSome && b.id % 2 ^ 32 == id && ok b))

end Sys2Proof.Machine
end

