-- ==== Sys2Proof/Machine/Repair.lean ====
section
/-! DEFINITION. What faults do to the engine's work (chapter 14): ending picks (R344), replay (R345 to R347), lost results
(R348), long sums (R349), flying-shuttle bolts (R350), retirement of cores, Harnesses and links (R352 to R355), failure
of the engine (R356). -/

namespace Sys2Proof.Machine

/-! ## Rows and picks that a fault touches -/

/-- R345: is a row still in a replay buffer, its copy sound? An owner keeps every remote row. -/
def State.rowHeld (s : State) (bolt row : Nat) : Bool :=
  match s.bolt? bolt with
  | none => false
  | some b => (b.row? row).any (fun r => !r.spoiled && (b.remote.isSome || r.held))

/-- Rows that a pick has not committed. -/
def Pick.left (p : Pick) : List Nat := p.rows.filter (fun r => !p.committed.contains r)

/-- R345: are the rows of an ended pick replayed? -/
def State.mayReplay (s : State) (p : Pick) (rows : List Nat) : Bool :=
  !s.cust.engineFailed && decide (p.replay < s.get CU_CTRL.REPLAY_LIMIT) && rows.all (s.rowHeld p.bolt)

/-- R346: drained tiles that a replacement does not repeat. Row blocks that have committed are no part of it. -/
def Pick.carriedOn (p : Pick) : Nat :=
  match p.kind with
  | .r | .tStored => p.drained - ceilDiv p.committed.length 64 * p.outTiles * p.segs.length
  | _ => p.drained

/-- The purpose whose picks form what a purpose reads from the row stage. -/
def Purpose.producer : Purpose → Option Purpose
  | .delta => some .hidden
  | .dX => some .dHidden
  | _ => none

/-- Are two picks parts of one gang's work for one window? -/
def Pick.sameWork (p q : Pick) : Bool :=
  p.bolt == q.bolt && p.window == q.window && p.adapter == q.adapter && p.proj == q.proj && p.kind == q.kind

/-- R226: what a Harness carries of a bolt's window. -/
def State.windowLoad (s : State) (h bolt window : Nat) : Nat :=
  ((s.heddle.picks.filter (fun p => p.h == h && p.bolt == bolt && p.window == window)).map
    (fun p => p.segs.length * ceilDiv p.rows.length 8)).sum

/-- Harnesses in service that have a usable core. -/
def State.openHarnesses (s : State) : List Nat := s.servingHarnesses.filter (fun h => !(s.freeSegs h).isEmpty)

/-- R346: the Harness with the least load. -/
def State.lightest (s : State) (bolt window : Nat) : Option Nat :=
  s.openHarnesses.foldl (fun b h => match b with
    | none => some h
    | some x => if s.windowLoad h bolt window < s.windowLoad x bolt window then some h else b) none

/-- R346: the Harness of a replacement. -/
def State.replayHarness (s : State) (p : Pick) : Option Nat :=
  if s.openHarnesses.contains p.h then some p.h else s.lightest p.bolt p.window

/-- R346: a place for a replacement of `n` segments in Harness h: among the segments that this fault's replacements have
left, else anywhere. -/
def takeCells (maps : List FreeSegs) (all : FreeSegs) (h n : Nat) : Option (List FreeSegs × List (Nat × Nat)) :=
  match placeCopy (maps.getD h []) n false none with
  | some r => some (setAt maps h r.1, r.2)
  | none => (placeCopy all n false none).map (fun r => (setAt maps h r.1, r.2))

/-- R346: the replacement of an ended pick. -/
def Pick.replacement (p : Pick) (rows : List Nat) (carried h : Nat) (cells : List (Nat × Nat)) : Pick :=
  { p with h := h, c := (cells.headD (0, 0)).1, segs := (cells.zip p.segs).map (fun x => (x.1.2, x.2.2)), rows := rows,
           committed := [], issued := carried / max 1 p.segs.length, drained := carried, carried := carried,
           queued := false, replay := p.replay + 1 }

/-! ## Lost results (R348, R349) -/

/-- The completion of a bolt that lost results says which kind of fault lost them. -/
def State.markLoss (s : State) (bolt : Nat) (retire : Bool) : State :=
  s.modBolt bolt (fun b => { b with coreRetired := b.coreRetired || retire, partialLoss := b.partialLoss || !retire })

/-- R348: results are lost, where they have neither ended nor committed. -/
def State.loseResults (s : State) (bolt proj : Nat) (rows : List Nat) (retire : Bool) : State :=
  let hit := rows.filter (fun r => ((s.bolt? bolt).bind (·.result? r proj)).any (fun x => !x.ended && !x.committed))
  if hit.isEmpty then s else
  (hit.foldl (fun s r => s.loseResult bolt r proj) s).markLoss bolt retire

/-- The values of lost rows leave the combine store where their whole group is lost. -/
def State.cutCombines (s : State) (p : Pick) : State :=
  if !p.combines then s else
  s.modSpindle p.h (fun v => { v with combines := v.combines.filter (fun c =>
    !(c.bolt == p.bolt && c.adapter == p.adapter && c.proj == p.proj && c.purpose == p.purpose && c.window == p.window &&
      c.group == p.group)) })

/-- R348, R349: the rows of an ended pick that are not replayed. -/
def State.loseRows (s : State) (p : Pick) (rows : List Nat) (retire : Bool) : State :=
  if p.kind == .tRows then s.sumLost (s.pickRev p) p.adapter p.layer p.proj (p.purpose == .dB)
  else
    let s := s.loseResults p.bolt p.proj rows retire
    (s.cutRows (fun q => q.sameWork p) rows).cutCombines p

/-! ## Replacement picks (R346) -/

/-- What the rows of a pick need in a Harness: their copies, and for a backward bolt their GRAD_ROW jobs. -/
def State.needRows (s : State) (h bolt : Nat) (rows : List Nat) : State :=
  match s.bolt? bolt with
  | none => s
  | some b =>
    let rs := rows.filterMap b.row?
    (s.askRows h bolt rs).askGradRows h b rs

/-- A gang that forms one purpose again for rows of a pick. -/
def Pick.asGang (p : Pick) (fmt : EFmt) (din dout : Nat) (rowFmt : EFmt) (pu : Purpose) (rows : List Nat) : Gang :=
  { bolt := p.bolt, window := p.window, proj := p.proj, adapter := p.adapter, tenant := p.tenant, layer := p.layer,
    rank := p.rank, version := p.version, fmt := fmt, rows := rows, kind := p.kind, purposes := [pu], din := din,
    dout := dout, rowFmt := rowFmt, tiles := [], replay := p.replay }

/-- Is an intermediate of a row there, or on its way, in Harness h? `parts` asks for every copy of a PICK_W row group. -/
def State.produced (s : State) (p : Pick) (pu : Purpose) (copy : Option Nat) (row : Nat) : Bool :=
  (p.purpose.stageKind.any (fun k => (s.stageFind p.h p.bolt row k (stageProj k p.proj)).isSome)) ||
    s.heddle.picks.any (fun q => q.sameWork p && q.h == p.h && q.purpose == pu && q.group == p.group &&
      q.rows.contains row && (copy.all (fun c => q.copy == c))) ||
    (s.spindle p.h).jobs.any (fun j => j.key == { (p.jobKey 0) with cls := 0 } && j.rows.contains row)

/-- R346: the intermediates of a replacement that the fault destroyed are formed again, by picks of the gang that produced
them. `void`: what other copies had brought has gone with its Harness. -/
def State.reform (s : State) (maps : List FreeSegs) (p : Pick) (void : Bool) : State × List FreeSegs :=
  match p.purpose.producer, s.rawDir p.adapter, s.bolt? p.bolt with
  | some pu, some d, some b =>
    let S := if p.kind == .w then p.split else 1
    let copies := if void && p.kind == .w then (List.range S).map some else [none]
    let missing := fun (s : State) c => p.rows.filter (fun r => !s.produced p pu c r)
    let any := missing s none
    let g := fun (rows : List Nat) => p.asGang d.fmt (dDin b.desc) (dDout b.desc p.proj) (dFmt b.desc) pu rows
    let add := fun (a : State × List FreeSegs) (rows : List Nat) (q : Nat) =>
      if rows.isEmpty then a else
      match takeCells a.2 (a.1.freeSegs p.h) p.h p.gang with
      | none => a
      | some (maps, cells) =>
        let K := (g rows).kTiles pu
        let copy := if p.kind == .w then q else p.copy
        let last := if p.kind == .w then S - 1 else p.lastCopy
        let lo := if p.kind == .w then K * q / S else 0
        let hi := if p.kind == .w then K * (q + 1) / S else K
        (((a.1.addCopy p.h (g rows) cells pu rows [] lo hi copy last p.group 0 p.split).needRows p.h p.bolt rows), maps)
    if copies.length == 1 && p.kind == .w then
      -- every copy of the group, where nothing of it is left
      (List.range S).foldl (fun a q => add a any q) (s, maps)
    else
      (copies.mapIdx (fun i c => (i, c))).foldl (fun a x => add a (missing a.1 x.2) x.1) (s, maps)
  | _, _, _ => (s, maps)

/-- A pick that a fault ends; `redo`: what it had formed has gone too (R187). -/
structure Ended where
  pick : Pick
  redo : Bool := false
  deriving DecidableEq, Repr

/-- The rows of an ended pick that are to be formed again: those not committed, those whose values went with a Spindle
instance, and, in a Harness that is void, those whose intermediates other ended picks still need. -/
def endedRows (all : List Ended) (e : Ended) (void : Bool) : List Nat :=
  let p := e.pick
  if e.redo then p.rows
  else p.rows.filter (fun r => p.left.contains r || (void && all.any (fun x =>
    x.pick.sameWork p && x.pick.purpose.producer == some p.purpose && x.pick.group == p.group &&
      (if x.redo then x.pick.rows else x.pick.left).contains r)))

/-- The results of a bolt that meet a test change. -/
def State.modResults (s : State) (bolt : Nat) (hit : Result → Bool) (f : Result → Result) : State :=
  s.modBolt bolt (fun b => { b with results := modWhere hit f b.results })

/-- One ended pick: replayed, with its replacement's PICK_ID, or lost. -/
def State.endPick (a : State × List FreeSegs) (all : List Ended) (e : Ended) (target : Option Nat)
    (retire void : Bool) : (State × List FreeSegs) × Option Nat :=
  let s := a.1
  let p := e.pick
  let alive := fun r => p.kind == .tRows || ((s.bolt? p.bolt).bind (·.result? r p.proj)).any (fun x => !x.ended)
  let rows := if p.kind == .tRows then p.rows else (endedRows all e void).filter alive
  let carried := if e.redo || (void && p.purpose.producer.isNone && p.kind != .tRows) then 0 else p.carriedOn
  let place := if rows.isEmpty || !s.mayReplay p rows then none
    else target.bind (fun h => (takeCells a.2 (s.freeSegs h) h p.segs.length).map (fun r => (h, r)))
  match place with
  | some (h, maps, cells) =>
    let id := s.heddle.nextPick
    let q := p.replacement rows carried h cells
    let s := (s.addPick q).bump CU_FAULT_EVENTS.REPLAYS
    let s := if p.kind == .tRows then s else
      s.modResults p.bolt (fun r => r.proj == p.proj && rows.contains r.row && !r.ended)
        (fun r => { r with replayed := true, committed := r.committed && !e.redo, harness := h })
    ((s.needRows h p.bolt rows).reform maps { q with id := id } void, some id)
  | none => ((s.loseRows p rows retire, a.2), none)

/-! ## Flying-shuttle bolts (R350) -/

/-- Values of rows leave the jobs of a class of a bolt. -/
def Job.dropRows (j : Job) (rows : List Nat) : Job :=
  let keep := fun (l : List Lane) => l.filter (fun x => !rows.contains x.row)
  { j with vecs := (j.vecs.map (fun v => { v with v0 := keep v.v0 })).filter (fun v => !v.v0.isEmpty),
           open_ := keep j.open_, outs := j.outs.filter (fun o => !rows.contains o.row),
           rows := j.rows.filter (fun r => !rows.contains r) }

/-- R350: a flying-shuttle bolt that a fault touched: its picks end on every core, and its rows run again in normal mode. -/
def State.abortSprint (s : State) (f : Sprint) (seq : Nat) (retire : Bool) : State :=
  let ps := s.heddle.picks.filter (fun p => p.bolt == f.bolt && p.sprint)
  let s := (ps.foldl (fun s p => s.removePick p) s).bump CU_LOSS_EVENTS.ENDED_PICKS ps.length
  let s := { s with heddle := { s.heddle with sprint := none } }
  match s.bolt? f.bolt with
  | none => s
  | some b =>
    let open' := b.results.filter (fun r => r.status == 0 && !r.committed && !r.ended)
    let rows := sortNub (open'.map (·.row))
    let limit := !s.cust.engineFailed && s.get CU_CTRL.REPLAY_LIMIT != 0
    let good := open'.filter (fun r => limit && s.rowHeld b.id r.row)
    let bad := open'.filter (fun r => !(limit && s.rowHeld b.id r.row))
    let sv := s.spindles.map (fun v => { v with
      jobs := v.jobs.map (fun j => if j.key.bolt == b.id && j.key.cls < 2 then j.dropRows rows else j) })
    let hs := s.heddle.harnesses.map (fun h => { h with
      stage := h.stage.filter (fun e => !(e.bolt == b.id && e.kind == .hid && rows.contains e.row)) })
    let s := { s with spindles := sv, heddle := { s.heddle with harnesses := hs } }
    let s := s.modResults b.id (fun r => good.any (fun g => g.row == r.row && g.proj == r.proj))
      (fun r => { r with replayed := true })
    let s := s.modBolt b.id (fun y => { y with sprint := false, outs := y.outs.filter (fun o => !rows.contains o.2.row) })
    let s := bad.foldl (fun s r => s.loseResults b.id r.proj [r.row] retire) s
    let js := good.filterMap (fun r => (b.row? r.row).map (fun w =>
      ({ row := w, proj := r.proj, status := 0, version := r.version } : Judged)))
    let pl := s.placeLists b (adapterLists js)
    let s := (pl.1.markParts b pl.2).formParts b b.windows pl.2 1 false true
    let s := s.bump CU_FAULT_EVENTS.REPLAYS (s.heddle.picks.countP (fun p => p.bolt == b.id && p.replay == 1))
    let s := ps.foldl (fun s p =>
      let lost := p.rows.any (fun r => bad.any (fun x => x.row == r && x.proj == p.proj))
      let id := ((s.heddle.picks.find? (fun q => q.bolt == p.bolt && q.adapter == p.adapter && q.proj == p.proj &&
        q.replay == 1)).map (·.id)).getD 0
      if lost then s.tallyAdd p .lost seq 0 else s.tallyAdd p .replayed seq id) s
    let s := ps.foldl (fun s p => s.afterPick p) s
    (List.range 8).foldl (fun s h => s.closeVectors h) s

/-! ## Ending picks (R344) -/

/-- R344, R347: the Tally entry of an ended pick: of its replacement, where it has one. -/
def State.tallyEnded (s : State) (p : Pick) (seq : Nat) (replay : Option Nat) : State :=
  match replay with
  | some id => s.tallyAdd p .replayed seq id
  | none => s.tallyAdd p .lost seq 0

/-- R344 to R350: picks end by a fault: in the order of their IDs they are replayed or lost, and then each has its Tally entry, so
that the fault records of one cycle stand in ascending code (R339). -/
def State.endPicks (s : State) (es : List Ended) (seq : Nat) (retire void : Bool) : State :=
  let sprint := s.heddle.sprint.filter (fun f => es.any (fun e => e.pick.bolt == f.bolt && e.pick.sprint))
  let es := sortBy (fun a b => decide (a.pick.id < b.pick.id)) (es.filter (fun e => !e.pick.sprint))
  let s := (es.foldl (fun s e => s.removePick e.pick) s).bump CU_LOSS_EVENTS.ENDED_PICKS es.length
  let s0 := s
  let maps := (List.range 8).map s.freeSegs
  let r := es.foldl (fun (a : (State × List FreeSegs) × List (Pick × Option Nat)) e =>
    let x := State.endPick a.1 es e (s0.replayHarness e.pick) retire void
    (x.1, a.2 ++ [(e.pick, x.2)])) ((s, maps), [])
  let s := r.2.foldl (fun s x => s.tallyEnded x.1 seq x.2) r.1.1
  let s := es.foldl (fun s e => s.afterPick e.pick) s
  match sprint with
  | some f => s.abortSprint f seq retire
  | none => s

/-! ## Spindle instances that end early (R160, R187, R354) -/

/-- A job goes back to its start. -/
def Job.again (j : Job) : Job :=
  { j with started := false, regs := {}, vecs := [], open_ := [], outs := [], largest := 0,
           pos := if j.key.cls == 5 then 2048 * j.key.chunk else 0 }

/-- R354: a bag whose instance ended early: its rows run again where they are still held, else they are lost. -/
def State.bagLost (s : State) (j : Job) (retire : Bool) : State :=
  (((s.bolt? j.key.bolt).map (fun b => dProjs b.desc)).getD []).foldl (fun s p => s.loseResults j.key.bolt p j.rows retire) s

/-- An instance is aborted; answers the picks whose drains fed it. -/
def State.abortJob (s : State) (h : Nat) (j : Job) (retire : Bool) : State × List Ended :=
  if j.key.cls == 4 then
    ((s.dropJob h j.key).sumLost j.key.bolt j.key.adapter j.key.layer j.key.proj j.key.isB, [])
  else if streamClass j.key.cls then (s.dropJob h j.key, j.fed.map (fun p => ⟨p, true⟩))
  else if 6 ≤ j.key.cls && !j.rows.all (s.rowHeld j.key.bolt) then ((s.dropJob h j.key).bagLost j retire, [])
  else ((s.modJob h j.key Job.again).modSpindle h (fun v => v.stopRun j.key), [])

/-! ## Retirement of a Harness (R353, R354) -/

/-- R356: the engine fails. -/
def State.failEngine (s : State) : State :=
  let s := { s with cust := { s.cust with engineFailed := true } }
  let bs := s.weft.bolts.map (fun b => { b with internal := true })
  ({ s with weft := { s.weft with bolts := bs } }).closeExchange

/-- R358: a core is to be retired at step 1 of a boundary; an order leaves its segments to place() until then (R21). -/
def State.retirePending (s : State) (h c : Nat) : State :=
  s.modCore h c (fun k => if k.service == .active then { k with service := .retirePending, returns := k.returns + 1 } else k)

/-- R352: a core that a fault retires, or that a retiring Harness takes along, has no further pick. -/
def State.withdraw (s : State) (h c : Nat) : State :=
  (s.retirePending h c).modCore h c (fun k => if k.service == .retirePending then { k with withdrawn := true } else k)

/-- R353: the strand store of Harness h is void: the long sums whose strands or open cells it held lose terms. -/
def State.voidStrands (s : State) (h : Nat) : State :=
  let hit := fun (x : LongSum) => x.strands.any (·.harness == h) || x.cells.any (fun c => c.harness == h && c.frame.isNone)
  (s.heddle.sums.filter hit).foldl (fun s x =>
    let sums := modWhere (fun y => y.is x.rev x.adapter x.layer x.proj x.isB) (fun y => { y with
      strands := y.strands.filter (·.harness != h), cells := y.cells.filter (fun c => c.frame.isSome || c.harness != h) }) s.heddle.sums
    ({ s with heddle := { s.heddle with sums := sums } }).sumLost x.rev x.adapter x.layer x.proj x.isB) s

/-- R353, R354: fills into the slice of Harness h are abandoned, and its slice is void. -/
def State.voidSlice (s : State) (h : Nat) : State :=
  let mine := s.tiers.fills.filter (fun f => f.slice == some h)
  let s := mine.foldl (fun s f => if f.issued then s.endFill f else s.dropFill f) s
  let sets := s.tiers.sets.map (fun p => (p.1, { p.2 with tiles := p.2.tiles.filter (fun t => t.2 != h) }))
  let s := s.modSlice h (fun _ => [])
  { s with tiers := { s.tiers with sets := sets } }

/-- R354: a job of Harness h moves to the Harness that does its work now. -/
def State.moveJob (s : State) (j : Job) : State :=
  if j.key.cls == 5 then s.addJob (s.standIn ((j.key.adapter + j.key.chunk) % 8)) j.again
  else if !j.rows.all (s.rowHeld j.key.bolt) then s.bagLost j true
  else
    let link := ((s.row? j.key.bolt j.key.row).map (·.link)).getD 0
    let h := s.standIn link
    let reads := j.reads.map (fun r => { r with got := none, failed := false })
    let s := s.addJob h { j.again with reads := reads }
    let s := if j.indices.isEmpty then s else s.addWork (.lookup h j.key.bolt j.window)
    reads.foldl (fun s r => s.askRead h r .none) s

/-- R353, R354: the jobs of a retiring Harness. With its Spindle failed, the instances that take drains are aborted. -/
def State.voidJobs (s : State) (h : Nat) : State × List Ended :=
  let failed := (s.spindle h).failed
  (s.spindle h).jobs.foldl (fun a j =>
    let s := a.1
    match j.key.cls with
    | 0 | 2 => (s.dropJob h j.key, a.2)
    | 1 | 3 => if failed then
        let r := s.abortJob h j true
        (r.1, a.2 ++ r.2)
      else a
    | 4 =>
      let r := s.abortJob h j true
      (r.1, a.2 ++ r.2)
    | _ => ((s.dropJob h j.key).moveJob j, a.2)) (s, [])

/-- R309, R353: a window whose turns move to another Harness: as it was formed, with these queues. -/
def Turns.again (t : Turns) (queues : List (Nat × List (List Gang))) : Turns :=
  let weight := fun k => ((t.queues.find? (·.tenant == k)).map (·.weight)).getD 1
  { bolt := t.bolt, window := t.window, frames := t.frames, queues := queues.map (fun q => ⟨q.1, weight q.1, q.2⟩) }

/-- R353: gangs that waited for a turn in a retiring Harness go to the Harness with the least load. -/
def State.moveTurns (s : State) (ts : List Turns) : State :=
  ts.foldl (fun s t =>
    match s.lightest t.bolt t.window with
    | none => t.gangs.foldl (fun s g => (g.rows.foldl (fun s r => s.loseResults g.bolt g.proj [r] true) s)) s
    | some h =>
      let as := sortNub (t.gangs.map (·.adapter))
      let mine := as.map (fun a =>
        let gs := t.gangs.filter (·.adapter == a)
        (((gs.head?).map (·.tenant)).getD 0, gs))
      let s := t.gangs.foldl (fun s g => s.needRows h g.bolt g.rows) s
      s.queueTurns h (t.again (tenantQueues mine))) s

/-- R353, R354: Harness h begins to retire. -/
def State.retireHarness (s : State) (h seq : Nat) : State :=
  if !s.inService h then s else
  let s := { s with cust := { s.cust with harnessPending := s.cust.harnessPending ||| (1#8 <<< h) } }
  let s := (List.range 66).foldl (fun s c => s.withdraw h c) s
  let ps := s.heddle.picks.filter (·.h == h)
  let turns := (s.harness h).turns
  let s := s.modHarness h (fun x => { x with stage := [], reqs := [], turns := [] })
  let s := s.modSpindle h (fun v => { v with combines := [] })
  let s := s.voidStrands h
  let r := s.voidJobs h
  let fed := r.2.filter (fun e => !ps.any (·.id == e.pick.id))
  let live := ps.map (fun p => (⟨p, r.2.any (fun e => e.pick.id == p.id)⟩ : Ended))
  let s := (r.1.endPicks (live ++ fed) seq true true).moveTurns turns
  let s := s.voidSlice h
  if s.servingHarnesses.isEmpty then s.failEngine else s

/-! ## Faults that retire (R344, R352, R355) -/

/-- R365: a proof pick ends without a pass: the core stays RETIRED, and PROOF_FAILED is written. -/
def State.proofFailed (s : State) (h c result : Nat) : State :=
  let s := s.modCore h c (fun k => { k with service := .retired })
  let s := { s with cust := { s.cust with proofs := s.cust.proofs.filter (fun p => p != (h, c)),
                                          joins := s.cust.joins.filter (· != coreKey h c) } }
  let s := (s.set (CU_PROOF_STATUS.CORE h) c).set (CU_PROOF_STATUS.RESULT h) result
  s.recordFault { cls := 0x10, source := 11, harness := h, core := c, detail := result }

/-- R338, R344, R352: a fault on core (h, c): its record names the pick of the segment, or the first of its picks. -/
def State.coreFault (s : State) (h c cls detail : Nat) (seg : Option Nat) (proof : Nat) : State :=
  let k := s.core h c
  if k.service == .proving then s.proofFailed h c proof
  else if k.service != .active && k.service != .retirePending then s
  else
    let ps := s.heddle.picks.filter (fun p => p.h == h && p.c == c)
    let named := (ps.find? (fun p => seg.any (fun i => p.segs.any (·.1 == i)))).or ps.head?
    let s := s.recordFault { cls := cls, source := 3, action := 1, harness := h, core := c,
                             bolt := named.map (·.bolt), pick := named.map (·.id), detail := detail }
    let seq := s.lastFaultSeq
    (s.withdraw h c).endPicks (ps.map (fun p => ⟨p, false⟩)) seq true false

/-! ## Uncorrectable memory words (R368, R434) -/

/-- A row leaves the gangs of Harness h that wait for their turn; a gradient gang loses terms. -/
def Gang.dropRow (g : Gang) (row : Nat) : Gang :=
  let keep := (g.rows.mapIdx (fun i r => (i, r))).filter (fun x => x.2 != row)
  { g with rows := keep.map (·.2), stash := if g.stash.isEmpty then [] else keep.map (fun x => g.stash.getD x.1 0) }

/-- R434: in Harness h nothing can read a row's copy any more (`kind`: the payload, or an intermediate of projection
`proj`): the results that needed it are lost. -/
def State.loseReaders (s : State) (h : Nat) (b : Bolt) (row : Nat) (kind : StageKind) (proj : Nat) : State :=
  let needs := fun (pu : Purpose) (pj : Nat) => match pu.stageKind with
    | none => kind == .row
    | some k => k == kind && stageProj k pj == proj
  let ps := s.heddle.picks.filter (fun p => p.h == h && p.unfed b.id row && needs p.purpose p.proj)
  let gs := ((s.harness h).turns.flatMap Turns.gangs).filter (fun g => g.bolt == b.id && g.rows.contains row &&
    g.purposes.any (fun pu => needs pu g.proj))
  let js := if kind == .row then (s.spindle h).jobs.filter (fun j => j.key.cls == 2 && j.key.bolt == b.id && j.rows.contains row &&
    !j.started) else []
  let s := ps.foldl (fun s p =>
    if p.kind == .tRows then s.sumLost (s.pickRev p) p.adapter p.layer p.proj (p.purpose == .dB)
    else s.loseResults b.id p.proj [row] false) s
  let s := gs.foldl (fun s g =>
    let s := if g.kind == .tRows then g.purposes.foldl (fun s pu =>
        s.sumLost (angleRev (dAngle b.desc)) g.adapter g.layer g.proj (pu == .dB)) s else s
    s.loseResults b.id g.proj [row] false) s
  let s := js.foldl (fun s j => (s.dropJob h j.key)) s
  let s := if js.isEmpty then s else
    (dProjs b.desc).foldl (fun s p => s.loseResults b.id p [row] false) s
  let hitG := fun (g : Gang) => gs.any (· == g)
  let dropG := fun (l : List Gang) => (l.map (fun g => if hitG g then g.dropRow row else g)).filter (fun g => !g.rows.isEmpty)
  let dropQ := fun (q : TenantQueue) => ({ q with gangs := (q.gangs.map dropG).filter (fun l => !l.isEmpty) } : TenantQueue)
  let dropT := fun (t : Turns) => ({ t with deferred := dropG t.deferred, queues := t.queues.map dropQ } : Turns)
  let s := s.modHarness h (fun x => { x with turns := (x.turns.map dropT).filter Turns.more })
  let works := fun (q : Pick) => q.h == h && (ps.any (fun p => q.id == p.id || (p.kind != .tRows && q.kind != .tRows && q.sameWork p)))
  (s.cutRows works [row]).releaseRows b.id

/-- R368, R434: an uncorrectable word in a replay buffer (`staged` false) or in the row stage of Harness h. -/
def State.replayEcc (s : State) (h : Nat) (b : Bolt) (r : Row) (staged : Bool) : State :=
  let s := s.recordFault { cls := 0x0B, source := if staged then 2 else 0, action := 6, harness := h, bolt := some b.id,
                           detail := r.index + b.id % 2 ^ 32 * 2 ^ 32 }
  let s := s.bump CU_ECC_EVENTS.REPLAY_UNCORRECTED
  let mine := fun (e : StageEntry) => e.bolt == b.id && e.row == r.index
  if staged then
    let es := (s.harness h).stage.filter mine
    if es.any (·.kind == .row) then
      let s := s.modHarness h (fun x => { x with stage := x.stage.filter (fun e => !(mine e && e.kind == .row)) })
      if r.held && !r.spoiled then s.modHarness h (fun x => { x with reqs := x.reqs ++ [⟨b.id, r.index⟩] })
      else s.loseReaders h b r.index .row 0
    else
      let s := s.modHarness h (fun x => { x with stage := x.stage.filter (fun e => !mine e) })
      es.foldl (fun s e => s.loseReaders h b r.index e.kind e.proj) s
  else
    let s := s.modRow b.id r.index (fun x => { x with spoiled := true })
    let sent := s.exch.rounds.flatMap (fun o => o.rows.filter (fun x => x.bolt == b.id && x.row == r.index && !x.sent))
    let rounds := s.exch.rounds.map (fun o => { o with rows := o.rows.filter (fun x => !sent.contains x) })
    let s := { s with exch := { s.exch with rounds := rounds } }
    let s := sent.foldl (fun s x => s.loseResults b.id x.proj [r.index] false) s
    (List.range 8).foldl (fun s i =>
      let s := s.modHarness i (fun x => { x with reqs := x.reqs.filter (fun q => !(q.bolt == b.id && q.row == r.index)) })
      if (s.stageFind i b.id r.index .row 0).isSome then s else s.loseReaders i b r.index .row 0) s

/-- R368, R344: an uncorrectable Bobbin word: the tile is invalid in its slice and filled again, and the picks with an
issued block that read it end. -/
def State.bobbinEcc (s : State) (h tile : Nat) : State :=
  match s.frameOf h tile with
  | none => s
  | some f =>
    if f.2.sectors.isEmpty then s else
    let ps := s.heddle.picks.filter (fun p => p.h == h && (List.range p.issued).any (fun b => (s.blockTiles p b).contains tile))
    let s := s.recordFault { cls := 0x0A, source := 6, action := 7, harness := h, core := ((ps.head?).map (·.c)).getD 0,
                             bolt := (ps.head?).map (·.bolt), pick := (ps.head?).map (·.id), detail := tile * tileBytes }
    let seq := s.lastFaultSeq
    let s := s.bump CU_ECC_EVENTS.BOBBIN_UNCORRECTED
    let s := s.endPicks (ps.map (fun p => ⟨p, false⟩)) seq false false
    let s := s.modSlice h (fun m => m.map (fun g =>
      if g.2.tile == tile then (g.1, { g.2 with sectors := [], data := [] }) else g))
    s.queueFill { tile := tile, slice := some h, sectors := f.2.sectors }

/-- R341: the pick that a fault of Harness h ends first. -/
def State.firstPick (s : State) (h : Nat) : Option Pick :=
  (sortBy (fun (a b : Pick) => decide (a.id < b.id)) (s.heddle.picks.filter (·.h == h))).head?

/-- R57, R355: a link fails for good: its Harness retires, what has not arrived on it never will, and what would leave on it
leaves elsewhere. -/
def State.failLink (s : State) (h : Nat) : State :=
  let p := s.firstPick h
  let s := s.recordFault { cls := 4, source := 0, action := 2, harness := h, bolt := p.map (·.bolt), pick := p.map (·.id),
                           detail := h }
  let seq := s.lastFaultSeq
  let gone := (s.link h).egress
  let s := s.modLink h (fun l => { l with up := false, cursor := none, egress := [] })
  let s := s.modLink (s.linkFor h) (fun l => { l with egress := l.egress ++ gone })
  let short := fun (b : Bolt) => ((b.parts.filter (fun p => p.link == h)).map (fun p => p.count - p.got - p.short)).sum
  let s := (s.weft.bolts.filter (fun b => b.refused.isNone && short b != 0)).foldl (fun s b =>
    ((s.modBolt b.id (fun y => { y with
      parts := modWhere (fun p => p.link == h) (fun p => { p with short := p.count - p.got }) y.parts })).bump
      CU_LOSS_EVENTS.LOST_RESULTS (short b * (dProjs b.desc).length)).markLoss b.id false) s
  s.retireHarness h seq

/-- R160, R353: a Spindle without a fault-free pair fails its Harness. -/
def State.failSpindle (s : State) (h : Nat) : State :=
  let s := s.modSpindle h (fun v => { v with failed := true })
  let p := s.firstPick h
  let s := s.recordFault { cls := 9, source := 5, action := 2, harness := h, bolt := p.map (·.bolt), pick := p.map (·.id),
                           detail := (s.spindle h).faultBits }
  s.retireHarness h s.lastFaultSeq

end Sys2Proof.Machine
end

