-- ==== Sys2Proof/Machine/Spindle.lean ====
section
/-! DEFINITION. Commands of the Spindles (chapters 7 and 8): SPINDLE_INSTANCE_START, SPINDLE_VECTOR, SPINDLE_TAIL with what
becomes of the streams of each class, NORM_AND_SCALARS, parity errors, and writes of the class map and the program slots. -/

namespace Sys2Proof.Machine

/-! ## Starting instances (R163, R165, R170, R171) -/

/-- Can an instance of a job start: its inputs are there? -/
def State.jobStarts (s : State) (h : Nat) (j : Job) : Bool :=
  !j.started &&
    (match j.key.cls with
     | 2 => (s.payloadIn h j.key.bolt j.key.row).isSome
     | 5 => true
     | 6 | 7 => j.indices.isEmpty && j.reads.all (fun r => r.got.isSome || r.failed)
     | _ => !j.vecs.isEmpty)

/-- Elements that one instance of an element class takes now (R164). -/
def State.chunkLen (s : State) (h : Nat) (j : Job) : Nat := min (s.laneWidth h) (j.total - j.pos)

/-- A vector of an element class, from element `pos` on. -/
def elementVec (pos : Nat) (v0 v1 v2 v3 : List F32) : Vec :=
  { v0 := v0.mapIdx (fun i x => { v := x, row := 0, col := pos + i }), v1 := v1, v2 := v2, v3 := v3 }

/-- An instance begins: its job holds its registers and vectors. -/
def State.begin_ (s : State) (h : Nat) (j : Job) (params : List F32) (vecs : Option (List Vec)) : State :=
  let j' := s.startJob h j params
  let j' := match vecs with
    | some vs => { j' with vecs := vs }
    | none => j'
  ((s.modJob h j.key (fun _ => j')).modSpindle h (fun v => { v with last := v.last.filter (· != j.key) })).closeVectors h

/-- R163: S0 = alpha / r of an adapter. -/
def State.jobScale (s : State) (a : Nat) : State × F32 :=
  let s := s.reachDir a
  (s, ((s.rawDir a).map (fun d => alphaOverRank d.alpha d.rank)).getD 0)

/-- R192: a GRAD_ROW instance takes a chunk of its row; S1 is ROW_SCALE, or 1.0 for a row with GRAD 0. -/
def State.startGradRow (s : State) (h : Nat) (j : Job) : State :=
  match s.bolt? j.key.bolt, s.payloadIn h j.key.bolt j.key.row with
  | some b, some bytes =>
    let r := b.row? j.key.row
    let sc := if r.any Row.grad then (r.map Row.scale).getD 0 else oneF32
    let vals := (List.range (s.chunkLen h j)).map (fun i => rowF32 (dFmt b.desc) bytes (j.pos + i))
    s.begin_ h j [0, sc] (some [elementVec j.pos vals [] [] []])
  | _, _ => s.dropJob h j.key

/-- R210, R221: the UPD jobs of an adapter's layer go: no version number or no tile of the run pool is left. -/
def State.dropUpdates (s : State) (a rev : Nat) (l : Option Nat) : State :=
  { s with spindles := s.spindles.map (fun v => { v with
      jobs := v.jobs.filter (fun j => !(j.key.cls == 5 && j.key.bolt == rev && j.key.adapter == a && l.all (· == j.key.layer))) }) }

/-- R208, R210, R221: an UPD instance opens the pending version, makes its layer's run the adapter's own, and reads its chunk
of the optimizer area. -/
def State.startUpd (s : State) (h : Nat) (j : Job) : State :=
  let a := j.key.adapter
  let rev := j.key.bolt
  match s.openPending a rev with
  | none => s.dropUpdates a rev none
  | some s =>
    match s.pendingRun a j.key.layer with
    | none => s.poolEmpty a rev j.key.layer
    | some (s, _) =>
      match s.learner? a rev, s.rawDir a with
      | some x, some d =>
        match s.sectionOf d x.opt j.key.layer j.key.proj j.key.isB with
        | none => s.dropJob h j.key
        | some sec =>
          let n := s.chunkLen h j
          let arr := fun (s : State) (i : Nat) => s.loomF32s (sec.base + 4 * (i * sec.elems + j.pos)) n
          let r0 := arr s 0
          let r1 := arr r0.1 1
          let r2 := arr r1.1 2
          let r3 := arr r2.1 3
          r3.1.begin_ h j j.params (some [elementVec j.pos r0.2 r1.2 r2.2 r3.2])
      | _, _ => s.dropJob h j.key

/-- R166, R230, R432: element i of a row that a bag reads, in the definition that the bag was grouped under. -/
def Job.readF32 (j : Job) (k i : Nat) : F32 :=
  match j.reads[k]? with
  | none => 0
  | some r => ((j.defs.find? (·.k == r.table)).map (fun t => t.rowF32 (r.got.getD []) i)).getD 0

/-- R230: element i of one index of a bag: of its row, or of the two rows it composes. -/
def Job.bagElem (j : Job) (x : BagIndex) (i : Nat) : F32 :=
  let a := j.readF32 x.first i
  match x.second with
  | none => a
  | some k =>
    let b := j.readF32 k i
    if x.mul then f32Mul a b else
    let c := f32Add a b
    if c.toNat % 2 ^ 31 == 0 then 0 else c

/-- R277: a bag that reads a tile which cannot be read: its results end TIER_FAILED. -/
def State.bagFailed (s : State) (h : Nat) (j : Job) : State :=
  let gone := j.reads.any (·.gone)
  let s := s.dropJob h j.key
  match s.bolt? j.key.bolt with
  | none => s
  | some b =>
    let hit := fun (r : Result) => j.rows.contains r.row && r.status == 0 && !r.ended && !r.committed
    let rs := b.results.filter hit
    let s := rs.foldl (fun s r =>
      (s.modResult b.id r.row r.proj (fun x => { x with status := 4 })).answer h b.id r.row r.proj [] false false) s
    let s := if rs.isEmpty then s else
      s.modBolt b.id (fun y => { y with tierTimeout := y.tierTimeout || gone, tierError := y.tierError || !gone })
    s.releaseRows b.id

/-- R182: a pooling instance takes the chunk of each row of its bag as one vector, in bag order. -/
def State.startPool (s : State) (h : Nat) (j : Job) : State :=
  if j.reads.any (·.failed) then s.bagFailed h j else
  let n := s.chunkLen h j
  let vecs := j.bag.map (fun x => elementVec j.pos ((List.range n).map (fun i => j.bagElem x (j.pos + i))) [] [] [])
  s.begin_ h j [] (some vecs)

/-- An instance of a job starts. -/
def State.startInstance (s : State) (h : Nat) (j : Job) : State :=
  match j.key.cls with
  | 0 | 4 => s.begin_ h j [] none
  | 1 | 3 =>
    let r := s.jobScale j.key.adapter
    r.1.begin_ h j [r.2] none
  | 2 => s.startGradRow h j
  | 5 => s.startUpd h j
  | _ => s.startPool h j

/-- R411, R412: may the Spindle of Harness h start an instance; a halt of it has neither taken hold nor been ordered. -/
def State.spindleOpen (s : State) (h : Nat) : Bool :=
  s.serving && !(s.spindle h).failed && !s.spindleStopped h && !s.dbg.pendingHalts.any (·.coversSpindle h)

/-- Instances started and not ended (ACTIVE_INSTANCES). -/
def Spindle.active (v : Spindle) : Nat := v.jobs.countP (·.started)

/-- The first job that can start, where fewer than 255 instances are active. -/
def State.nextStart (s : State) (h : Nat) : Option Job :=
  if 255 ≤ (s.spindle h).active then none else (s.spindle h).jobs.find? (s.jobStarts h)

/-- R171: SPINDLE_INSTANCE_START. -/
def execSpindleInstanceStart (h : Fin 8) (s : State) : Host.Outcome State Fault Refusal :=
  .next (s.after <| if !s.spindleOpen h.val then s else
    match s.nextStart h.val with
    | none => s
    | some j => (s.attempt (fun s => s.startInstance h.val j)).1)

/-! ## Vectors (R171, R160) -/

/-- The formats of a job's streams: OUT_FMT of its bolt, and the storage format of its adapter. -/
def State.jobFmts (s : State) (j : Job) : Nat × EFmt :=
  (((s.bolt? j.key.bolt).map (fun b => dOutFmt b.desc)).getD 0,
   if j.key.cls == 5 then ((s.rawDir j.key.adapter).map Dir.fmt).getD .bf16 else .bf16)

/-- R160, R344: an instance is aborted, and the picks whose drains fed it are handled as ended by a fault. -/
def State.abortInstance (s : State) (h : Nat) (j : Job) (seq : Nat) : State :=
  let r := s.abortJob h j false
  if r.2.isEmpty then r.1 else r.1.endPicks r.2 seq false false

/-- R160: a lockstep mismatch in CHECKED mode. -/
def State.mismatch (s : State) (h : Nat) (j : Job) : State :=
  let s := match s.freePair h with
    | some k => s.modSpindle h (fun v => { v with blockFault := v.blockFault ||| (3#8 <<< (2 * k)) })
    | none => s
  if (s.freePair h).isNone then s.failSpindle h
  else s.fresh.2.abortInstance h j s.fresh.1.toNat

/-- A run of a job ends. -/
def State.runJob (s : State) (h : Nat) (j : Job) : State :=
  let f := s.jobFmts j
  let r := s.finishRun h j f.1 f.2
  (r.1.modJob h j.key (fun _ => r.2)).closeVectors h

/-- The started job whose closed vector runs next: the one whose run stopped midway, else the oldest. -/
def State.vectorJob (s : State) (h : Nat) : Option Job :=
  let v := s.spindle h
  let ok := fun (j : Job) => j.started && !j.vecs.isEmpty
  (v.jobs.find? (fun j => ok j && v.mid.any (·.key == j.key))).or (v.jobs.find? ok)

/-- R171: SPINDLE_VECTOR; `mismatch`: the blocks of the pair differ (only in CHECKED mode). -/
def execSpindleVector (h : Fin 8) (mismatch : Bool) (s : State) : Host.Outcome State Fault Refusal :=
  .next (s.after <| if !s.serving || (s.spindle h.val).failed || s.spindleStopped h.val then s else
    match s.vectorJob h.val with
    | none => s
    | some j => if mismatch && j.width == 256 then s.mismatch h.val j else (s.attempt (fun s => s.runJob h.val j)).1)

/-! ## What becomes of the streams (R181) -/

/-- The values of a row for elements 0 to n − 1 of stream 0; one that the program did not write is open. -/
def State.rowValues (s : State) (os : List Stored) (n : Nat) : State × List F32 × Bool × Bool :=
  (List.range n).foldl (fun a i =>
    match os.find? (fun o => o.stream == 0 && o.col == i) with
    | some o => (a.1, a.2.1 ++ [o.v], a.2.2.1 || o.sat, a.2.2.2 || o.nan)
    | none =>
      let f := a.1.fresh
      (f.2, a.2.1 ++ [BitVec.ofNat 32 f.1.toNat], a.2.2)) (s, [], false, false)

/-- Values of a 2-byte or 4-byte format as bytes. -/
def packVals (width : Nat) (l : List F32) : List Byte := l.flatMap (fun x => toLe width x.toNat)

/-- The rank of a job's adapter. -/
def State.jobRank (s : State) (j : Job) : Nat :=
  match j.fed.head? with
  | some p => p.rank
  | none => ((s.rawDir j.key.adapter).map Dir.rank).getD 0

/-- R191, R193: a row's H (or dH) goes into its stash, where its result learns. -/
def State.stashRow (s : State) (h : Nat) (b : Bolt) (row proj : Nat) (isDh : Bool) (bytes : List Byte) : State :=
  match b.row? row, b.result? row proj with
  | some r, some x =>
    if !x.learn || x.ended then s else
    s.stashWrite h { layer := angleLayer (dAngle b.desc), proj := proj, bolt24 := b.stashKey, row := row, isDh := isDh,
                     adapter := r.adapter, tenant := r.tenant, request := r.request, position := r.position,
                     addr := 0, len := 0 } bytes
  | _, _ => s

/-- R163, R191, R197: FWD_HIDDEN: H, or dH', of each row enters the row stage; H of a learning row its stash. -/
def State.endHidden (s : State) (h : Nat) (j : Job) : State :=
  let n := s.jobRank j
  let s := s.dropJob h j.key
  match s.bolt? j.key.bolt with
  | none => s
  | some b =>
    j.rows.foldl (fun s row =>
      let v := s.rowValues (j.outs.filter (·.row == row)) n
      let bytes := packVals 2 v.2.1
      let e : StageEntry := { bolt := b.id, row := row, kind := if dBackward b.desc then .dHid else .hid, proj := j.key.proj,
                              adapter := j.key.adapter, bytes := bytes, sat := v.2.2.1, nan := v.2.2.2 }
      let s := if v.1.rowNamed h b.id row then v.1.modHarness h (fun x => { x with stage := x.stage ++ [e] }) else v.1
      if dBackward b.desc then s else s.stashRow h b row j.key.proj false bytes) s

/-- R193, R197: BWD_DH: dH of each learning row enters its stash. -/
def State.endDh (s : State) (h : Nat) (j : Job) : State :=
  let n := s.jobRank j
  let s := s.dropJob h j.key
  match s.bolt? j.key.bolt with
  | none => s
  | some b =>
    j.rows.foldl (fun s row =>
      let v := s.rowValues (j.outs.filter (·.row == row)) n
      v.1.stashRow h b row j.key.proj true (packVals 2 v.2.1)) s

/-- Does anything still bring delta values of an adapter's rows for a projection of a bolt? -/
def State.deltaFed (s : State) (bolt adapter proj : Nat) : Bool :=
  s.heddle.picks.any (fun p => p.bolt == bolt && p.adapter == adapter && p.proj == proj && p.purpose.classes.contains 1) ||
    s.heddle.harnesses.any (fun h => h.gangs.any (fun g => g.bolt == bolt && g.adapter == adapter && g.proj == proj &&
      g.purposes.any (fun p => p.classes.contains 1))) ||
    s.spindles.any (fun v => v.jobs.any (fun k => k.key.cls == 1 && k.key.bolt == bolt && k.key.adapter == adapter &&
        k.key.proj == proj) ||
      v.combines.any (fun c => c.bolt == bolt && c.adapter == adapter && c.proj == proj && c.purpose.classes.contains 1))

/-- R71, R181: FWD_DELTA: the values join those of the bolt; every row that has all its elements, and every row to which
nothing more is brought, is answered. -/
def State.endDelta (s : State) (h : Nat) (j : Job) : State :=
  let p := j.key.proj
  let s := (s.dropJob h j.key).modBolt j.key.bolt (fun b => { b with outs := b.outs ++ j.outs.map (fun o => (p, o)) })
  match s.bolt? j.key.bolt with
  | none => s
  | some b =>
    let n := dDout b.desc p
    let last := !s.deltaFed b.id j.key.adapter p
    let s := j.rows.foldl (fun s row =>
      let os := (b.outs.filter (fun o => o.1 == p && o.2.row == row)).map (·.2)
      if !last && os.length < n then s else
      let v := s.rowValues os n
      let via := match b.row? row, b.result? row p with
        | some r, some x => if b.sprint then r.link else x.harness
        | _, _ => h
      let s := v.1.modBolt b.id (fun y => { y with outs := y.outs.filter (fun o => !(o.1 == p && o.2.row == row)) })
      s.answer via b.id row p (packVals (if dOutFmt b.desc == 1 then 4 else 2) v.2.1) v.2.2.2 v.2.2.1) s
    s.releaseRows b.id

/-- R192: GRAD_ROW: dY' of a row enters the row stage. -/
def State.endGradRow (s : State) (h : Nat) (j : Job) : State :=
  let s := s.dropJob h j.key
  let v := s.rowValues j.outs j.total
  let e : StageEntry := { bolt := j.key.bolt, row := j.key.row, kind := .dY, bytes := packVals 2 v.2.1,
                          sat := v.2.2.1, nan := v.2.2.2 }
  let s := if v.1.rowNamed h j.key.bolt j.key.row then v.1.modHarness h (fun x => { x with stage := x.stage ++ [e] }) else v.1
  (s.releaseRows j.key.bolt).releaseFed

/-- R201, R297: GRAD_OUT: the gradient of a matrix and its norm slot go to the optimizer area. -/
def State.endGradOut (s : State) (h : Nat) (j : Job) : State :=
  let k := j.key
  let s := (s.dropJob h k).reachDir k.adapter
  match s.learner? k.adapter k.bolt, s.rawDir k.adapter with
  | some x, some d =>
    match s.sectionOf d x.opt k.layer k.proj k.isB with
    | none => s
    | some sec =>
      let vals := (j.outs.filter (·.stream == 0)).map (fun o => (sec.base + 4 * o.col, o.v))
      let s := s.queueBytes h (wordMap [] vals)
      let s := match j.outs.find? (·.stream == 1) with
        | some o => s.queueBytes h (wordMap [] [(sec.norm, o.v)])
        | none => s
      (s.modLearner k.adapter k.bolt (fun y => { y with outDone := y.outDone ++ [(k.layer, k.proj, k.isB)] })).gradientsDue
  | _, _ => s

/-- R181, R208: UPD: master, m and v go to the optimizer area, the codes to the pending version. -/
def State.endUpd (s : State) (h : Nat) (j : Job) : State :=
  let k := j.key
  let s := (s.dropJob h k).reachDir k.adapter
  match s.learner? k.adapter k.bolt, s.rawDir k.adapter with
  | some x, some d =>
    match s.sectionOf d x.opt k.layer k.proj k.isB with
    | none => s
    | some sec =>
      let arr := fun (stream i : Nat) => (j.outs.filter (·.stream == stream)).map (fun o =>
        (sec.base + 4 * (i * sec.elems + o.col), o.v))
      let s := s.queueBytes h (wordMap [] (arr 0 1 ++ arr 1 2 ++ arr 2 3))
      match s.pendingRun k.adapter k.layer with
      | some (s, some run) =>
        match s.runMat d run sec with
        | none => s
        | some m =>
          let pick := fun (stream : Nat) => (j.outs.filter (·.stream == stream)).map (fun o => (o.col, o.v.toNat))
          let r := s.codeBytes m (pick codeStream) (pick scaleStream)
          r.1.queueBytes h r.2
      | _ => s
  | _, _ => s

/-- R182, R233: a pooled row goes out with the first row of its bag; the other rows have metadata only. -/
def State.endPool (s : State) (h : Nat) (j : Job) : State :=
  let s := s.dropJob h j.key
  match s.bolt? j.key.bolt with
  | none => s
  | some b =>
    let v := s.rowValues j.outs j.total
    let data := packVals (if dOutFmt b.desc == 1 then 4 else 2) v.2.1
    let rs := b.results.filter (fun r => j.rows.contains r.row && r.status == 0 && !r.ended)
    let s := rs.foldl (fun s r =>
      if r.row == j.key.row then s.answer h b.id r.row r.proj data v.2.2.2 v.2.2.1
      else s.answer h b.id r.row r.proj [] false false) v.1
    (s.releaseRows b.id).releaseFed

/-- The job ends with its last instance. -/
def State.endJob (s : State) (h : Nat) (j : Job) : State :=
  match j.key.cls with
  | 0 => s.endHidden h j
  | 1 => s.endDelta h j
  | 2 => s.endGradRow h j
  | 3 => s.endDh h j
  | 4 => s.endGradOut h j
  | 5 => s.endUpd h j
  | _ => s.endPool h j

/-! ## The tail (R171) -/

/-- The oldest started job whose vectors have all run. -/
def State.tailJob (s : State) (h : Nat) : Option Job :=
  (s.spindle h).jobs.find? (fun j => j.started && j.vecs.isEmpty &&
    (!streamClass j.key.cls || (j.open_.isEmpty && !s.jobFed h j.key)))

/-- R164, R171, R181, R207: the tail has run and the instance ends, an UPD instance counts: an element class goes on with its row's next chunk, or the
streams of the job are complete. -/
def State.endInstance (s : State) (h : Nat) (j : Job) : State :=
  let s := if j.key.cls == 5 then s.bump ST_LEARN_WAIT.INSTANCES else s
  let j := { j with started := false, pos := j.pos + j.width }
  if !streamClass j.key.cls && j.pos < j.total then s.modJob h j.key (fun _ => j) else s.endJob h j

/-- The tail of a job runs, and its instance ends. -/
def State.runTailOf (s : State) (h : Nat) (j : Job) : State :=
  let f := s.jobFmts j
  let r := s.finishRun h j f.1 f.2
  r.1.endInstance h r.2

/-- R171: SPINDLE_TAIL; `mismatch` as in SPINDLE_VECTOR. -/
def execSpindleTail (h : Fin 8) (mismatch : Bool) (s : State) : Host.Outcome State Fault Refusal :=
  .next (s.after <| if !s.serving || (s.spindle h.val).failed || s.spindleStopped h.val then s else
    match s.tailJob h.val with
    | none => s
    | some j => if mismatch && j.width == 256 then s.mismatch h.val j else (s.attempt (fun s => s.runTailOf h.val j)).1)

/-! ## Norm and scalars (R205, R206, R298) -/

/-- R205: an adapter whose gradients are all written: its norm is formed and its scalars are fixed, or its update is skipped. A
replicated adapter waits for its reduced norm slots. -/
def State.normAndScalars (s : State) (x : Learner) : State :=
  let s := s.reachDir x.adapter
  match s.rawDir x.adapter with
  | none => s.skipUpdate x none
  | some d =>
    if x.incomplete || (s.replicatedHere d && !s.millAlive) then s.skipUpdate x none
    else if !s.replicatedHere d then (s.zeroMissing x (s.learnSections d x.opt)).fixScalars x d
    else if s.exch.norms.any (fun n => n.adapter == x.adapter && n.done) then s.fixScalars x d
    else s

/-- R205: NORM_AND_SCALARS. -/
def execNormAndScalars (a : BitVec 16) (s : State) : Host.Outcome State Fault Refusal :=
  .next (s.after <| match s.skein.learners.find? (fun x => x.adapter == a.toNat && x.learns && !x.normDone && s.gradientsDone x) with
    | none => s
    | some x => if s.serving then (s.attempt (fun s => s.normAndScalars x)).1 else s)

/-! ## Parity errors (R187, R188) -/

/-- R188: a program slot takes again the words of the Warp image, or of the factory. -/
def State.reloadSlot (s : State) (h slot : Nat) : State :=
  (List.range 64).foldl (fun s i =>
    let off := (SV_PROG.WORD h slot i).off
    s.setWord off ((mapFind s.boot.progs off).getD (factoryWord slot i))) s

/-- R187: a parity error in SERVICE mode: FORCED and the block's bit are set; a program slot marks every block and is
reloaded; the instance that reads the word is aborted. -/
def State.spindleParity (s : State) (h block : Nat) (inSlot : Bool) : State :=
  let j := (s.vectorJob h).or (s.tailJob h)
  let s := s.modSpindle h (fun v => { v with
    forced := true, progFault := v.progFault || inSlot,
    blockFault := if inSlot then v.blockFault else v.blockFault ||| (1#8 <<< block) })
  let s := s.recordFault { cls := 8, source := 5, action := 5, harness := h, bolt := j.bind (fun j => if j.key.cls == 4 || j.key.cls == 5 then none else some j.key.bolt),
                           pick := j.bind (fun j => (j.fed.head?).map (·.id)), detail := (s.spindle h).faultBits }
  let seq := s.lastFaultSeq
  let s := match inSlot, j with
    | true, some j => s.reloadSlot h j.slot
    | _, _ => s
  if (s.freePair h).isNone then s.failSpindle h
  else match j with
    | some j => s.abortInstance h j seq
    | none => s

/-- R187: SPINDLE_PARITY_ERROR; in CHECKED mode the lockstep compare stands in its place. -/
def execSpindleParityError (h : Fin 8) (block : Fin 8) (inSlot : Bool) (s : State) : Host.Outcome State Fault Refusal :=
  .next (s.after <| 
    let checked := match (s.vectorJob h.val).or (s.tailJob h.val) with
      | some j => j.width == 256
      | none => s.spChecked h.val
    if s.serving && !(s.spindle h.val).failed && !checked then s.spindleParity h.val block.val inSlot else s)

/-! ## The class map and the program slots (R184, R185, R188) -/

/-- R184: a write of SV_MAP[k] is validated against the slot it names. -/
def State.writeSvMap (s : State) (h k : Nat) (v : W64) : State :=
  match mapReason k v (s.progWords h (bitsOf v.toNat 4 0)) with
  | 0 => s.writeFields (SV_MAP.SLOT h k).off v
  | r => (s.set (SV_STATUS.MAP_REFUSED h) 1).set (SV_STATUS.REFUSE_REASON h) r

/-- R184: SV_MAP_WRITE. -/
def execSvMapWrite (h : Fin 8) (k : Fin 8) (v : W64) (s : State) : Host.Outcome State Fault Refusal :=
  .next (s.after <| s.atPort (SV_MAP.SLOT h.val k.val).off (fun s => s.writeSvMap h.val k.val v))

/-- R185: does a map entry name the slot, or a running instance use it? -/
def State.slotInUse (s : State) (h slot : Nat) : Bool :=
  (List.range 8).any (fun k => s.get (SV_MAP.SLOT h k) == slot) ||
    (s.spindle h).jobs.any (fun j => j.started && j.slot == slot)

/-- R185: a write of a word of a slot; ignored while the slot is in use. -/
def State.writeSvProg (s : State) (h slot i : Nat) (v : W64) : State :=
  if s.slotInUse h slot then s.set (SV_STATUS.PROG_WRITE_REFUSED h) 1
  else s.writeFields (SV_PROG.WORD h slot i).off v

/-- R185: SV_PROG_WRITE. -/
def execSvProgWrite (h : Fin 8) (slot : Fin 32) (i : Fin 64) (v : W64) (s : State) : Host.Outcome State Fault Refusal :=
  .next (s.after <| s.atPort (SV_PROG.WORD h.val slot.val i.val).off (fun s => s.writeSvProg h.val slot.val i.val v))

/-- R188: SPINDLE_RESUME: a write of 1 to SV_CTRL.RESUME, acted on at the next boundary. -/
def execSpindleResume (h : Fin 8) (s : State) : Host.Outcome State Fault Refusal :=
  .next (s.after <| s.atPort (SV_CTRL.RESUME h.val).off (fun s => s.writeFields (SV_CTRL.RESUME h.val).off
    (cmdWord [(SV_CTRL.RESUME h.val, 1), (SV_CTRL.MODE h.val, s.get (SV_CTRL.MODE h.val))])))

/-- R188, R367: at a boundary a requested RESUME takes effect where the Spindle test passes. Whether it does lies in the
Spindle: an open value. -/
def State.spindleBoundary (s : State) : State :=
  (List.range 8).foldl (fun s h =>
    if !s.flag (SV_CTRL.RESUME h) then s else
    let s := s.set (SV_CTRL.RESUME h) 0
    let f := s.fresh
    if bitOf f.1.toNat 0 then
      f.2.modSpindle h (fun v => { v with forced := false, blockFault := 0, progFault := false })
    else f.2) s

end Sys2Proof.Machine
end

