-- ==== Sys2Proof/Machine/Reed.lean ====
section
/-! DEFINITION. Commands of the Reed Network (chapter 6): STRAND_COMBINE, with the reduction of flying-shuttle partials
(R151, R311), and LONG_SUM_FINISH. -/

namespace Sys2Proof.Machine

/-! ## Strands and cells (R145, R146) -/

/-- The cell in which a term lies. -/
def cellOf (term : Nat) : Nat := term / 65536

/-- Does a pick whose first term is `first`, with `n` strands of 65,536 terms, begin a strand in the cell of `term`, before
that term? -/
def strandBefore (first n term : Nat) : Bool :=
  let j := ceilDiv (65536 * cellOf term - first) 65536
  decide (first + 65536 * j < term) && decide (j < n)

/-- Is a gang one that gives terms to a long sum? -/
def State.gangSum (s : State) (g : Gang) (x : LongSum) : Bool :=
  g.kind == .tRows && x.rev == ((s.bolt? g.bolt).map (fun b => angleRev (dAngle b.desc))).getD 0 && x.adapter == g.adapter &&
    x.layer == g.layer && x.proj == g.proj && g.purposes.contains (if x.isB then .dB else .dA)

/-- R146: has every earlier strand of a strand's cell arrived and been added? -/
def State.strandReady (s : State) (x : LongSum) (st : Strand) : Bool :=
  !x.strands.any (fun o => cellOf o.firstTerm == cellOf st.firstTerm && o.firstTerm < st.firstTerm && o.outTile == st.outTile) &&
    !s.heddle.picks.any (fun p => p.kind == .tRows && s.isSum p x && p.id != st.pick &&
      strandBefore p.firstTerm p.strands st.firstTerm) &&
    !s.heddle.harnesses.any (fun h => h.gangs.any (fun g => s.gangSum g x &&
      strandBefore g.firstTerm (ceilDiv g.rows.length 65536) st.firstTerm))

/-- Elements of two partials of one tile added element by element (R146, R148). -/
def addElems (a b : List (Nat × Partial)) : List (Nat × Partial) :=
  a.map (fun x => match b.find? (·.1 == x.1) with
    | some y => (x.1, x.2.add y.2)
    | none => x) ++ b.filter (fun y => !a.any (·.1 == y.1))

/-- Has an add saturated a value that neither operand had saturated? -/
def satRose (a b r : List (Nat × Partial)) : Bool :=
  r.any (fun x => x.2.sat && !(a ++ b).any (fun y => y.1 == x.1 && y.2.sat))

/-- RN_FLAG_EVENTS and RN_SAT_LOG take a saturated or clamped result of the network. -/
def State.networkSat (s : State) (source : Nat) (l : Nat × Nat × Nat × Nat) : State :=
  (s.bump RN_FLAG_EVENTS.SAT_TILES).logSat source l.1 l.2.1 l.2.2.1 l.2.2.2

/-- One add of the network on a tile of a long sum: it counts, and a value that newly saturates is logged. -/
def State.countAdd (s : State) (x : LongSum) (a b r : List (Nat × Partial)) : State :=
  let s := s.bump RN_EVENTS.COMBINES
  if satRose a b r then s.networkSat 2 x.last else s

/-- Is this the cell that a strand joins? -/
def Strand.joins (st : Strand) (c : Cell) : Bool := c.level == 0 && c.index == cellOf st.firstTerm && c.outTile == st.outTile

/-- R146: a strand joins its cell: it becomes the cell, or is added to it with one rounding; a spilled cell is read back. -/
def State.combineStrand (s : State) (x : LongSum) (st : Strand) : State :=
  let x' := { x with strands := x.strands.filter (· != st) }
  match x.cells.find? st.joins with
  | none =>
    s.putSum x { x' with cells := x.cells ++
      [{ index := cellOf st.firstTerm, outTile := st.outTile, harness := st.harness, elems := st.elems }] }
  | some c =>
    let old := c.readBack
    let elems := addElems old.elems st.elems
    ((s.putSum x { x' with cells := modWhere st.joins (fun _ => { old with elems := elems }) x.cells }).freeSpill c).countAdd x
      old.elems st.elems elems

/-- Has every strand of a cell or node of a long sum arrived and been added: no waiting strand, pick, gang or term still to
be numbered begins in its span? -/
def State.spanDone (s : State) (x : LongSum) (c : Cell) : Bool :=
  let lo := 65536 * c.index * 2 ^ c.level
  let hi := 65536 * (c.index + 1) * 2 ^ c.level
  let begins := fun first n => decide (first + 65536 * ceilDiv (lo - first) 65536 < hi) && decide (ceilDiv (lo - first) 65536 < n)
  (decide (hi ≤ x.terms) || x.rev != s.revolution || s.layerClosed x.layer) &&
    !x.strands.any (fun st => decide (lo ≤ st.firstTerm) && decide (st.firstTerm < hi)) &&
    !s.heddle.picks.any (fun p => p.kind == .tRows && s.isSum p x && begins p.firstTerm p.strands) &&
    !s.heddle.harnesses.any (fun h => h.gangs.any (fun g => s.gangSum g x && begins g.firstTerm (ceilDiv g.rows.length 65536)))

/-- Are these two children of one node of the tree, left and right? -/
def siblings (a b : Cell) : Bool :=
  a.level == b.level && a.outTile == b.outTile && a.index % 2 == 0 && b.index == a.index + 1

/-- R146, R149: two complete siblings make their node; what has spilled of them is read back. -/
def State.combinePair (s : State) (x : LongSum) (a b : Cell) : State :=
  let l := a.readBack
  let r := b.readBack
  let node := { l with level := l.level + 1, index := l.index / 2, elems := addElems l.elems r.elems }
  let cells := (x.cells.map (fun c => if c == a then node else c)).filter (· != b)
  (((s.putSum x { x with cells := cells }).freeSpill a).freeSpill b).countAdd x l.elems r.elems node.elems

/-- Two complete siblings, the left one in the store of Harness h. -/
def State.nextPair (s : State) (h : Nat) : Option (LongSum × Cell × Cell) :=
  s.heddle.sums.findSome? (fun x => x.cells.findSome? (fun a =>
    if a.harness == h && s.spanDone x a then
      (x.cells.find? (fun b => siblings a b && s.spanDone x b)).map (fun b => (x, a, b))
    else none))

/-- The oldest strand in the store of Harness h that can join its cell. -/
def State.nextStrand (s : State) (h : Nat) : Option (LongSum × Strand) :=
  s.heddle.sums.findSome? (fun x => (x.strands.find? (fun st => st.harness == h && s.strandReady x st)).map (fun st => (x, st)))

/-! ## Flying-shuttle reductions (R151, R311) -/

/-- One level of the tree over leaves numbered from 0: a node with one child passes it. -/
def pairUp {α : Type} (add : α → α → α) : List (Nat × α) → List (Nat × α)
  | [] => []
  | x :: l =>
    match l with
    | [] => [(x.1 / 2, x.2)]
    | y :: t => if x.1 / 2 == y.1 / 2 then (x.1 / 2, add x.2 y.2) :: pairUp add t else (x.1 / 2, x.2) :: pairUp add (y :: t)

/-- R146: the root of the aligned tree of n levels above `lv`, over its nodes of that level and those that `higher` gives for
the levels above. -/
def treeTop {α : Type} (add : α → α → α) (higher : Nat → List (Nat × α)) : Nat → Nat → List (Nat × α) → Option α
  | 0, _, l => (l.head?).map (·.2)
  | n + 1, lv, l =>
    treeTop add higher n (lv + 1) (sortBy (fun (x y : Nat × α) => decide (x.1 < y.1)) (pairUp add l ++ higher (lv + 1)))

/-- R146, R151: the sum of leaves in ascending number; +0 of none. -/
def leafSum (l : List (Nat × Partial)) : Partial := (treeTop Partial.add (fun _ => []) 40 0 l).getD (.float Slot.zero)

/-- Has every partial of the flying-shuttle bolt reached the network? -/
def State.sprintDone (s : State) (f : Sprint) : Bool :=
  f.formed && !f.hDone && !s.heddle.picks.any (fun p => p.bolt == f.bolt && p.purpose == .sprintDown)

/-- R151, R311: the values of H of one row of an adapter, from the partials of its contributing cores in ascending K. -/
def sprintVals (f : Sprint) (mine : List (Nat × Nat × TileOut)) (row rank : Nat) : List Partial :=
  (List.range rank).map (fun col =>
    leafSum ((f.cores.mapIdx (fun i c => (i, c))).filterMap (fun c =>
      mine.findSome? (fun x => if x.1 == c.2 then
          (x.2.2.outs.find? (fun o => o.row == row && o.col == col)).map (fun o => (c.1, Partial.ofSlot x.2.2.isInt o.slot))
        else none))))

/-- R148, R151: of the values of a row: has one saturated in the network, and has one been clamped? -/
def sprintSat (mine : List (Nat × Nat × TileOut)) (vals : List Partial) : Bool × Bool :=
  (!mine.any (·.2.2.sat) && vals.any Partial.sat, vals.any Partial.clamps)

/-- R311: H of one row: BF16 bytes, and the SAT and NAN flags it carries. -/
def sprintRow (mine : List (Nat × Nat × TileOut)) (vals : List Partial) : List Byte × Bool × Bool :=
  let cs := vals.map (fun v => EFmt.bf16.convert v.value)
  (cs.flatMap (fun c => toLe 2 c.bits),
   mine.any (·.2.2.sat) || vals.any (fun v => v.sat || v.clamps) || cs.any (·.sat),
   mine.any (·.2.2.nan) || cs.any (·.nan))

/-- R311: the root sends H back: it stands in the row stage of every Harness whose cores take part, and H of a learning row
goes to its stash. -/
def State.sprintReturn (s : State) (f : Sprint) : State :=
  match s.bolt? f.bolt with
  | none => s
  | some b =>
    let p := (dProjs b.desc).headD 0
    let hs := sortNub (f.cores.map (· / 66))
    let rs := b.results.filter (fun r => r.proj == p && r.status == 0 && !r.ended)
    let s := { s with heddle := { s.heddle with sprint := some { f with hDone := true, parts := [] } } }
    let tiles := sortNub (f.parts.map (fun x => 1024 * x.2.1 + x.2.2.outTile))
    let s := s.bump RN_EVENTS.COMBINES (tiles.length * (f.cores.length - 1))
    rs.foldl (fun s r =>
      let rank := ((s.rawDir r.adapter).map Dir.rank).getD 0
      let mine := f.parts.filter (fun x => x.2.1 == r.adapter && x.2.2.outs.any (·.row == r.row))
      let vals := sprintVals f mine r.row rank
      let v := sprintRow mine vals
      let last := ((f.parts.getLast?).map (fun x => (x.1 / 66, x.1 % 66, x.2.2.tile, 0))).getD (0, 0, 0, 0)
      let s := if (sprintSat mine vals).1 then s.networkSat 2 last else s
      let s := if (sprintSat mine vals).2 then s.networkSat 3 last else s
      let e : StageEntry := { bolt := b.id, row := r.row, kind := .hid, proj := p, adapter := r.adapter, bytes := v.1,
                              sat := v.2.1, nan := v.2.2 }
      let s := hs.foldl (fun s h => s.modHarness h (fun x => { x with stage := x.stage ++ [e] })) s
      s.stashRow (hs.headD 0) b r.row p false v.1) s

/-- R146: STRAND_COMBINE. -/
def execStrandCombine (h : Fin 8) (s : State) : Host.Outcome State Fault Refusal :=
  .next (s.after <| if !s.powered then s else
    match s.heddle.sprint.filter s.sprintDone with
    | some f => s.sprintReturn f
    | none => match s.nextStrand h.val with
      | some x => s.combineStrand x.1 x.2
      | none => match s.nextPair h.val with
        | some x => s.combinePair x.1 x.2.1 x.2.2
        | none => s)

/-! ## LONG_SUM_FINISH (R146, R148, R199) -/

/-- R199: may a long sum be finished: its layer has closed, every pick and gang that gives it terms has gone, and every
strand is in its cell? -/
def State.sumCloses (s : State) (x : LongSum) : Bool :=
  (x.rev != s.revolution || s.layerClosed x.layer) && x.strands.isEmpty &&
    !s.heddle.picks.any (fun p => p.kind == .tRows && s.isSum p x) &&
    !s.heddle.harnesses.any (fun h => h.gangs.any (fun g => s.gangSum g x))

/-- R146: the elements of a long sum: the tree over its cells and nodes, read back where they had spilled. -/
def LongSum.result (x : LongSum) : List (Nat × Partial) :=
  let cells := (sortBy (fun (a b : Cell) => decide (a.index < b.index)) x.cells).map Cell.readBack
  (sortNub (cells.flatMap (fun c => c.elems.map (·.1)))).map (fun k =>
    let at_ := fun lv => (cells.filter (·.level == lv)).filterMap (fun c =>
      (c.elems.find? (·.1 == k)).map (fun e => (c.index, e.2)))
    (k, (treeTop Partial.add at_ 40 0 (at_ 0)).getD (.float Slot.zero)))

/-- R143, R148: the SAT flag of an element of a finished long sum. -/
def Partial.flagged (p : Partial) : Bool := p.sat || p.clamps

/-- R199, R201: a long sum ends: its matrix goes to a GRAD_OUT instance; one that has lost terms is discarded (R349). -/
def State.finishSum (s : State) (x : LongSum) : State :=
  let s := { s with heddle := { s.heddle with sums := s.heddle.sums.filter (· != x) } }
  let s := (s.freeSpills x).reachDir x.adapter
  if x.incomplete then s.gradientsDue else
  match s.learner? x.adapter x.rev, s.rawDir x.adapter with
  | some l, some d =>
    match s.sectionOf d l.opt x.layer x.proj x.isB with
    | none => s
    | some sec =>
      match s.runMat d ⟨0, 0⟩ sec with
      | none => s
      | some m =>
        let res := x.result
        let tiles := sortNub (x.cells.map (·.outTile))
        let adds := (tiles.map (fun t => x.cells.countP (·.outTile == t) - 1)).sum
        let s := s.bump RN_EVENTS.COMBINES adds
        let rose := res.any (fun e => e.2.sat && !x.cells.any (fun c => c.elems.any (fun y => y.1 == e.1 && y.2.sat)))
        let s := if rose then s.networkSat 2 x.last else s
        let s := if res.any (·.2.clamps) then s.networkSat 3 x.last else s
        let lanes := sortBy (fun (a b : Lane) => decide (a.col < b.col)) (res.map (fun e =>
          ({ v := e.2.value, row := 0, col := m.updIndex (e.1 / 65536) (e.1 % 65536), sat := e.2.flagged,
             nan := f32IsNan e.2.value } : Lane)))
        let h := s.standIn (x.adapter % 8)
        let w := s.laneWidth h
        (s.addJob h { key := { cls := 4, bolt := x.rev, adapter := x.adapter, layer := x.layer, proj := x.proj, isB := x.isB },
                      width := w, open_ := lanes }).closeVectors h
  | _, _ => s

/-- R199: LONG_SUM_FINISH. -/
def execLongSumFinish (adapter : BitVec 16) (layer : BitVec 10) (proj : BitVec 4) (isB : Bool) (s : State) :
    Host.Outcome State Fault Refusal :=
  .next (s.after <| match s.heddle.sums.find? (fun x => x.adapter == adapter.toNat && x.layer == layer.toNat && x.proj == proj.toNat &&
      x.isB == isB && s.sumCloses x) with
    | none => s
    | some x => if s.serving then (s.attempt (fun s => s.finishSum x)).1 else s)

end Sys2Proof.Machine
end

