-- ==== Sys2Proof/Machine/Remote.lean ====
section
/-! DEFINITION. Remote bolts at their owner (R287, R288): the sections of a REQUEST payload, the bolts they form, their
end, and the RESPONSE messages that carry their records back. -/

namespace Sys2Proof.Machine

/-! ## REQUEST payloads (Table 11.3) -/

/-- The row records of a section: each with its row index. -/
def sectionRows (size : Nat) : Nat → List Byte → List (Nat × List Byte)
  | 0, _ => []
  | n + 1, b => (leNat (b.take 8) / 2 ^ 44, (b.drop 8).take size) :: sectionRows size n (b.drop (8 + size))

/-- The sections of a payload, with their descriptors; a descriptor that R63 refuses ends the reading. -/
def requestSections : Nat → List Byte → List (List W64 × List (Nat × List Byte))
  | 0, _ => []
  | fuel + 1, b =>
    if b.length < 64 then [] else
    let d := (List.range 8).map (fun i => BitVec.ofNat 64 (leNat ((b.drop (8 * i)).take 8)))
    if badDescriptor d then [] else
    let size := recordBytes d
    let n := dPartRows d
    (d, sectionRows size n (b.drop 64)) :: requestSections fuel (b.drop (64 + n * (8 + size)))

/-! ## Remote bolts (R287) -/

/-- The rows of a section. They reach every Harness through the Shed Exchange; what is counted by link counts under 0. -/
def remoteRow (x : Nat × List Byte) : Row :=
  { index := x.1, link := 0, meta0 := BitVec.ofNat 64 (leNat (x.2.take 8)),
    meta1 := BitVec.ofNat 64 (leNat ((x.2.drop 8).take 8)), payload := x.2.drop 16 }

/-- The parts of a remote bolt: one, on no link of the port, of the rows that have come. -/
def remoteParts (rows : Nat) : List Part := [{ link := 8, first := 0, count := rows, got := rows }]

/-- The remote bolts in flight. -/
def State.remoteBolts (s : State) : List Bolt := s.weft.bolts.filter (·.remote.isSome)

/-- R287: every row of a remote bolt comes back as a failed remote row: a metadata-only record of status TIER_FAILED. -/
def State.failRemoteBolt (s : State) (b : Bolt) : State :=
  let rs := b.rows.flatMap (fun r => (dProjs b.desc).map (fun p =>
    ({ row := r.index, proj := p, status := 4, adapter := r.adapter, emitted := true } : Result)))
  s.modBolt b.id (fun y => { y with
    windows := max 1 y.windows, opened := true, stopped := true,
    rows := y.rows.map (fun r => { r with grouped := true, pooled := true }), results := rs,
    answers := rs.map (fun r => ⟨b.id, r.row, r.proj, wordBytes (resultMeta b r false false false)⟩) })

/-- A section starts a remote bolt. -/
def State.startRemote (s : State) (x : HeldSection) : State :=
  let id := 2 ^ 32 * s.exch.nextMsg + dBoltId x.desc
  let rows := x.rows.map remoteRow
  let b : Bolt := { id := id, desc := x.desc, parts := remoteParts rows.length, rows := rows,
                    remote := some x.src, roundOpen := !x.last, order := s.weft.orderClock, aclk := s.cust.aclk,
                    opened := s.accepted (dAngle x.desc) }
  let s := { s with weft := { s.weft with bolts := s.weft.bolts ++ [b], orderClock := s.weft.orderClock + 1 },
                    exch := { s.exch with nextMsg := s.exch.nextMsg + 1 } }
  if s.expired (dAngle x.desc) then s.failRemoteBolt b else s

/-- R287: a section joins the remote bolt of its source, round and BOLT_ID, starts one, or waits for a place. -/
def State.takeSection (s : State) (x : HeldSection) : State :=
  match s.remoteBolts.find? (fun b => b.remote == some x.src && dAngle b.desc == x.angle &&
      dBoltId b.desc == dBoltId x.desc && b.roundOpen) with
  | some b =>
    let rows := b.rows ++ x.rows.map remoteRow
    let s := s.modBolt b.id (fun y => { y with rows := rows, parts := remoteParts rows.length, roundOpen := !x.last })
    if b.stopped then s.failRemoteBolt { b with rows := rows } else s
  | none =>
    if 32 ≤ s.remoteBolts.length || !s.exch.held.isEmpty then { s with exch := { s.exch with held := s.exch.held ++ [x] } }
    else s.startRemote x

/-- R289, R292: rounds of a source close, those of the angles that meet a test: their remote bolts have all the rows they will
have. -/
def State.closeRounds (s : State) (src : Nat) (hit : W64 → Bool) : State :=
  let bs := modWhere (fun (b : Bolt) => b.remote == some src && hit (dAngle b.desc)) (fun b => { b with roundOpen := false }) s.weft.bolts
  let hs := modWhere (fun x => x.src == src && hit x.angle) (fun x => { x with last := true }) s.exch.held
  { s with weft := { s.weft with bolts := bs }, exch := { s.exch with held := hs } }

/-- Sections that waited start their remote bolts while there are places. -/
def State.startHeld (s : State) : State :=
  let held := s.exch.held
  held.foldl (fun s x => s.takeSection x) { s with exch := { s.exch with held := [] } }

/-! ## RESPONSE messages (R288) -/

/-- Records put together into runs of at most 4,096 records that a payload can hold. -/
def packRuns : List (List Byte) → List (List (List Byte))
  | [] => []
  | x :: t =>
    match packRuns t with
    | [] => [[x]]
    | g :: r =>
      if decide (g.length < 4096) && decide ((g.map List.length).sum + x.length ≤ 1048576 - 16) then (x :: g) :: r
      else [x] :: g :: r

/-- R288: the records of a remote bolt that have been formed go to its source in RESPONSE messages; `final`: the bolt has no more. -/
def State.sendAnswers (s : State) (b : Bolt) (final : Bool) : State :=
  let src := b.remote.getD 0
  let a := dAngle b.desc
  let runs := (packRuns (b.answers.map (·.bytes))).map (fun g =>
    ((runHeader g.length 0 (dBoltId b.desc)).flatMap wordBytes ++ g.flatten, ([] : List (Nat × Nat))))
  let others := s.weft.bolts.any (fun x => x.id != b.id && x.remote == some src && dAngle x.desc == a) ||
    s.exch.held.any (fun x => x.src == src && x.angle == a)
  let s := s.modBolt b.id (fun y => { y with answers := [] })
  if runs.isEmpty then s
  else if !s.canSend src then s.sxLog 5 src 0 0
  else
    let r := s.sendAll src a (final && !others) (asMessages 2 none runs)
    if r.2.isEmpty then r.1 else r.1.sxLog 5 src 0 0

/-- R288: a remote bolt ends: its records go to its source, and a section that waited may start. -/
def State.endRemote (s : State) (b : Bolt) : State :=
  let s := s.sendAnswers b true
  ({ s with weft := { s.weft with bolts := s.weft.bolts.filter (fun x => x.id != b.id) } }).startHeld

/-- R288: may the records of a remote bolt go back: each of its rows so far has ended, and its round is still open? -/
def State.mayAnswer (s : State) (b : Bolt) : Bool :=
  b.remote.isSome && b.roundOpen && !b.answers.isEmpty && s.mayComplete { b with roundOpen := false }

end Sys2Proof.Machine
end

