-- ==== Sys2Proof/Machine/Work.lean ====
section
/-! DEFINITION. Work that waits (R249): for tiles of the Loom range that are on their way to Beam, for the end of a boundary's
actions (R218), for an earlier piece of work of its kind. What each piece does, how they go on, and the commands that begin one or
let one go on: the directory commands and row replacement, BLOCK_ISSUE, DRAIN, ENGINE_WRITE_LAND, GROUPING_WINDOW_CLOSE. -/

namespace Sys2Proof.Machine

/-! ## Stashed operands that cannot be read (R277) -/

/-- R277: a result that has not committed ends TIER_FAILED with a metadata-only record. -/
def State.failResult (s : State) (bolt row proj : Nat) (timeout : Bool) : State :=
  match (s.bolt? bolt).bind (·.result? row proj) with
  | none => s
  | some r =>
    if r.status != 0 || r.committed || r.ended then s else
    let s := (s.modResult bolt row proj (fun x => { x with status := 4 })).answer r.harness bolt row proj [] false false
    s.modBolt bolt (fun b => { b with tierTimeout := b.tierTimeout || timeout, tierError := b.tierError || !timeout })

/-- R277, R349: a PICK_T_ROWS pick that reads a stash tile which cannot be read, or a page whose fetch ended: the rows that lie there
end TIER_FAILED for its projection, the pick goes, and its long sum has lost terms. -/
def State.failStash (s : State) (id : Nat) (pages : List Nat) : State :=
  match s.pick? id with
  | none => s
  | some p =>
    let tiles := fun (x : Nat × Nat) => tilesOf x.2 (2 * p.rank)
    let bad := (p.rows.zip p.stash).filter (fun x => (tiles x).any (fun t => s.tileError t || pages.contains (t / 64)))
    let gone := !pages.isEmpty || bad.any (fun x => (tiles x).any s.tileGone)
    let rows := bad.map (·.1)
    let rev := s.pickRev p
    let s := rows.foldl (fun s r => s.failResult p.bolt r p.proj gone) s
    let s := s.cutRows (fun q => q.bolt == p.bolt && q.adapter == p.adapter && q.proj == p.proj && q.kind != .tRows) rows
    let s := (s.removePick p).afterPick p
    (s.sumLost rev p.adapter p.layer p.proj (p.purpose == .dB)).releaseRows p.bolt

/-! ## Dropped writes (R265) -/

/-- R265: the learning data of an adapter that a dropped write was to hold are incomplete: its update will be skipped. -/
def State.dropLearning (s : State) (w : EngWrite) : State :=
  let meets := fun (lo n : Nat) => decide (lo < w.addr + w.bytes.length) && decide (w.addr < lo + n)
  let area := fun (x : Learner) => x.learns && !x.normDone && (s.rawDir x.adapter).any (fun d => meets x.opt (s.optBytes d))
  let stashes := s.skein.stashes.filter (fun e => e.used || !meets e.addr e.len)
  let learners := modWhere area (fun x => { x with incomplete := true }) s.skein.learners
  { s with skein := { s.skein with stashes := stashes, learners := learners } }

/-- R265: the subsystem that issued a dropped write treats it as a tier error on that tile: a stash entry is not there, gradients are
incomplete, a reshard cannot be completed (log entry 125). -/
def State.takeDrop (s : State) (w : EngWrite) : State :=
  if w.source == 9 && s.exch.reshard.isSome then s.failReshard 4 s.self 0 0
  else if w.source == 5 || w.source == 8 || w.source == 9 then s.dropLearning w
  else s

/-- The writes that were dropped reach the subsystems that issued them. -/
def State.takeDropped (s : State) : State :=
  let ws := s.tiers.dropped
  ws.foldl State.takeDrop { s with tiers := { s.tiers with dropped := [] } }

/-! ## The debugger's accesses to the Loom range (R420, R421) -/

/-- The outcome of a memory access: a status, and the bytes read. -/
structure MemEnd where
  code : Nat
  bytes : Option (List Byte) := none
  deriving DecidableEq, Repr

/-- R421: are the bytes of ENCRYPT regions closed to the debugger? -/
def State.encryptClosed (s : State) : Bool := decide (2 ≤ s.fuses.lifecycle)

/-- Table 17.3, LOOM: as READ64 and WRITE64. -/
def State.memLoom (s : State) (a : Nat) (w : Option (List Byte)) : State × MemEnd :=
  match s.regionOfPage (a / pageBytes) with
  | none => (s.unmapped a, ⟨1, none⟩)
  | some r =>
    if s.encrypted r && s.encryptClosed then (s, ⟨securityDenied, none⟩)
    else
      let late := if s.encrypted r && (s.regionKey r false).isNone then 4 else 3
      match w with
      | none =>
        let x := s.loomRead 13 a 8
        (x.1, match x.2 with | some b => ⟨0, some b⟩ | none => ⟨late, none⟩)
      | some bytes =>
        if !r.wb then (s, ⟨5, none⟩)
        else
          let x := (s.settle a 8).landBytes 13 none a bytes
          (x.1, ⟨if x.2 then 0 else late, none⟩)

/-- A memory access completes: the bytes read, and the status. -/
def State.memDone (s : State) (r : MemEnd) : State :=
  let s := match r.bytes with
    | some b => s.setWord BD_DBG_MEM_DATA.DATA.off (BitVec.ofNat 64 (leNat b))
    | none => s
  s.complete BD_DBG_MEM_CMD.GO BD_DBG_MEM_CMD.BUSY BD_DBG_MEM_CMD.STATUS r.code

/-- R421: an access that has not begun when the level falls below FULL is denied. -/
def State.debugLoom (s : State) (a : Nat) (w : Option (List Byte)) : State :=
  if s.sec.level != 2 then s.memDone ⟨securityDenied, none⟩
  else
    let r := s.memLoom a w
    r.1.memDone r.2

/-! ## Pieces of work -/

/-- Pieces of one kind are done in the order they came. -/
def Work.kind : Work → Nat
  | .directory _ _ => 0
  | .prefetch _ _ | .release _ => 1
  | .reresolve _ _ => 2
  | .drained _ => 3
  | .discard _ _ => 4
  | .lostPages _ => 5
  | .reshard _ => 6
  | .payload k _ _ _ => 7 + k
  | .gradients => 14
  | .stashFailed _ _ => 15
  | .lookup _ _ _ => 16
  | .debugMem _ _ => 17

/-- What a piece of work does. -/
def State.doWork (s : State) : Work → State
  | .directory op a => s.runDesc op a
  | .prefetch k pin => s.prefetchSet k pin
  | .release k => s.releaseSet k
  | .reresolve k a => s.reresolveSet k a
  | .drained a => (s.reachDir a).releaseDrain a
  | .discard a lost => (if lost then s.markLost a else s).discardPending a
  | .lostPages ps => s.markLostPages ps
  | .reshard p => if s.exch.reshard.any (fun r => r.plan == p && !r.started) then (s.startReshard p).takeEarly else s
  | .payload k src _ b => s.usePayload k src b
  | .gradients => s.exchangeGradients
  | .stashFailed id pages => s.failStash id pages
  | .lookup h b w => s.lookupBags h b w
  | .debugMem a w => s.debugLoom a w

/-- May a piece of work be begun: a directory command once IN_BOUNDARY is 0 (R218), a gradient of a revolution that has opened here,
a gather or move once the plan has been read? -/
def State.workReady (s : State) : Work → Bool
  | .directory _ _ | .reresolve _ _ => !s.inBoundary
  | .payload k _ a _ => if k == 5 || k == 6 then s.exch.reshard.any (·.started)
      else !s.revValid || decide (angleRev a ≤ s.revolution)
  | _ => true

/-- One piece of work is tried; it leaves the list where it took effect. -/
def State.tryWork (s : State) (w : Work) : State × Bool :=
  s.attempt (fun s => ({ s with tiers := { s.tiers with work := s.tiers.work.erase w } }).doWork w)

/-- The pieces of a list in order: one whose kind is held by an earlier one waits. A Harness takes its pointers apart from the
others (R236): of lookups, one goes on at a time. -/
def State.runItems : List Work → List Nat → State → State
  | [], _, s => s
  | w :: t, held, s =>
    if !s.tiers.work.contains w then State.runItems t held s
    else if held.contains w.kind || !s.workReady w then State.runItems t (w.kind :: held) s
    else
      let r := s.tryWork w
      State.runItems t (if r.2 && w.kind != 16 then held else w.kind :: held) r.1

/-- Everything that waits goes on as far as it can: work, dropped writes, slots that retire and a replacement (R237, R238), a page
command, exchange rounds that are due (R285), a reshard that is complete (R302); what is under way on a closed fabric fails
(R295). -/
def State.carryOn (s : State) : State :=
  if !s.powered then s else
  let s := State.runItems s.tiers.work [] s.takeDropped
  let s := ((s.retireSlots).runReplacement).resumePageCmd
  let s := (s.launchDue).checkReshard
  if !s.exchangeOpen && s.exchangeBusy then s.closeExchange else s

/-! ## Directory commands and row replacement (R218, R220, R237) -/

/-- A command at the register port, after which what waits goes on, unless one of its unit runs already: then it is ignored. -/
def State.portWork (s : State) (off : Nat) (busy : Fld) (f : State → State) : State :=
  s.after (if s.flag busy then s.atPort off f else (s.atPort off f).carryOn)

/-- R218: WRITE. -/
def execDirWrite (a : BitVec 16) (s : State) : Host.Outcome State Fault Refusal :=
  .next (s.portWork ST_DESC_CMD.GO.off ST_DESC_CMD.BUSY (fun s => s.writeDescCmd (descWord 0 a.toNat)))

/-- R218: READ. -/
def execDirRead (a : BitVec 16) (s : State) : Host.Outcome State Fault Refusal :=
  .next (s.portWork ST_DESC_CMD.GO.off ST_DESC_CMD.BUSY (fun s => s.writeDescCmd (descWord 1 a.toNat)))

/-- R218: INVALIDATE. -/
def execDirInvalidate (a : BitVec 16) (s : State) : Host.Outcome State Fault Refusal :=
  .next (s.portWork ST_DESC_CMD.GO.off ST_DESC_CMD.BUSY (fun s => s.writeDescCmd (descWord 2 a.toNat)))

/-- R218: UPDATE. -/
def execDirUpdate (a : BitVec 16) (s : State) : Host.Outcome State Fault Refusal :=
  .next (s.portWork ST_DESC_CMD.GO.off ST_DESC_CMD.BUSY (fun s => s.writeDescCmd (descWord 3 a.toNat)))

/-- R220: SET_PENDING. -/
def execDirSetPending (a : BitVec 16) (s : State) : Host.Outcome State Fault Refusal :=
  .next (s.portWork ST_DESC_CMD.GO.off ST_DESC_CMD.BUSY (fun s => s.writeDescCmd (descWord 4 a.toNat)))

/-- R237: REPLACE_ROW. -/
def execReplaceRow (k : Fin 64) (p : BitVec 32) (s : State) : Host.Outcome State Fault Refusal :=
  .next (s.portWork ST_REPLACE_CMD.GO.off ST_REPLACE_CMD.BUSY (fun s => s.writeReplaceCmd (replaceWord false k.val p.toNat)))

/-- R237: CLEAR_ROW. -/
def execClearRow (k : Fin 64) (p : BitVec 32) (s : State) : Host.Outcome State Fault Refusal :=
  .next (s.portWork ST_REPLACE_CMD.GO.off ST_REPLACE_CMD.BUSY (fun s => s.writeReplaceCmd (replaceWord true k.val p.toNat)))

/-! ## Blocks, drains, windows, landed writes -/

/-- R97: BLOCK_ISSUE. -/
def execBlockIssue (h : Fin 8) (c : Fin 66) (s : State) : Host.Outcome State Fault Refusal :=
  .next (s.after <| if s.serving then (s.tryIssue (duePicks (s.queuePicks h.val c.val))).carryOn else s)

/-- R99: DRAIN. -/
def execDrain (h : Fin 8) (c : Fin 66) (s : State) : Host.Outcome State Fault Refusal :=
  .next (s.after <| if s.serving then ((s.drainOne h.val c.val).advance h.val c.val).carryOn else s)

/-- R265: ENGINE_WRITE_LAND. -/
def execEngineWriteLand (s : State) : Host.Outcome State Fault Refusal :=
  .next (s.after <| if s.powered then s.landOldest.carryOn else s)

/-- R122: GROUPING_WINDOW_CLOSE. -/
def execGroupingWindowClose (bolt : BitVec 32) (s : State) : Host.Outcome State Fault Refusal :=
  .next (s.after <| if !s.serving then s else
    match s.named bolt.toNat s.windowCloses with
    | none => s
    | some b => (s.closeWindow b).carryOn)

end Sys2Proof.Machine
end

