-- ==== Sys2Proof/Machine/Exchange.lean ====
section
/-! DEFINITION. The Shed Exchange's commands (chapter 11): a round's deadline, the six kinds of message, delivery, lost
messages and peers, the abort of a reshard, and the writes of SX_NODE and SX_EPOCH. -/

namespace Sys2Proof.Machine

/-! ## Lost messages (R291 to R293) -/

/-- R292: a message is lost: counted, recorded and logged. -/
def State.noteLost (s : State) (logKind host adapter seq : Nat) : State :=
  ((s.bump SX_EVENTS.TAG_FAIL).recordFault { cls := 0xE, source := 9, detail := seq % 2 ^ 32 * 2 ^ 32 + host * 64 }).sxLog
    logKind host adapter seq

/-- R298: the exchange of every replicated adapter that learns fails. -/
def State.failAllLearning (s : State) : State :=
  let as := (s.skein.learners.filter (fun x => x.learns && !x.normDone)).map (·.adapter)
  as.foldl (fun s a =>
    let s := s.reachDir a
    if (s.rawDir a).any s.replicatedHere then s.failLearning a else s) s

/-- R303: a GATHER or MOVE message is lost: the reshard ends incomplete; one that is to begin later here will. -/
def State.lostReshard (s : State) (logKind host adapter seq : Nat) : State :=
  if s.exch.reshard.isSome then s.failReshard logKind host adapter seq
  else { s with exch := { s.exch with earlyLost := s.exch.earlyLost.or (some (logKind, host, seq)) } }

/-- R292: what a lost message of host `host` costs this host as its receiver. -/
def State.lostIn (s : State) (h : Header) (logKind : Nat) : State :=
  let host := h.src
  match h.kind with
  | 1 => if h.last then s.closeRounds host (· == h.angle) else s
  | 2 =>
    let rows := (s.exch.rounds.filter (fun r => r.angle == h.angle && r.launched)).flatMap (·.rows)
    s.failRemote (fun x => x.owner == host && x.sent && rows.contains x) false
  | 3 | 4 => s.failAllLearning
  | 5 | 6 => s.lostReshard logKind host 0 h.seq
  | _ => s

/-! ## Receipt (R289 to R291, R295) -/

/-- R290, R291, R295: a message arrives. It is taken only while the fabric is open, under an installed key, by its
destination; a replay or a failed tag drops it. `use` takes its header and its payload. -/
def State.receive (s : State) (kind : Nat) (m : Msg) (use : State → Header → List Byte → State) : State :=
  let h := Header.ofBytes m.header
  if !s.serving || h.kind != kind || !s.flag SX_NODE.VALID || h.dst != s.self then s else
  match s.exchangeOpen, s.exchangeKey h.src with
  | true, some key =>
    let old := mapFind s.exch.kept h.src
    if old.any (fun p => decide (h.epoch < p.1) || (h.epoch == p.1 && decide (h.seq ≤ p.2))) then
      (s.noteLost 6 h.src 0 h.seq).lostIn h 6
    else if m.body.length != h.length || gcmTag key h.nonce m.header m.body != m.tag then
      (s.noteLost 1 h.src 0 h.seq).lostIn h 1
    else
      let k := kib s.exch.inRest (48 + m.body.length)
      let x := { s.exch with kept := mapIns s.exch.kept h.src (h.epoch, h.seq), inRest := k.2 }
      use (({ s with exch := x }).bump SX_BYTES.KIB_IN k.1) h (gcmCrypt key h.nonce m.body)
  | _, _ => s.sxLog 5 h.src 0 h.seq

/-- R286: ROUND_DEADLINE_EXPIRY. -/
def execRoundDeadlineExpiry (s : State) : Host.Outcome State Fault Refusal :=
  .next (s.after <| if s.serving && !s.exch.roundDone then s.launchMain else s)

/-- R287: REQUEST_MESSAGE. The messages of a round go out together and in order (R285, R289): one of another angle shows that the
rounds before it have ended. -/
def execRequestMessage (m : Msg) (s : State) : Host.Outcome State Fault Refusal :=
  .next (s.after <| s.receive 1 m (fun s h b =>
    let s := (requestSections (b.length / 64 + 1) b).foldl (fun s x =>
      s.takeSection ⟨h.src, dAngle x.1, x.1, x.2, false⟩) s
    s.closeRounds h.src (fun a => h.last || a != h.angle)))

/-- R288: one record that comes back from an owner: it counts as though computed here, and leaves on the link that carried
its row. -/
def State.takeRecord (s : State) (src bolt : Nat) (bytes : List Byte) : State :=
  let w := leNat (bytes.take 8)
  let row := bitsOf w 63 44
  let proj := bitsOf w 43 40
  let hit := fun (x : RemoteRow) => x.bolt == bolt && x.row == row && x.proj == proj && x.owner == src && x.sent
  if !s.remoteRows.any hit then s else
  let st := bitsOf w 34 32
  let s := s.dropRemote hit
  let s := s.modResult bolt row proj (fun r => { r with status := st, version := bitsOf w 31 0, replayed := bitOf w 37,
                                                        committed := true })
  let s := if st == 4 then s.modBolt bolt (fun b => { b with tierError := true }) else s
  s.sendRecord (((s.row? bolt row).map (·.link)).getD 0) ⟨bolt, row, proj, bytes⟩

/-- The records of a run, from the front of its bytes: how many, and their bolt. -/
def State.takeEgressRun (s : State) (src : Nat) (b : Bolt) : Nat → List Byte → State × List Byte
  | 0, l => (s, l)
  | n + 1, l =>
    let w := leNat (l.take 8)
    let size := 8 + (if bitOf w 39 then (if dOutFmt b.desc == 1 then 4 else 2) * dDout b.desc (bitsOf w 43 40) else 0)
    if l.length < size then (s, []) else
    State.takeEgressRun (s.takeRecord src b.id (l.take size)) src b n (l.drop size)

/-- The runs of a RESPONSE payload. A run of a bolt that this host does not know ends the reading. -/
def State.takeRuns (s : State) (src : Nat) : Nat → List Byte → State
  | 0, _ => s
  | fuel + 1, l =>
    if l.length < 16 then s else
    let w := leNat (l.take 8)
    match s.bolt? (bitsOf w 31 0) with
    | none => s
    | some b =>
      let r := s.takeEgressRun src b (bitsOf w 48 36) (l.drop 16)
      State.takeRuns r.1 src fuel r.2

/-- R288: RESPONSE_MESSAGE. -/
def execResponseMessage (m : Msg) (s : State) : Host.Outcome State Fault Refusal :=
  .next (s.after <| s.receive 2 m (fun s h b => s.takeRuns h.src (b.length / 16 + 1) b))

/-- R297: GRADIENT_MESSAGE. -/
def execGradientMessage (m : Msg) (s : State) : Host.Outcome State Fault Refusal :=
  .next (s.after <| (s.receive 3 m (fun s h b => s.addWork (.payload 3 h.src h.angle b))).carryOn)

/-- R298: NORM_MESSAGE. -/
def execNormMessage (m : Msg) (s : State) : Host.Outcome State Fault Refusal :=
  .next (s.after <| (s.receive 4 m (fun s h b => s.addWork (.payload 4 h.src h.angle b))).carryOn)

/-- R301: GATHER_MESSAGE. -/
def execGatherMessage (m : Msg) (s : State) : Host.Outcome State Fault Refusal :=
  .next (s.after <| (s.receive 5 m (fun s h b => s.reshardPayload 5 h.src h.angle b)).carryOn)

/-- R302: MOVE_MESSAGE. -/
def execMoveMessage (m : Msg) (s : State) : Host.Outcome State Fault Refusal :=
  .next (s.after <| (s.receive 6 m (fun s h b => s.reshardPayload 6 h.src h.angle b)).carryOn)

/-! ## Delivery (R289, R292, R293, R302) -/

/-- A message is outstanding no more. -/
def State.endSent (s : State) (id : Nat) : State :=
  ({ s with exch := { s.exch with outstanding := s.exch.outstanding.filter (fun m => m.id != id) } }).modReshard
    (fun r => { r with sends := r.sends.filter (· != id) })

/-- R293, R302: the fabric reports delivery; a REQUEST stays outstanding until its answer. -/
def execMessageDelivered (id : Nat) (s : State) : Host.Outcome State Fault Refusal :=
  .next (s.after <| if !s.serving then s else
    match s.exch.outstanding.find? (·.id == id) with
    | none => s
    | some m => if m.kind == 1 then s else (s.endSent id).checkReshard)

/-- R292: what a message that never arrives costs its sender. -/
def State.lostOut (s : State) (m : Sent) : State :=
  match m.kind with
  | 1 => s.failRemote (fun x => x.owner == m.dst && x.sent && m.rows.contains (x.bolt, x.row)) false
  | 3 | 4 => match m.adapter with
    | some a => s.failLearning a
    | none => s
  | 5 | 6 => s.failReshard 2 m.dst (m.adapter.getD 0) (leNat ((m.bytes.drop 8).take 8))
  | _ => s

/-- R292: MESSAGE_UNDELIVERABLE. -/
def execMessageUndeliverable (id : Nat) (s : State) : Host.Outcome State Fault Refusal :=
  .next (s.after <| if !s.serving then s else
    match s.exch.outstanding.find? (·.id == id) with
    | none => s
    | some m => ((s.noteLost 2 m.dst (m.adapter.getD 0) (leNat ((m.bytes.drop 8).take 8))).lostOut m).endSent id)

/-- R293: a peer fails: its ALIVE bit clears, what is outstanding at it fails, and the exchanges it takes part in. -/
def State.failPeer (s : State) (m : Sent) : State :=
  let f := ST_OWNER_MAP.ALIVE (m.dst / 8)
  let alive := s.get f
  let s := s.set f (if bitOf alive (m.dst % 8) then alive - 2 ^ (m.dst % 8) else alive)
  let s := s.recordFault { cls := 0xF, source := 9, action := 9, detail := m.dst * 64 }
  let s := s.sxLog 0 m.dst (m.adapter.getD 0) (leNat ((m.bytes.drop 8).take 8))
  let s := s.failRemote (fun x => x.owner == m.dst && x.sent) true
  let s := if m.dst / 8 == s.mill then s.failAllLearning else s
  let s := (s.failReshard 0 m.dst 0 0).closeRounds m.dst (fun _ => true)
  { s with exch := { s.exch with outstanding := s.exch.outstanding.filter (fun x => x.dst != m.dst) } }

/-- R293: PEER_TIMEOUT; a limit of 0 disables it. -/
def execPeerTimeout (id : Nat) (s : State) : Host.Outcome State Fault Refusal :=
  .next (s.after <| if !s.serving || s.get SX_PEER_TIMEOUT.LIMIT_US == 0 then s else
    match s.exch.outstanding.find? (·.id == id) with
    | none => s
    | some m => s.failPeer m)

/-! ## Registers (R281, R291, R303) -/

/-- R303, R51: a write of SX_RESHARD_CMD: ABORT, of the mailbox's rank. -/
def State.writeReshardCmd (s : State) (v : W64) (rival : Option Rival) : State :=
  if !bitOf v.toNat 63 then s else
  if rival == some .same then (s.set SX_RESHARD_CMD.WINNER 0).set SX_RESHARD_CMD.STATUS 0 else
  match defeatedBy 3 rival with
  | some r => (s.set SX_RESHARD_CMD.STATUS orderRejected).set SX_RESHARD_CMD.WINNER (rivalCode r)
  | none =>
    let s := s.set SX_RESHARD_CMD.WINNER 0
    if s.exch.reshard.isSome then (s.failReshard 4 s.self 0 0).set SX_RESHARD_CMD.STATUS 0
    else s.set SX_RESHARD_CMD.STATUS 1

/-- R303: RESHARD_ABORT. -/
def execReshardAbort (rival : Option Rival) (s : State) : Host.Outcome State Fault Refusal :=
  .next (s.after <| s.atPort SX_RESHARD_CMD.ABORT.off (fun s => s.writeReshardCmd (cmdWord [(SX_RESHARD_CMD.ABORT, 1)]) rival))

/-- R281: a write of SX_NODE; VALID 1 with HOSTS 0, above 8 or not above HOST is ignored and locks nothing. -/
def State.writeSxNode (s : State) (v : W64) : State :=
  let hosts := bitsOf v.toNat 3 0
  if bitOf v.toNat 63 && (hosts == 0 || decide (8 < hosts) || decide (hosts ≤ bitsOf v.toNat 6 4)) then s
  else s.writeFields SX_NODE.VALID.off v

/-- R281: SX_NODE_WRITE. -/
def execSxNodeWrite (v : W64) (s : State) : Host.Outcome State Fault Refusal :=
  .next (s.after <| s.atPort SX_NODE.VALID.off (fun s => s.writeSxNode v))

/-- R291: SX_EPOCH_WRITE. -/
def execSxEpochWrite (v : W64) (s : State) : Host.Outcome State Fault Refusal :=
  .next (s.after <| s.atPort SX_EPOCH.VALID.off (fun s => s.writeFields SX_EPOCH.VALID.off v))

end Sys2Proof.Machine
end

