-- ==== Sys2Proof/Machine/TierEnds.lean ====
section
/-! DEFINITION. How requests of the tiers end (chapter 10): TILE_FILL_COMPLETE, TIER_ERROR_RESPONSE, TIER_TIMEOUT, with what
they do to rows, bags, long sums and learning (R238, R250, R275 to R278). -/

namespace Sys2Proof.Machine

/-- What follows a request of the tiers that has ended: rows of bags that have come are taken, and what waits goes on (R238,
R249). -/
def State.afterFill (s : State) : State := s.captureReads.carryOn

/-- R250: TILE_FILL_COMPLETE: the oldest fill in flight on a unit completes; `hostBytes` are bytes of its backing as the host
holds them, by key of the board or flash store. -/
def execTileFillComplete (u : Fin 9) (hostBytes : List Host.Cell) (s : State) : Host.Outcome State Fault Refusal :=
  .next (s.after <| if s.powered then (s.completeFill u.val hostBytes).afterFill else s)

/-- R276: TIER_ERROR_RESPONSE. -/
def execTierErrorResponse (u : Fin 9) (s : State) : Host.Outcome State Fault Refusal :=
  .next (s.after <| if s.powered then (s.errorResponse u.val).afterFill else s)

/-- R275: the limit of a unit in µs; 0 disables it. -/
def State.unitLimit (s : State) (u : Nat) : Nat :=
  if u < 4 then s.get TM_TIER_TIMEOUT.BEAM_US else if u < 8 then s.get TM_TIER_TIMEOUT.BOARD_US
  else s.get TM_TIER_TIMEOUT.FLASH_US

/-- Every skein tile that a pick reads. -/
def State.pickTiles (s : State) (p : Pick) : List Nat := sortNub ((List.range p.blocks).flatMap (s.blockTiles p))

/-- R277: rows whose picks read a page whose fetch ended by a failure end TIER_FAILED; bags that read one have failed. -/
def State.failReaders (s : State) (pages : List Nat) : State :=
  if pages.isEmpty then s else
  let hit := fun (ts : List Nat) => ts.any (fun t => pages.contains (t / 64))
  let ps := s.heddle.picks.filter (fun p => p.kind != .tRows && hit (s.pickTiles p))
  let gs := s.heddle.harnesses.flatMap (fun h => h.gangs.filter (fun g => g.kind != .tRows && hit g.tiles))
  let keys := ps.map (fun p => (p.bolt, p.adapter, p.proj)) ++ gs.map (fun g => (g.bolt, g.adapter, g.proj))
  let sp := s.heddle.picks.filter (fun p => p.kind == .tRows && hit (p.stash.flatMap (fun a => tilesOf a (2 * p.rank))))
  let s := sp.foldl (fun s p => s.addWork (.stashFailed p.id pages)) s
  let s := (keys.eraseDups).foldl (fun s k => s.tierFail k.1 k.2.1 k.2.2 true) s
  let readHit := fun (r : RowRead) => r.got.isNone && hit (tilesOf r.addr r.len)
  { s with spindles := s.spindles.map (fun v => { v with
      jobs := v.jobs.map (fun j => { j with reads := modWhere readHit (fun r => { r with failed := true, gone := true }) j.reads }) }) }

/-- R256, R349: the spilled partials of long sums in a failed stack are lost. -/
def State.loseSpills (s : State) (stack : Nat) : State :=
  let hit := fun (c : Cell) => c.frame == some stack
  (s.heddle.sums.filter (fun x => x.cells.any hit)).foldl (fun s x =>
    let sums := modWhere (fun y => y.is x.rev x.adapter x.layer x.proj x.isB)
      (fun y => { y with cells := y.cells.filter (fun c => !hit c) }) s.heddle.sums
    ({ s with heddle := { s.heddle with sums := sums } }).sumLost x.rev x.adapter x.layer x.proj x.isB) s

/-- R275, R277, R278: a unit fails, with all that follows. -/
def State.unitFails (s : State) (u : Nat) : State :=
  let r := s.failUnit u
  let s := r.1.failReaders (sortNub (r.2.1.map (· / 64)))
  let s := if u < 4 then s.loseSpills u else s
  (if r.2.2.isEmpty then s else s.addWork (.lostPages r.2.2)).afterFill

/-- R275: TIER_TIMEOUT: a request has been outstanding to a unit for longer than its tier's limit. -/
def execTierTimeout (u : Fin 9) (s : State) : Host.Outcome State Fault Refusal :=
  .next (s.after <| 
    let waits := s.tiers.fills.any (fun f => f.issued && f.unit == u.val) ||
      s.tiers.wbs.any (fun w => w.issued && w.unit == u.val) || !(s.stackWrites u.val).isEmpty
    if s.powered && waits && s.unitLimit u.val != 0 then s.unitFails u.val else s)

end Sys2Proof.Machine
end

