-- ==== Sys2Proof/Machine/Power.lean ====
section
/-! DEFINITION. The Power and Clock Manager (chapter 15): entering reset (R385, R386), throttling (R379, R380, R382),
temperature (R381), the discrete inputs (R383, R384), rails (R371, R433), IDLE and HOLD (R372 to R376). -/

namespace Sys2Proof.Machine

/-! ## Reset, OFF (R378, R385, R386, R433) -/

/-- What no reset touches: the queue, the fuses, what lies outside the engine (flash, Board, namespaces), the counted levels of
the inputs and the rails, the TAP's instruction, the ordinal of free values, and PM_RESET_CAUSE. -/
def State.cleared (s : State) (cause : Nat) : State :=
  { State.reset with
    pending := s.pending
    regs := mapPut 0 [] 0x800040 (BitVec.ofNat 64 cause)
    fuses := s.fuses
    boot := { nor := s.boot.nor }
    tiers := { board := s.tiers.board, flash := s.tiers.flash }
    pm := { resetN := s.pm.resetN, pwrok := s.pm.pwrok, throttle := s.pm.throttle, wake := s.pm.wake,
            sensors := s.pm.sensors, vddMv := s.pm.vddMv, vddsMv := s.pm.vddsMv, lossGate := s.pm.lossGate }
    cust := { aclk := s.cust.aclk }
    dbg := { tapIr := s.dbg.tapIr }
    free := s.free }

/-- R406: the sector that an erase was clearing, or the page that a program was writing, holds open values. -/
def State.tornFlash (s : State) : State :=
  match s.boot.cmd with
  | some c =>
    let run := if c.op == 1 then some (c.addr / 4096 * 4096, 4096) else if c.op == 2 then some (c.addr / 256 * 256, 256) else none
    match run with
    | some (lo, n) =>
      { s with
        free := s.free + 1
        boot := { s.boot with
          nor := mapPutRun 0xFF#8 s.boot.nor lo ((List.range n).map (fun i => Config.freeByte s.free (lo + i))) } }
    | none => s
  | none => s

/-- R386: the engine enters reset; PM_RESET_CAUSE keeps its bits and takes that of the cause: RESET_PIN 0, PWROK_LOSS 1,
CLOCK_LOSS 2. -/
def State.enterReset (s : State) (cause : Nat) : State :=
  let s := s.tornFlash
  s.cleared ((s.word 0x800040).toNat ||| 2 ^ cause)

/-- R433: the engine is OFF: what it held is gone until power-up. -/
def State.enterOff (s : State) : State :=
  let t := s.tornFlash.cleared 0
  { t with pm := { t.pm with st := .off } }

/-- R433: POWER_UP: the rails return, the engine is in reset, POWER_ON is set; both inputs count low until they have been
sampled high (R385). -/
def execPowerUp (s : State) : Host.Outcome State Fault Refusal :=
  .next (s.after <| if s.pm.st != .off then s else
    let t := s.cleared 8
    { t with pm := { t.pm with st := .run, resetN := false, pwrok := false, throttle := false, wake := false, lossGate := 0,
                               vddMv := 750, vddsMv := 750 } })

/-- R433: RAIL_LOSS. -/
def execRailLoss (s : State) : Host.Outcome State Fault Refusal := .next (s.after s.enterOff)

/-- R378: REFCLK_LOSS. -/
def execRefclkLoss (s : State) : Host.Outcome State Fault Refusal :=
  .next (s.after <| if s.pm.st == .off then s else
    let t := s.enterReset 2
    { t with pm := { t.pm with lossGate := 1 } })

/-! ## Issue grant (R379, R380) -/

/-- Is the engine out of reset and OFF? -/
def State.awake (s : State) : Bool := s.pm.st != .off && s.boot.stage != .inReset

/-- Table 15.4: the effective duty D. -/
def State.duty (s : State) : Nat :=
  let src := fun (on : Bool) (d : Nat) => if on then d else 16
  let holding := s.pm.st == .enteringHold || s.pm.st == .hold
  [src s.pm.throttle (s.get PM_THROTTLE_CTRL.PIN_DUTY), src s.pm.thermal (s.get PM_THROTTLE_CTRL.THERMAL_DUTY),
   src s.pm.limit (s.get PM_THROTTLE_CTRL.LIMIT_DUTY), src (s.pm.crit || s.pm.supplyLow || holding) 0].foldl min 16

/-- R379: Harness h is granted in window w when (w + 2·h) mod 16 < D. -/
def State.applyDuty (s : State) : State :=
  let hs := s.heddle.harnesses.mapIdx (fun h x => { x with granted := decide ((s.pm.window + 2 * h) % 16 < s.duty) })
  { s with heddle := { s.heddle with harnesses := hs } }

/-- R379: GRANT_WINDOW. -/
def execGrantWindow (s : State) : Host.Outcome State Fault Refusal :=
  .next (s.after <| if s.awake && s.pm.st != .hold then ({ s with pm := { s.pm with window := s.pm.window + 1 } }).applyDuty else s)

/-- R382: POWER_ESTIMATE. -/
def execPowerEstimate (watts : Nat) (s : State) : Host.Outcome State Fault Refusal :=
  .next (s.after <| if !s.awake then s else
    let lim := s.get PM_POWER_LIMIT.WATTS
    let low := decide (100 * watts < 95 * lim)
    let n := if low && s.pm.limit then s.pm.limitClear + 1 else 0
    let on := lim != 0 && (decide (lim < watts) || (s.pm.limit && decide (n < 10)))
    ({ s with pm := { s.pm with limit := on, limitClear := if on then n else 0 } }).applyDuty)

/-! ## Rails (R371) -/

/-- R389: a fault of the Power and Clock Manager. -/
def State.pmFault (s : State) (cls detail : Nat) : State := s.recordFault { cls := cls, source := 12, detail := detail }

/-- R371: SUPPLY_LOW: `rail` is 0 for VDD_ZQ, 1 for VDD_ZQS; `mv` is the lowest reading. -/
def execSupplyLow (rail : Bool) (mv : BitVec 16) (s : State) : Host.Outcome State Fault Refusal :=
  .next (s.after <| if s.awake && (s.pm.st == .run || s.pm.st == .idle) then
      let pm := if rail then { s.pm with vddsMv := mv.toNat, supplyLow := true }
        else { s.pm with vddMv := mv.toNat, supplyLow := true }
      (({ s with pm := pm }).pmFault 0x27 (mv.toNat * 2 ^ 16 + (if rail then 1 else 0))).applyDuty
    else s)

/-- A reading of a rail that is back in range [lo, hi]: an open value (the k-th from here) where the last one lay outside. -/
def State.inRange (s : State) (k mv lo hi : Nat) : Nat :=
  if lo ≤ mv && mv ≤ hi then mv else lo + (Config.freeWord (s.free + k)).toNat % (hi + 1 - lo)

/-- R371: SUPPLY_RECOVERED. -/
def execSupplyRecovered (s : State) : Host.Outcome State Fault Refusal :=
  .next (s.after <| if s.awake && s.pm.supplyLow then
      let pm := { s.pm with supplyLow := false, vddMv := s.inRange 0 s.pm.vddMv 650 800,
                            vddsMv := s.inRange 1 s.pm.vddsMv 720 780 }
      ({ s with free := s.free + 2, pm := pm }).applyDuty
    else s)

/-! ## Entering HOLD (R336, R374, R381) -/

/-- R336: a protection HOLD ends an unlock, whose challenge is consumed, and a grant, which completes NOT_RUN; erasure that
has begun is finished after exit. -/
def State.stopGrant (s : State) : State :=
  let s := if s.sec.verifying.isSome then { s.unlockDone 5 with sec := { s.sec with verifying := none, challenge := none } } else s
  if s.sec.grant == .none then s else
  let s := (s.set SS_DEBUG_CTRL.GO 0).set SS_DEBUG_CTRL.STATUS 2
  { s with sec := { s.sec with grant := .none, levelWaits := false, unfinished := s.sec.grant == .erasing } }

/-- R374 step 1: HOLD entry begins: every grant is withdrawn and the exchange is forbidden (R295). -/
def State.beginHold (s : State) : State :=
  (({ s with pm := { s.pm with st := .enteringHold } }).applyDuty).closeExchange

/-- PM_POWER_CMD completes. -/
def State.powerDone (s : State) (code winner : Nat) : State :=
  (s.complete PM_POWER_CMD.GO PM_POWER_CMD.BUSY PM_POWER_CMD.STATUS code).set PM_POWER_CMD.WINNER winner

/-- R374: why OP HOLD is refused: NOT_IDLE 1, BOLTS_IN_FLIGHT 2, WAKE_HIGH 3, SECURITY_BUSY 4; 0 where it is not. -/
def State.holdRefusal (s : State) : Nat :=
  if s.phase != 0 then 1
  else if s.boltsInFlight != 0 then 2
  else if s.pm.wake then 3
  else if s.sec.verifying.isSome || s.scrubbing then 4
  else 0

/-- R374: OP HOLD. One that meets HOLD completes at once; one that meets an exit under way begins after it. -/
def State.orderHold (s : State) (rival : Option Rival) : State :=
  match s.holdRefusal with
  | 0 =>
    if rival == some .same then s.powerDone 0 0 else
    match defeatedBy 3 rival with
    | some r => s.powerDone orderRejected (rivalCode r)
    | none =>
      let t := { s.set PM_POWER_CMD.BUSY 1 with pm := { s.pm with holdCmd := true } }
      match s.pm.st with
      | .hold =>
        if s.pm.reconnecting then t
        else { s.powerDone 0 0 with pm := { s.pm with exiting := s.pm.exiting && s.pm.protect } }
      | .enteringHold => t
      | _ => t.beginHold
  | code => s.powerDone code 0

/-- R376: OP RUN. -/
def State.orderRun (s : State) (rival : Option Rival) : State :=
  let t := { s.set PM_POWER_CMD.BUSY 1 with pm := { s.pm with exitCmd := true } }
  if rival == some .same then s.powerDone 0 0 else
  match defeatedBy 3 rival with
  | some r => s.powerDone orderRejected (rivalCode r)
  | none =>
    match s.pm.st with
    | .hold => if s.pm.protect then s.powerDone orderRejected 1 else { t with pm := { t.pm with exiting := true } }
    | .enteringHold => if s.pm.protect then s.powerDone orderRejected 1 else t
    | _ => s.powerDone 0 0

/-- GO of PM_POWER_CMD. -/
def State.takePower (rival : Option Rival) (s : State) : State :=
  match s.get PM_POWER_CMD.OP with
  | 0 => s.orderHold rival
  | 1 => s.orderRun rival
  | _ => s.powerDone 5 0

/-- A write of PM_POWER_CMD. R376: a RUN order that meets ENTERING_HOLD is taken although the HOLD order is BUSY. -/
def State.writePowerCmd (s : State) (v : W64) (rival : Option Rival := none) : State :=
  let busy := s.flag PM_POWER_CMD.BUSY
  let s := s.writeFields PM_POWER_CMD.GO.off v
  if !bitOf v.toNat 63 then s
  else if !busy then s.takePower rival
  else if s.get PM_POWER_CMD.OP == 1 && s.pm.st == .enteringHold && !s.pm.protect && s.pm.holdCmd then s.orderRun rival
  else s

/-- The word that issues a power order. -/
def powerWord (op : Nat) : W64 := cmdWord [(PM_POWER_CMD.GO, 1), (PM_POWER_CMD.OP, op)]

/-- R374: POWER_HOLD. -/
def execPowerHold (rival : Option Rival) (s : State) : Host.Outcome State Fault Refusal :=
  .next (s.after <| s.atPort PM_POWER_CMD.GO.off (fun s => s.writePowerCmd (powerWord 0) rival))

/-- R376: POWER_RUN. -/
def execPowerRun (rival : Option Rival) (s : State) : Host.Outcome State Fault Refusal :=
  .next (s.after <| s.atPort PM_POWER_CMD.GO.off (fun s => s.writePowerCmd (powerWord 1) rival))

/-- R374 step 2, R405: every issued block has drained, every Spindle instance and every Tier Manager request has ended, and no
flash command runs. -/
def State.settled (s : State) : Bool :=
  s.heddle.cores.all (fun k => k.2.blocks.isEmpty) && s.spindles.all (fun v => v.jobs.all (fun j => !j.started)) &&
    s.tiers.fills.all (fun f => !f.issued) && s.tiers.wbs.isEmpty && s.tiers.writes.isEmpty && s.tiers.cmd.isNone &&
    s.boot.cmd.isNone

/-- The levels of ZQ_IRQ_DONE, _TIER, _SEC and _FAULT, from bit 0. -/
def State.irqLevels (s : State) : Nat :=
  maskOf ([s.irqDone, s.irqTier, s.irqSec, s.irqFault].mapIdx (fun i b => if b then [i] else [])).flatten

/-- R374 steps 3 and 4: the engine is in HOLD. -/
def State.reachHold (s : State) : State :=
  let irq := s.irqLevels
  let s := s.bump PM_EVENTS.HOLD_ENTRIES
  let run := s.pm.exitCmd
  let s :=
    if run && s.pm.protect then s.powerDone orderRejected 1
    else if !run && s.pm.holdCmd then s.powerDone 0 0
    else s
  { s with pm := { s.pm with st := .hold, irqHeld := irq, holdCmd := false, exitCmd := run && !s.pm.protect,
                             exiting := run && !s.pm.protect } }

/-- R374: HOLD_REACHED. -/
def execHoldReached (s : State) : Host.Outcome State Fault Refusal :=
  .next (s.after <| if s.pm.st == .enteringHold && s.settled then s.reachHold else s)

/-- R376: HOLD_EXIT_BEGIN: VDD_ZQS reads at least 0.72 V, and VDD_ZQ is reconnected. -/
def execHoldExitBegin (s : State) : Host.Outcome State Fault Refusal :=
  .next (s.after <| if s.pm.st == .hold && s.pm.exiting && !s.pm.reconnecting then
      { s with free := s.free + 1, pm := { s.pm with reconnecting := true, vddsMv := s.inRange 0 s.pm.vddsMv 720 780 } }
    else s)

/-- R376: the engine is in RUN again; an order that waited for it completes, and a HOLD order that came during the exit begins.
R375: a stack that the host reports failed has failed. -/
def State.leaveHold (s : State) (failedStacks : Nat) : State :=
  let again := s.pm.holdCmd
  let s := if s.pm.exitCmd then s.powerDone 0 0 else s
  let pm := { s.pm with st := .run, protect := false, exiting := false, reconnecting := false, exitCmd := false }
  let s := ({ s with pm := pm }).applyDuty
  let s := (setBits 4 failedStacks).foldl State.unitFails s
  if again then s.beginHold else s

/-- R376: HOLD_EXIT_COMPLETE. -/
def execHoldExitComplete (failedStacks : BitVec 4) (s : State) : Host.Outcome State Fault Refusal :=
  .next (s.after <| if s.pm.st == .hold && s.pm.reconnecting then s.leaveHold failedStacks.toNat else s)

/-! ## Temperature (R381) -/

/-- A reading as a signed number of 0.125 °C. -/
def tempOf (x : Nat) : Int := (BitVec.ofNat 16 x).toInt

/-- The sensor of the highest reading used, the lowest number on ties, and the reading. -/
def State.hottest (s : State) : Nat × Nat :=
  (s.pm.sensors.mapIdx (fun i x => (i, x))).foldl (fun b x => if tempOf b.2 < tempOf x.2 then x else b) (0, s.pm.sensors.headD 0)

/-- A threshold of PM_THERMAL, less HYST where `low`, in 0.125 °C. -/
def State.threshold (s : State) (f : Fld) (low : Bool) : Int :=
  8 * ((s.get f : Int) - (if low then (s.get PM_THERMAL.HYST : Int) else 0))

/-- R381: is a reading, in eighths of a degree, out of −40 °C to 150 °C? -/
def outOfRange (x : BitVec 16) : Bool := decide (x.toInt < -320) || decide (1200 < x.toInt)

/-- R381: a sensor is read: out of −40 °C to 150 °C it fails, and a failed sensor reads THROTTLE. -/
def State.readSensor (s : State) (i : Nat) (x : BitVec 16) : State :=
  let failed := s.pm.sensorFailed ||| (1#16 <<< i)
  let s := if outOfRange x then { s with pm := { s.pm with sensorFailed := failed } } else s
  let v := if s.pm.sensorFailed.getLsbD i then s.get PM_THERMAL.THROTTLE * 8 else x.toNat
  { s with pm := { s.pm with sensors := setAt s.pm.sensors i v } }

/-- Table 15.9: a thermal fault. -/
def State.thermalFault (s : State) (cls : Nat) : State := s.pmFault cls (s.hottest.2 % 2 ^ 16 * 2 ^ 16 + s.hottest.1)

/-- R380, R381, R389: the sources follow the highest reading, and a protection HOLD that has cooled leaves. -/
def State.thermal (s : State) : State :=
  let t := tempOf s.hottest.2
  let at_ := fun f => decide (s.threshold f false ≤ t)
  let below := fun f => decide (t < s.threshold f true)
  let s1 := if !s.pm.warned && at_ PM_THERMAL.WARN then s.thermalFault 0x20 else s
  let s2 := if !s.pm.thermal && at_ PM_THERMAL.THROTTLE then s1.thermalFault 0x21 else s1
  let s3 := if !s.pm.crit && at_ PM_THERMAL.CRIT then s2.thermalFault 0x22 else s2
  let next := fun (was : Bool) f => at_ f || (was && !below f)
  let pm := { s3.pm with
    warned := next s.pm.warned PM_THERMAL.WARN, thermal := next s.pm.thermal PM_THERMAL.THROTTLE,
    crit := next s.pm.crit PM_THERMAL.CRIT,
    exiting := s.pm.exiting || (s.pm.protect && s.pm.st == .hold && below PM_THERMAL.THROTTLE) }
  ({ s3 with pm := pm }).applyDuty

/-- R338, R381: the sensors of `l`, with their readings, have failed. -/
def State.sensorFaults (s : State) (l : List (Nat × BitVec 16)) : State :=
  l.foldl (fun s x => s.pmFault 0x24 (x.2.toNat * 2 ^ 16 + x.1)) s

/-- R381: SENSOR_SAMPLE: the readings of sensors 0 to 15; a reading not given is the sensor's last. Its faults are recorded in
ascending code (R339). -/
def execSensorSample (readings : List (BitVec 16)) (s : State) : Host.Outcome State Fault Refusal :=
  .next (s.after <| if !s.awake then s else
    let now := (List.range 16).map (fun i => (i, readings.getD i (BitVec.ofNat 16 (s.pm.sensors.getD i 0))))
    let failing := now.filter (fun x => outOfRange x.2 && !s.pm.sensorFailed.getLsbD x.1)
    ((now.foldl (fun s x => s.readSensor x.1 x.2) s).thermal).sensorFaults failing)

/-- R381: a protection HOLD starts. -/
def State.protectHold (s : State) : State :=
  let s := (s.thermalFault 0x23).stopGrant
  let s := { s with pm := { s.pm with protect := true, exiting := false } }
  if s.pm.st == .hold || s.pm.st == .enteringHold then s else s.beginHold

/-- R381: CRIT_HOLD_EXPIRY; CRIT_HOLD_MS 0 disables it. An exit from HOLD under way ends first. -/
def execCritHoldExpiry (s : State) : Host.Outcome State Fault Refusal :=
  .next (s.after <| if s.awake && s.boot.stage == .up && s.get PM_THERMAL.CRIT_HOLD_MS != 0 && !s.pm.protect && !s.pm.reconnecting &&
      decide (s.threshold PM_THERMAL.CRIT false ≤ tempOf s.hottest.2) then s.protectHold else s)

/-! ## IDLE (R373) -/

/-- R373: does everything hold that lets the engine be in IDLE? -/
def State.quiet (s : State) : Bool :=
  s.flag PM_IDLE_CTRL.ENABLE && !s.pm.wake && s.boltsInFlight == 0 && s.heddle.picks.isEmpty &&
    s.tiers.fills.isEmpty && s.tiers.wbs.isEmpty && s.tiers.writes.isEmpty && s.tiers.cmd.isNone &&
    s.spindles.all (fun v => v.jobs.all (fun j => !j.started)) && s.exch.outstanding.isEmpty &&
    s.exch.rounds.all (fun r => r.rows.isEmpty) &&
    s.dbg.halts.isEmpty && s.heddle.cores.all (fun k => k.2.stepping.isNone) &&
    s.dbg.pendingHalts.isEmpty && s.sec.verifying.isNone && !s.scrubbing

/-- R373: IDLE_ENTRY. -/
def execIdleEntry (s : State) : Host.Outcome State Fault Refusal :=
  .next (s.after <| if s.boot.stage == .up && s.pm.st == .run && s.quiet then
      { s.bump PM_EVENTS.IDLE_ENTRIES with pm := { s.pm with st := .idle } }
    else s)

/-- R373: the engine leaves IDLE as soon as a condition fails. -/
def State.checkIdle (s : State) : State := if s.quiet then s else s.leaveIdle

/-! ## Discrete inputs (R383, R384) -/

/-- R383: chatter counts of input i (RESET_N 0, PWROK 1, THROTTLE 2, WAKE 3); the 64th of a millisecond writes INPUT_CHATTER. -/
def State.chatter (s : State) (i n : Nat) : State :=
  if n == 0 || !s.awake then s else
  let ms := s.cust.aclk / 1700000
  let was := if s.pm.chatterAt.getD i 0 == ms then s.pm.chatterMs.getD i 0 else 0
  let s := s.bump ⟨PM_INPUTS.CHATTER_WAKE.off, 63 - 8 * i, 56 - 8 * i⟩ n
  let s := { s with pm := { s.pm with chatterMs := setAt s.pm.chatterMs i (was + n), chatterAt := setAt s.pm.chatterAt i ms } }
  if was < 64 && 64 ≤ was + n then s.pmFault 0x26 i else s

/-- R384, R385: ZQ_RESET_N: a counted low is a reset; a high lets reset end (RESET_RELEASE). -/
def execZqResetN (l : Level) (s : State) : Host.Outcome State Fault Refusal :=
  .next (s.after <| if s.pm.st == .off then s else
    let s := s.chatter 0 l.chatter
    if l.high == s.pm.resetN then s
    else
      let s := { s with pm := { s.pm with resetN := l.high } }
      if l.high then { s with pm := { s.pm with lossGate := if s.pm.lossGate == 2 then 0 else s.pm.lossGate } }
      else
        let t := s.enterReset 0
        { t with pm := { t.pm with lossGate := if t.pm.lossGate == 1 then 2 else t.pm.lossGate } })

/-- R384: ZQ_PWROK. -/
def execZqPwrok (l : Level) (s : State) : Host.Outcome State Fault Refusal :=
  .next (s.after <| if s.pm.st == .off then s else
    let s := s.chatter 1 l.chatter
    if l.high == s.pm.pwrok then s
    else
      let s := { s with pm := { s.pm with pwrok := l.high } }
      if l.high then s else s.enterReset 1)

/-- R380, R384: ZQ_THROTTLE. -/
def execZqThrottle (l : Level) (s : State) : Host.Outcome State Fault Refusal :=
  .next (s.after <| if s.pm.st == .off then s else
    let s := s.chatter 2 l.chatter
    ({ s with pm := { s.pm with throttle := l.high, stuck := s.pm.stuck && l.high } }).applyDuty)

/-- R384: THROTTLE_STUCK; LIMIT_MS 0 disables it. -/
def execThrottleStuck (s : State) : Host.Outcome State Fault Refusal :=
  .next (s.after <| if s.awake && s.pm.throttle && !s.pm.stuck && s.get PM_THROTTLE_MAX.LIMIT_MS != 0 then
      ({ s with pm := { s.pm with stuck := true } }).pmFault 0x25 2
    else s)

/-- R373, R376, R384: ZQ_WAKE: a counted rise starts the exit from a HOLD that is no protection HOLD, and a high level keeps the
engine out of IDLE. -/
def execZqWake (l : Level) (s : State) : Host.Outcome State Fault Refusal :=
  .next (s.after <| if s.pm.st == .off then s else
    let s := s.chatter 3 l.chatter
    let rise := l.high && !s.pm.wake
    let s := { s with pm := { s.pm with wake := l.high, exiting := s.pm.exiting || (rise && s.pm.st == .hold && !s.pm.protect) } }
    if l.high then s.leaveIdle else s)

end Sys2Proof.Machine
end

