-- ==== Sys2Proof/Machine/Grant.lean ====
section
/-! DEFINITION. The debug level (R329, R424), the end of an unlock (R331), and the grant of FULL (R332, R336). -/

namespace Sys2Proof.Machine

/-! ## The level (R329, R424) -/

/-- R424: every halt is released as by RESUME of the engine, ARM clears, any step ends; a halt order that still waits is
refused. -/
def State.loseFull (s : State) : State :=
  let s := (s.release ⟨0, 0, 0⟩).set BD_DBG_CTRL.ARM 0
  if s.flag BD_DBG_HALT.BUSY then s.complete BD_DBG_HALT.GO BD_DBG_HALT.BUSY BD_DBG_HALT.STATUS securityDenied else s

/-- The level becomes `l`. -/
def State.setLevel (s : State) (l : Nat) : State :=
  let s := if s.sec.level == 2 && l < 2 then s.loseFull else s
  { s with sec := { s.sec with level := l } }

/-- A request of SS_DEBUG_CTRL completes. -/
def State.levelDone (s : State) (code : Nat) : State := (s.set SS_DEBUG_CTRL.GO 0).set SS_DEBUG_CTRL.STATUS code

/-- R332: the grant procedure begins: bolts are denied, the exchange stops (R295), the engine leaves IDLE (R334). -/
def State.startGrant (s : State) : State :=
  let s := (s.leaveIdle).set SS_DEBUG_CTRL.STATUS 3
  ({ s with sec := { s.sec with grant := .draining, unfinished := false } }).closeExchange

/-- GO of SS_DEBUG_CTRL (R329, R334). -/
def State.takeLevel (s : State) : State :=
  let l := s.get SS_DEBUG_CTRL.REQUEST
  let lc := s.fuses.lifecycle
  if l == 3 then s.levelDone 1
  else if l ≤ s.sec.level then (s.setLevel l).levelDone 0
  else if s.pm.st == .hold || s.pm.st == .enteringHold then s.levelDone 2
  else if l == 1 || s.sec.debugged || lc == 0 || lc == 1 || lc == 4 then (s.setLevel l).levelDone 0
  else if s.sec.grant != .none then { s with sec := { s.sec with levelWaits := true } }
  else if lc == 3 then s.levelDone 1
  else ({ s with sec := { s.sec with levelWaits := true } }).startGrant

/-- A write of SS_DEBUG_CTRL; a request that waits for the grant procedure stands. -/
def State.writeDebugCtrl (s : State) (v : W64) : State :=
  if s.sec.levelWaits then s
  else
    let s := s.writeFields SS_DEBUG_CTRL.GO.off v
    if bitOf v.toNat 63 then s.takeLevel else s

/-- R329: DEBUG_LEVEL_REQUEST. -/
def execDebugLevelRequest (level : BitVec 2) (s : State) : Host.Outcome State Fault Refusal :=
  .next (s.after <| s.atPort SS_DEBUG_CTRL.GO.off (fun s =>
    s.writeDebugCtrl (cmdWord [(SS_DEBUG_CTRL.GO, 1), (SS_DEBUG_CTRL.REQUEST, level.toNat)])))

/-- R295, R326: a write of SS_LIFECYCLE_CMD, after which the fabric is closed where the burn to RETIRED closes it. What it burns is
its own. -/
def State.burnCommand (s : State) (v : W64) : State :=
  let t := s.writeLifecycleCmd v
  { (if s.flag SS_LIFECYCLE_CMD.BUSY then t else t.carryOn) with pending := s.pending, fuses := t.fuses }

/-- R325, R326: LIFECYCLE_BURN. -/
def execLifecycleBurn (target : BitVec 3) (s : State) : Host.Outcome State Fault Refusal :=
  .next (s.atPort SS_LIFECYCLE_CMD.GO.off (fun s =>
    s.burnCommand (cmdWord [(SS_LIFECYCLE_CMD.GO, 1), (SS_LIFECYCLE_CMD.TARGET, target.toNat)])))

/-! ## The end of an unlock (R331) -/

/-- R331: a failed unlock: the eighth since reset locks the unit out. -/
def State.unlockFailed (s : State) : State :=
  let n := s.sec.fails + 1
  let s := s.set SS_IRQ_STATUS.UNLOCK_FAIL 1
  let s := { s with sec := { s.sec with fails := min n 8 } }
  if n == 8 then { s.set SS_IRQ_STATUS.LOCKOUT 1 with sec := { s.sec with lockout := true } } else s

/-- The result of a verification of a purpose: FULL_DEBUG 1 or RETIRE 2. -/
def State.verified (s : State) (purpose result : Nat) : State :=
  let s := ({ s with sec := { s.sec with verifying := none } }).unlockDone result
  if result != 0 then s.unlockFailed
  else if purpose == 2 then { s with sec := { s.sec with retireAuth := true } }
  else s.startGrant

/-- R331: UNLOCK_VERIFY_DONE. -/
def execUnlockVerifyDone (s : State) : Host.Outcome State Fault Refusal :=
  .next (s.after <| match s.sec.verifying with
    | some (p, r) => if s.awake then s.verified p r else s
    | none => s)

/-! ## The grant procedure (R332, R336) -/

/-- R332 step 4: a core's stores are clear; whether it is halted, and its service, stand. -/
def Core.scrub (k : Core) : Core :=
  { k with front := 0, frontTile := [], backTile := [], tileSel := 0, banks := [], scales := [], reed := [], queue := [],
           blocks := [] }

/-- R332 step 4: the rows of a bolt leave the replay buffers. -/
def Bolt.scrub (b : Bolt) : Bolt := { b with rows := b.rows.map (fun r => { r with held := false, payload := [] }) }

/-- Work that reads or forms what a grant of FULL clears. -/
def Work.scrubbed : Work → Bool
  | .payload _ _ _ _ | .gradients | .stashFailed _ _ | .lookup _ _ _ => true
  | _ => false

/-- R332 step 4: every Bobbin frame, bank, scale store, reed tile, strand store, combine store, Spindle register, row stage, replay
buffer and descriptor cache entry is clear, and with them what was to be formed from them. The bolts of other hosts end with the
exchange (R295). -/
def State.scrubBlock (s : State) : State :=
  let cores := s.heddle.cores.map (fun k => (k.1, k.2.scrub))
  let hs := s.heddle.harnesses.map (fun x => { x with turns := [], stage := [], reqs := [] })
  let heddle := { s.heddle with cores := cores.filter (fun k => k.2 != ({} : Core)), harnesses := hs, picks := [], sums := [], sprint := none }
  let links := s.weft.links.map (fun l => { l with cursor := none, egress := [], out := [] })
  let spindles := s.spindles.map (fun v => { v with jobs := [], combines := [], mid := none, file := {}, vl := 0, last := none })
  { s with
    heddle := heddle
    spindles := spindles
    weft := { s.weft with links := links, bolts := (s.weft.bolts.filter (·.remote.isNone)).map Bolt.scrub }
    tiers := { s.tiers with work := s.tiers.work.filter (fun w => !w.scrubbed), dropped := [] }
    skein := { s.skein with cache := [], learners := [], stashes := [], updates := [], replacing := none, retiring := [] } }

/-- R332 step 5: the pages after the zero-fill: those of NONE regions are HOME and zero, save a LOST one, which has no frame; every
other is ABSENT. Pins of prefetch sets stand. -/
def State.scrubPage (s : State) (p : Nat) (q : Page) : Page :=
  match s.regionOfPage p with
  | some r =>
    if r.backing == 0 then if q.st == .lost then q else { q with tiles := [], base := .valid, evicting := false, wb := [] }
    else { st := .absent, pins := q.pins, rtPin := q.rtPin, dirPin := q.dirPin }
  | none => {}

/-- R332 step 5: Beam is zero-filled. Engine writes on their way land first, fills and write-backs in flight are discarded, and
no Bobbin frame holds a tile. -/
def State.scrubBeam (s : State) : State :=
  let s := s.tiers.writes.foldl (fun (s : State) w =>
    let s := s.landWrite w
    if w.source == 11 then s.tallyLanded else s) { s with tiers := { s.tiers with writes := [] } }
  let s := s.tiers.fills.foldl (fun (s : State) f => if f.issued then s.endFill f else s) s
  let pages := (s.tiers.pages.map (fun q => (q.1, s.scrubPage q.1 q.2))).filter (fun q => q.2 != ({} : Page))
  let sets := s.tiers.sets.map (fun k => (k.1, { k.2 with tiles := [] }))
  { s with tiers := { s.tiers with
      pages := pages, beam := [], slices := List.replicate 8 [], fills := [], wbs := [], sets := sets, spillFrames := [] } }

/-- R332 steps 3 to 5. -/
def State.grantErase (s : State) : State :=
  let s := if s.sec.erasing.isEmpty then s else s.keyDone 0
  let sec := { s.sec with keys := [], xkeys := [], erasing := [], grant := .erasing }
  (({ s with sec := sec }).scrubBlock).scrubBeam

/-- R332: GRANT_ERASE: no bolt is in flight. -/
def execGrantErase (s : State) : Host.Outcome State Fault Refusal :=
  .next (s.after <| if s.awake && s.pm.st == .run && s.sec.grant == .draining && s.boltsInFlight == 0 then s.grantErase else s)

/-- R332 step 6. -/
def State.grantFull (s : State) : State :=
  let s := (s.set SS_IRQ_STATUS.GRANTED 1).levelDone 0
  { s with sec := { s.sec with grant := .none, debugged := true, level := 2, levelWaits := false } }

/-- R332 step 6, R336: GRANT_COMPLETE: after the zero-fill FULL is granted; what a protection HOLD left unfinished ends with
DEBUGGED alone. -/
def execGrantComplete (s : State) : Host.Outcome State Fault Refusal :=
  .next (s.after <| if !s.awake || s.pm.st != .run then s
    else if s.sec.grant == .erasing then s.grantFull
    else if s.sec.unfinished then { s with sec := { s.sec with unfinished := false, debugged := true } }
    else s)

end Sys2Proof.Machine
end

