-- ==== Sys2Proof/Machine/ImageTable.lean ====
section
/-! DEFINITION. Which fields of which register words have the reset entry IMAGE (R13): the fields that a record of the Warp
image writes (R396). Each entry is the offset of a word of the spec's set-outs, at index 0, and the mask of its IMAGE fields. -/

namespace Sys2Proof.Machine

/-- IMAGE fields, part 0. -/
def imageMasks0 : List (Nat × Nat) :=
  [(0x1008, 0xc0ffff00ffffffff),
   (0x1038, 0x81ffffffffe00000),
   (0x1048, 0x1fff),
   (0x400018, 0x1),
   (0x800010, 0x800000000000ffff),
   (0x800018, 0x1f1f1f),
   (0x800020, 0xffff),
   (0x800028, 0xffffffff000f),
   (0x800030, 0x3ff),
   (0xc00038, 0x3f),
   (0xc00200, 0x8000000000000fff),
   (0x1000000, 0x2),
   (0x1000020, 0xffffff),
   (0x1000068, 0xffff0000010f),
   (0x1400008, 0x80000000ffff00ff),
   (0x1400018, 0x3f000003ff)]

/-- IMAGE fields, part 1. -/
def imageMasks1 : List (Nat × Nat) :=
  [(0x1800008, 0xffff0001),
   (0x1800018, 0x3ff),
   (0x1820000, 0xffffffffffffffff),
   (0x1e00000, 0xff01),
   (0x1e00020, 0x800fffffffe00000),
   (0x1e00028, 0x800fffffffe0ffff),
   (0x1e10000, 0xffffffffffffffff),
   (0x1e10008, 0xffffffffffffffff),
   (0x1e10010, 0xffffffffffffffff),
   (0x1e10018, 0x1),
   (0x1c00008, 0x800fffffffc00000),
   (0x1c00010, 0x800fffffffe0ffff),
   (0x1c00018, 0xffffff0000ffff),
   (0x1c00180, 0x80000000ffffffff),
   (0x1c10000, 0xffffff3f3f001fff),
   (0x1c10008, 0xffff8007ffffffff)]

/-- IMAGE fields, part 2. -/
def imageMasks2 : List (Nat × Nat) :=
  [(0x1c10010, 0xffffffffffffffff),
   (0x1c10018, 0x3fffffff),
   (0x1c10020, 0xfffffffffffff),
   (0x1c10028, 0xfffffffffffff),
   (0x1c10030, 0xfffffffffffff),
   (0x1c10038, 0xfffffffffffff),
   (0x1e80000, 0x8fff0000ffffffff),
   (0x2000008, 0x3ffff0003ffff),
   (0x2000010, 0xfffffffffffffff),
   (0x2000018, 0x7),
   (0x2000020, 0x800fffffffe00000),
   (0x2000030, 0x3f),
   (0x2000080, 0xfffffffffffff),
   (0x2000088, 0xffffffff),
   (0x20000c0, 0xff),
   (0x2000a00, 0x80ffff00ffffffff)]

/-- IMAGE fields, part 3. -/
def imageMasks3 : List (Nat × Nat) :=
  [(0x2000a08, 0xffffffffffffffff),
   (0x2001000, 0xfc0fffffffe00000),
   (0x2001008, 0xffffffff),
   (0x2001010, 0xffffffffffffffff),
   (0x2001018, 0xffffffff),
   (0x2400010, 0xffffffffffff),
   (0x2400018, 0xfffff),
   (0x2400020, 0x800fffffffe00000),
   (0x2800000, 0x1f),
   (0x2c00000, 0x1),
   (0x3000000, 0x1ffff),
   (0x3010000, 0x1),
   (0x3010040, 0xffffffff0000001f),
   (0x3014000, 0xffffffffffffffff)]

/-- All words with IMAGE fields. -/
def imageMasks : List (Nat × Nat) :=
  imageMasks0 ++ imageMasks1 ++ imageMasks2 ++ imageMasks3

/-- R13, R396: the mask of the IMAGE fields of the word at an offset. -/
def imageMask (off : Nat) : Nat :=
  match findReg off with
  | none => 0
  | some r => ((imageMasks.find? (fun x => x.1 == r.base + (if off < 0x3000000 then 0 else 0x3000000))).map (·.2)).getD 0

end Sys2Proof.Machine
end

