-- ==== Sys2Proof/Machine/Boundary.lean ====
section
/-! DEFINITION. The revolution boundary (R21, R24, R25): retirements, joins, commits, held flips, descriptor updates, the
sketch, deferred registers, the version latch, the Spindle test, and the bolts whose angle has passed (R64). -/

namespace Sys2Proof.Machine

/-- Step 1 of R24: retirements that are pending become retirements, and the cores leave the allocator's map (R352, R353). -/
def State.applyRetirements (s : State) : State :=
  let s := { s with cust := { s.cust with harnessRetired := s.cust.harnessRetired ||| s.cust.harnessPending,
                                          harnessPending := 0 } }
  (List.range 8).foldl (fun s h => s.modCores h (fun _ k =>
    if k.service == .retirePending then { k with service := .retired, inMap := false } else k)) s

/-- Step 2 of R24: cores that passed the proof pick join, without a tile (R366), where their Harness is in service. -/
def State.applyJoins (s : State) : State :=
  let joins := s.cust.joins
  joins.foldl (fun s k =>
    let up := s.inService (k / 66)
    s.modCore (k / 66) (k % 66) (fun x =>
      { x with service := if up then .active else .retired, inMap := up, withdrawn := false, skewFailed := false,
               frontTile := [], backTile := [] }))
    { s with cust := { s.cust with joins := [] } }

/-- Step 3 of R24: the COMMIT_VERSION actions received since the previous boundary, in the order received (R223). -/
def State.applyCommits (s : State) (rev : Nat) : State :=
  let cs := s.skein.commits
  cs.foldl (fun s c =>
    if c.all then s.skein.pendList.foldl (fun s a => s.commitOne a c.expected rev) s
    else s.commitOne c.adapter c.expected rev)
    { s with skein := { s.skein with commits := [] } }

/-- R218: the staged fields of UPDATE commands. -/
def State.applyUpdates (s : State) : State :=
  let us := s.skein.updates
  us.foldl (fun s u =>
    let s := s.reachDir u.1
    match s.rawDir u.1 with
    | none => s
    | some d =>
      if !d.valid then s else
      let w := fun i => (u.2.getD i 0).toNat
      let d := ((d.put 0 62 61 (bitsOf (w 0) 62 61)).put 0 60 60 (bitsOf (w 0) 60 60)).put 1 63 32 (bitsOf (w 1) 63 32)
      s.putDir u.1 ((d.put 3 31 23 (bitsOf (w 3) 31 23)).put 3 22 20 (bitsOf (w 3) 22 20)))
    { s with skein := { s.skein with updates := [] } }

/-- Step 4 of R24: HOT_COUNT of the adapters referenced, the sketch cleared, the Bobbin counts halved (R240). -/
def State.resetSketch (s : State) : State :=
  let s := s.skein.referenced.foldl (fun s a =>
    let s := s.reachDir a
    match s.rawDir a with
    | none => s
    | some d => s.putDir a (d.put 1 31 0 (s.sketchEst a))) s
  let sl := s.tiers.slices.map (fun m => m.map (fun f => (f.1, { f.2 with count := f.2.count / 2 })))
  { s with skein := { s.skein with sketch := [], referenced := [] }, tiers := { s.tiers with slices := sl } }

/-- Step 5 of R24: the version latch of the new revolution opens, and rev_harness begins anew (R219, R226); what it held is, of each
adapter that the revolution referenced, its last one (R261). -/
def State.openLatch (s : State) : State :=
  let last := s.skein.revHarness.foldl (fun m p => mapPut [] m p.1 p.2) s.skein.lastHarness
  { s with skein := { s.skein with latches := [], lastHarness := last, revHarness := [] } }

/-- R24, R25: the actions of the boundary that opens revolution `rev`. -/
def State.boundary (s : State) (rev : Nat) : State :=
  let s := (s.applyRetirements.applyJoins).applyCommits rev
  let s := if s.revValid then s.learnBoundary s.revolution else s
  let s := ((s.applyFlips.applyUpdates).resetSketch).applyDeferred
  (s.openLatch).spindleBoundary

/-- R45, R64: the bolts that wait for their angle: those it has reached may run, those it has passed are refused. -/
def State.openBolts (s : State) : State :=
  let ids := (s.weft.bolts.filter (fun b => !b.opened && b.refused.isNone && b.st == .running)).map (·.id)
  ids.foldl (fun s id =>
    match s.bolt? id with
    | none => s
    | some b =>
      let a := dAngle b.desc
      if s.accepted a then s.modBolt id (fun y => { y with opened := true })
      else if !s.expired a then s
      else if b.remote.isSome then s.failRemoteBolt b
      else if b.stopped || b.internal then s
      else s.refuseBolt id 0x71) s

end Sys2Proof.Machine
end

