-- ==== Sys2Proof/Machine/Custody.lean ====
section
/-! DEFINITION. Commands of the Custody Unit (chapter 14): the faults it takes from the units, the service orders of
CU_SERVICE_CMD, proof picks, the fault ring's read pointer, and the drain of the Tally. -/

namespace Sys2Proof.Machine

/-! ## Faults (R338, R344, R356, R368, R434) -/

/-- Table 14.1: a parity error on a store of a core: BANK 0, SCALE 1, REED 2, FEEDER 3, LOAD 4. A reed tile belongs to
the segment of its number halved. -/
def execCoreParityError (h : Fin 8) (c : Fin 66) (store : Fin 5) (unit : BitVec 6) (s : State) :
    Host.Outcome State Fault Refusal :=
  .next (s.after <| if s.serving then
      s.coreFault h.val c.val 6 (store.val * 2 ^ 56 + unit.toNat) (some (if store.val == 2 then unit.toNat / 2 else unit.toNat)) 3
    else s)

/-- R338: a block that has not drained within BLOCK_LIMIT ACLK cycles; a limit of 0 disables the test. -/
def State.blockLate (s : State) (h c : Nat) : State :=
  let seg := (((s.core h c).blocks.head?).bind (fun b => s.pick? b.pick)).bind (fun p => (p.segs.map (·.1)).head?)
  if s.get CU_CTRL.BLOCK_LIMIT == 0 then s
  else if (s.core h c).service == .proving then s.coreFault h c 7 0 none 5
  else match seg with
    | none => s
    | some i => s.coreFault h c 7 i (some i) 5

/-- R338: BLOCK_TIMEOUT. -/
def execBlockTimeout (h : Fin 8) (c : Fin 66) (s : State) : Host.Outcome State Fault Refusal :=
  .next (s.after <| if s.serving then s.blockLate h.val c.val else s)

/-- R434: REPLAY_ECC_ERROR. -/
def execReplayEccError (h : Fin 8) (bolt : BitVec 32) (row : BitVec 21) (staged : Bool) (s : State) :
    Host.Outcome State Fault Refusal :=
  .next (s.after <| match s.named bolt.toNat (fun b => (b.row? row.toNat).isSome) with
    | none => s
    | some b => match b.row? row.toNat with
      | none => s
      | some r =>
        let there := if staged then (s.harness h.val).stage.any (fun e => e.bolt == b.id && e.row == r.index)
          else b.remote.isNone && r.link == h.val && r.held && !r.spoiled
        if s.serving && there then s.replayEcc h.val b r staged else s)

/-- R368: BOBBIN_ECC_ERROR. -/
def execBobbinEccError (h : Fin 8) (tile : Nat) (s : State) : Host.Outcome State Fault Refusal :=
  .next (s.after <| if s.serving then s.bobbinEcc h.val tile else s)

/-- R356: a parity or consistency check fails on control state of LS 1, SD 2, TM 7, ST 8, SX 9 or CU 11: the engine
fails. -/
def execInternalError (subsystem : BitVec 4) (s : State) : Host.Outcome State Fault Refusal :=
  .next (s.after <| if s.serving && [1, 2, 7, 8, 9, 11].contains subsystem.toNat then
      (s.recordFault { cls := 0x30, source := subsystem.toNat, action := 4, detail := 2 ^ subsystem.toNat }).failEngine
    else s)

/-! ## Service orders (R357, R358, R364) -/

/-- A service order completes. -/
def State.serviceDone (s : State) (code winner : Nat) : State :=
  (s.complete CU_SERVICE_CMD.GO CU_SERVICE_CMD.BUSY CU_SERVICE_CMD.STATUS code).set CU_SERVICE_CMD.WINNER winner

/-- R364: why a RETURN_CORE is refused; 0 where it is not. -/
def State.returnRefusal (s : State) (h c : Nat) : Nat :=
  let k := s.core h c
  if k.service != .retired then 2
  else if k.skewFailed || !s.inService h then 3
  else if s.get CU_CTRL.RETURN_LIMIT ≤ k.returns then 4
  else if s.cust.proofs.any (·.1 == h) then 5
  else 0

/-- R364, R365: a proof pick starts. -/
def State.startProof (s : State) (h c : Nat) : State :=
  let s := s.modCore h c (fun k => { k with service := .proving })
  let s := { s with cust := { s.cust with proofs := s.cust.proofs ++ [(h, c)] } }
  (s.set (CU_PROOF_STATUS.CORE h) c).set (CU_PROOF_STATUS.RESULT h) 0

/-- GO of CU_SERVICE_CMD, a master-3 order; `rival` is an order or a fault of the same cycle that names the same core;
an order identical to one that has taken effect is done (R51). -/
def State.takeService (rival : Option Rival) (s : State) : State :=
  let h := s.get CU_SERVICE_CMD.HARNESS
  let c := s.get CU_SERVICE_CMD.CORE
  let op := s.get CU_SERVICE_CMD.OP
  if 2 < op || (op != 1 && 65 < c) then s.serviceDone 1 0
  else if rival == some .same then s.serviceDone 0 0
  else match defeatedBy 3 rival with
    | some r => s.serviceDone orderRejected (rivalCode r)
    | none =>
      match op with
      | 0 => if (s.core h c).service == .active then (s.retirePending h c).serviceDone 0 0 else s.serviceDone 2 0
      | 1 => if s.inService h then (s.fresh.2.retireHarness h s.fresh.1.toNat).serviceDone 0 0 else s.serviceDone 2 0
      | _ =>
        match s.returnRefusal h c with
        | 0 => (s.startProof h c).serviceDone 0 0
        | code => s.serviceDone code 0

/-- A write of CU_SERVICE_CMD. -/
def State.writeServiceCmd (s : State) (v : W64) (rival : Option Rival := none) : State :=
  s.issue v CU_SERVICE_CMD.GO CU_SERVICE_CMD.BUSY (State.takeService rival)

/-- The word that issues a service order. -/
def serviceWord (op h c : Nat) : W64 :=
  cmdWord [(CU_SERVICE_CMD.GO, 1), (CU_SERVICE_CMD.OP, op), (CU_SERVICE_CMD.HARNESS, h), (CU_SERVICE_CMD.CORE, c)]

/-- R352, R358: RETIRE_CORE. -/
def execRetireCore (h : Fin 8) (c : Fin 66) (rival : Option Rival) (s : State) : Host.Outcome State Fault Refusal :=
  .next (s.after <| s.atPort CU_SERVICE_CMD.GO.off (fun s => s.writeServiceCmd (serviceWord 0 h.val c.val) rival))

/-- R353: RETIRE_HARNESS. -/
def execRetireHarness (h : Fin 8) (s : State) : Host.Outcome State Fault Refusal :=
  .next (s.after <| s.atPort CU_SERVICE_CMD.GO.off (fun s => s.writeServiceCmd (serviceWord 1 h.val 0)))

/-- R364: RETURN_CORE. -/
def execReturnCore (h : Fin 8) (c : Fin 66) (rival : Option Rival) (s : State) : Host.Outcome State Fault Refusal :=
  .next (s.after <| s.atPort CU_SERVICE_CMD.GO.off (fun s => s.writeServiceCmd (serviceWord 2 h.val c.val) rival))

/-- R365: stepping B0's signature of the drained values. -/
def proofSignature : BitVec 32 := 0x6C2E91B4

/-- R365: the RESULT of a proof pick: SKEW 4, PARITY 3, SIGNATURE 2, PASS 1. -/
def proofResult (signature : BitVec 32) (markersOk parityOk : Bool) : Nat :=
  if !markersOk then 4 else if !parityOk then 3 else if signature != proofSignature then 2 else 1

/-- R365, R366: PROOF_PICK_END: the core that passed waits for step 2 of the next boundary. -/
def execProofPickEnd (h : Fin 8) (signature : BitVec 32) (markersOk parityOk : Bool) (s : State) :
    Host.Outcome State Fault Refusal :=
  .next (s.after <| match s.cust.proofs.find? (·.1 == h.val) with
    | none => s
    | some p =>
      if !s.powered then s else
      let s := s.set (CU_PROOF_STATUS.SIGNATURE h.val) signature.toNat
      match proofResult signature markersOk parityOk with
      | 1 => { s.set (CU_PROOF_STATUS.RESULT h.val) 1 with
          cust := { s.cust with proofs := s.cust.proofs.filter (· != p), joins := s.cust.joins ++ [coreKey p.1 p.2] } }
      | r => s.proofFailed p.1 p.2 r)

/-! ## The fault ring and the Tally (R342, R343, R361, R362) -/

/-- R343: FAULT_TAIL_WRITE. -/
def execFaultTailWrite (v : W64) (s : State) : Host.Outcome State Fault Refusal :=
  .next (s.after <| s.atPort CU_FAULT_PTR.TAIL.off (fun s => s.writeFields CU_FAULT_PTR.TAIL.off v))

/-- R362: a write of CU_TALLY_RING, ignored while entries remain unread in the ring. -/
def State.writeTallyRing (s : State) (v : W64) : State :=
  if s.get CU_TALLY_PTR.HEAD != s.get CU_TALLY_PTR.TAIL then s else s.writeFields CU_TALLY_RING.VALID.off v

/-- R362: TALLY_RING_WRITE. -/
def execTallyRingWrite (v : W64) (s : State) : Host.Outcome State Fault Refusal :=
  .next (s.after <| s.atPort CU_TALLY_RING.VALID.off (fun s => s.writeTallyRing v))

/-- R361: size of the ring in entries. -/
def State.tallySize (s : State) : Nat :=
  let n := s.get CU_TALLY_RING.LOG2_ENTRIES
  2 ^ (if 5 ≤ n && n ≤ 20 then n else 5)

/-- R361: entries in the ring, those on their way to it included. -/
def State.tallyRingUsed (s : State) : Nat :=
  (s.get CU_TALLY_PTR.HEAD + s.cust.drainLeft + 2 ^ 21 - s.get CU_TALLY_PTR.TAIL) % 2 ^ 21

/-- R361: can a drain write its next entry to the ring? -/
def State.tallyRoom (s : State) : Bool :=
  s.flag CU_TALLY_RING.VALID && !s.cust.tally.isEmpty && decide (s.tallyRingUsed < s.tallySize)

/-- R361: a drain with nothing on its way stops once the buffer is empty, or the ring full or not valid. -/
def State.tallyStop (s : State) : State :=
  if s.tallyRoom || s.cust.drainLeft != 0 then s
  else { s.set CU_TALLY_CTRL.DRAIN 0 with cust := { s.cust with draining := false } }

/-- R361: a drain starts. -/
def State.startTallyDrain (s : State) : State := ({ s with cust := { s.cust with draining := true } }).tallyStop

/-- A write of CU_TALLY_CTRL. -/
def State.writeTallyCtrl (s : State) (v : W64) : State :=
  let s := s.writeFields CU_TALLY_CTRL.DRAIN.off v
  if bitOf v.toNat 63 then s.startTallyDrain else s

/-- R361: TALLY_DRAIN. -/
def execTallyDrain (s : State) : Host.Outcome State Fault Refusal :=
  .next (s.after <| s.atPort CU_TALLY_CTRL.DRAIN.off (fun s => s.writeTallyCtrl
    (cmdWord [(CU_TALLY_CTRL.DRAIN, 1), (CU_TALLY_CTRL.AUTO_MARK, s.get CU_TALLY_CTRL.AUTO_MARK)])))

/-- R361: the next entry of a drain goes out as an engine write, once the one before has been accepted. -/
def State.tallyNext (s : State) : State :=
  if !s.cust.draining || s.tiers.writes.any (·.source == 11) then s
  else if !s.tallyRoom then s.tallyStop
  else match s.cust.tally with
    | [] => s
    | e :: rest =>
      let i := (s.get CU_TALLY_PTR.HEAD + s.cust.drainLeft) % s.tallySize
      let s := { s with cust := { s.cust with tally := rest, drainLeft := s.cust.drainLeft + 1 } }
      s.queueWrite 11 none (s.get CU_TALLY_RING.BASE * 2 ^ 21 + 32 * i) (e.words.flatMap (fun w => toLe 8 w.toNat))

/-- R361: TALLY_ENTRY_WRITE. -/
def execTallyEntryWrite (s : State) : Host.Outcome State Fault Refusal :=
  .next (s.after <| if s.powered then s.tallyNext else s)

end Sys2Proof.Machine
end

