-- ==== Sys2Proof/Machine/Orders.lean ====
section
/-! DEFINITION. The orders of Table 2.7: which are admitted (R32, R48, R55, R66), arbitration (R51 to R53), and what each
does (R223, R262, R286, R300, R361, R382, R431). -/

namespace Sys2Proof.Machine

/-- R48: does a target lie in the range of Table 2.7 for its action? NOP ignores it, and so does COMMIT_VERSION with ALL. The
effective target TARGET + LAYER is tested without wrapping (log entry 103). -/
def targetOk (action target : Nat) (a : W64) : Bool :=
  match action with
  | 0 => true
  | 3 => bitOf a.toNat 63 || decide (target < 65536)
  | 1 | 2 => decide (target < 4096)
  | 4 => decide (target < 64)
  | 6 => decide (target < 256)
  | 8 => decide (target < 16384)
  | 5 | 7 => target == 0
  | _ => false

/-- R48: does an argument leave every reserved bit of its action clear? -/
def argumentOk (action : Nat) (a : W64) : Bool :=
  match action with
  | 0 => true
  | 1 | 6 => decide (a.toNat < 2)
  | 3 => bitsOf a.toNat 62 32 == 0
  | 5 => decide (a.toNat < 2 ^ 32)
  | _ => a == 0

/-- How an order ended: done, refused (R48, R32, R55, R66, R300), or lost to a master (R51). -/
inductive OrderEnd where
  | done | refused | lost (winner : Nat)
  deriving DecidableEq, Repr

/-- R112, R113, R382: Harnesses are held on, and their gated cores ramp; or they gate again when idle. -/
def State.rampHarness (s : State) (mask : Nat) (up : Bool) : State :=
  (setBits 8 mask).foldl (fun s h =>
    let s := s.modHarness h (fun x => { x with heldOn := up })
    if up then
      s.modCores h (fun _ k =>
        if k.power == .gated && (k.service == .active || k.service == .retirePending) then { k with power := .ramping } else k)
    else s) s

/-- A word copied into a snapshot register, and its counters cleared as a read would (R280, R431). -/
def State.snapWord (s : State) (src dst : Nat) : State := (s.setWord dst (s.word src)).setWord src 0

/-- R280, R431: SNAPSHOT_COUNTERS: BC (bit 6), TM (bit 7) and CU (bit 11) have snapshot registers. -/
def State.snapshot (s : State) (mask : Nat) : State :=
  let s := if bitOf mask 6 then (List.range 8).foldl (fun s h =>
      s.snapWord (BC_SLICE_EVENTS.HITS h).off (BC_SLICE_SNAP.EVENTS h).off) s else s
  let s := if bitOf mask 7 then (List.range 16).foldl (fun s i =>
      (s.snapWord (TM_STALL_CORE.CYCLES i).off (TM_STALL_SNAP.CORE i).off).snapWord
        (TM_STALL_BOLT.CYCLES i).off (TM_STALL_SNAP.BOLT i).off) s else s
  if bitOf mask 11 then
    (s.snapWord CU_FAULT_EVENTS.RECORDS.off (CU_FAULT_SNAP.EVENTS 0).off).snapWord
      CU_LOSS_EVENTS.LOST_RESULTS.off (CU_FAULT_SNAP.EVENTS 1).off
  else s

/-- R300: BEGIN_RESHARD in the RESHARD phase: refused while a reshard is active or no plans are given. -/
def State.beginReshard (s : State) (plan : Nat) : State × OrderEnd :=
  if s.exch.reshard.isSome || !s.flag SX_PLAN_BASE.VALID then (s.bump SX_EVENTS.BEGIN_REFUSED, .refused)
  else (s.beginPlan plan, .done)

/-- R223: a COMMIT_VERSION joins those received since the boundary began. -/
def State.commitVersion (s : State) (target : Nat) (a : W64) : State :=
  let c : Commit := ⟨bitOf a.toNat 63, target, bitsOf a.toNat 31 0⟩
  { s with skein := { s.skein with commits := s.skein.commits ++ [c] } }

/-- What an admitted order does (Table 2.7). A prefetch set and a reshard plan are read from the Loom range: they are work, in the
order of the orders (R249). -/
def State.obey (s : State) (action target : Nat) (a : W64) : State × OrderEnd :=
  match action with
  | 1 => (s.addWork (.prefetch target (bitOf a.toNat 0)), .done)
  | 2 => (s.addWork (.release target), .done)
  | 3 => (s.commitVersion target a, .done)
  | 4 => s.beginReshard target
  | 5 => ({ s with exch := { s.exch with deadlineNs := bitsOf a.toNat 31 0 } }, .done)
  | 6 => (s.rampHarness target (bitOf a.toNat 0), .done)
  | 7 => (s.startTallyDrain, .done)
  | 8 => (s.snapshot target, .done)
  | _ => (s, .done)

/-- Do the orders of this action contradict others at all (Table 2.9)? -/
def contradicts (action : Nat) : Bool := action == 1 || action == 2 || action == 3 || action == 4 || action == 6

/-- An order is dispatched: out of range, forbidden by R32, or (`strict`: R55 and R66, against the general words of R9; log
entry 104) with a reserved argument bit set it is refused; one that is identical to an order of the cycle that has taken effect is
done (R51); one that loses arbitration takes no effect, except a RAMP_HARNESS on the Harnesses that the winner does not name. -/
def State.dispatch (s : State) (rank action target : Nat) (a : W64) (strict : Bool) (rival : Option Rival)
    (rivalMask : Nat) : State × OrderEnd :=
  if !targetOk action target a || (strict && !argumentOk action a) || (action == 4 && s.phase != 3) then (s, .refused)
  else if rival == some .same then (s, .done) else
  match if contradicts action then defeatedBy rank rival else none with
  | none => s.obey action target a
  | some r =>
    if action == 6 && target &&& rivalMask == 0 then s.obey action target a
    else if action == 6 then
      ((s.obey action (target &&& (255 - rivalMask % 256)) a).1, .lost (rivalCode r))
    else (s, .lost (rivalCode r))

/-- The master code that a rejection names: the winner's, or 0 for a refusal (R55, R66). -/
def OrderEnd.winner : OrderEnd → Nat
  | .lost w => w
  | _ => 0

/-- R66: the order of a descriptor is dispatched, of rank 5: PREFETCH_SET, RELEASE_SET and RAMP_HARNESS are admitted. -/
def State.embeddedOrder (s : State) (id : Nat) (d : List W64) (rival : Option Rival) (rivalMask : Nat) : State :=
  let act := dOrderAction d
  let s := s.modBolt id (fun b => { b with orderDone := true })
  if act == 0 then s else
  let r := if act == 1 || act == 2 || act == 6 then
      s.dispatch 5 act (dOrderTarget d) (dOrderArgument d) true rival rivalMask
    else (s, .refused)
  if r.2 == .done then r.1 else r.1.modBolt id (fun b => { b with orderLost := true, winner := r.2.winner })

/-- R66, R78: the order of a bolt is dispatched once its part with FIRST_ROW 0 has been accepted and its angle too: a bolt that ends
ANGLE_EXPIRED dispatches none (log entry 107). -/
def State.dispatchEmbedded (s : State) (id : Nat) (rival : Option Rival) (rivalMask : Nat) : State :=
  match s.bolt? id with
  | none => s
  | some b =>
    if b.begun && b.opened && !b.orderDone && b.refused.isNone && !b.stopped && b.st == .running && !b.internal then
      s.embeddedOrder id b.desc rival rivalMask
    else s

/-- R66: the orders of the bolts whose angle the sequencer has accepted by now, in the order of their acceptance. -/
def State.openedOrders (s : State) : State :=
  let bs := s.weft.bolts.filter (fun b => b.begun && b.opened && !b.orderDone)
  (sortBy (fun (a b : Bolt) => decide (a.order < b.order)) bs).foldl (fun s b => s.dispatchEmbedded b.id none 0) s

end Sys2Proof.Machine
end

