-- ==== Sys2Proof/Machine/Loom.lean ====
section
/-! DEFINITION. The Loom Sequencer's commands (chapter 2): angle words and their classification, the boundary, the angle
watchdog, cards, and the orders of Table 2.7 as cards and the mailbox dispatch them. -/

namespace Sys2Proof.Machine

/-! ## Angle words (R33 to R38) -/

/-- Table 2.3: does a phase admit a pass? -/
def admits (phase pass : Nat) : Bool := phase == 0 || phase == 2 || (phase == 1 && pass == 0) || (phase == 3 && pass == 3)

/-- Table 2.4. -/
inductive WordClass where
  | illegal | opening | backward | again | advance
  deriving DecidableEq, Repr

/-- Table 2.4: the class of a word. -/
def State.classOf (s : State) (w : W64) : WordClass :=
  if !admits (anglePhase w) (anglePass w) then .illegal
  else if !s.revValid then .opening
  else if s.revolution < angleRev w then .opening
  else if angleRev w < s.revolution then .backward
  else if anglePhase w != s.phase then .illegal
  else if s.phase == 0 then .again
  else if angleOrdinal s.angle < angleOrdinal w then .advance
  else if angleOrdinal w == angleOrdinal s.angle then .again
  else .backward

/-- R34, R35: ANGLE_WORD. -/
def execAngleWord (w : W64) (s : State) : Host.Outcome State Fault Refusal :=
  .next (s.after <| if s.pm.st == .off || s.boot.stage == .inReset || s.pm.st == .hold then s
    else if !s.engineReady then s.bump LS_ANGLE_EVENTS.EARLY
    else if 4 ≤ s.loom.queue.length then
      ((s.bump LS_ANGLE_EVENTS.OVERRUN).set LS_STATUS.ANGLE_OVERRUN 1).recordFault { cls := 1, source := 1, detail := w.toNat }
    else { s with loom := { s.loom with queue := s.loom.queue ++ [w] } })

/-! ## Cards (R46, R47, R50) -/

/-- The shadow bank and the live bank. -/
def shadowBank : Nat := 0x1100000
/-- The live bank. -/
def liveBank : Nat := 0x1120000

/-- The cards of a bank that hold anything, with their indices, in ascending index. -/
def State.cards (s : State) (bank : Nat) : List (Nat × Nat) :=
  (((mapRange s.regs bank 0x20000).map (fun p => (p.1 - bank) / 16)).eraseDups).map (fun i =>
    (i, (s.word (bank + 16 * i + 8)).toNat * 2 ^ 64 + (s.word (bank + 16 * i)).toNat))

/-- Table 2.6: VALID. -/
def cardValid (c : Nat) : Bool := bitOf c 127
/-- Table 2.6: WILD. -/
def cardWild (c : Nat) : Nat := bitsOf c 124 120
/-- Table 2.6: ACTION. -/
def cardAction (c : Nat) : Nat := bitsOf c 87 80

/-- R47: the layer with which a card fires on a word, and whether it fires late; none where it does not fire. -/
def cardFires (w : W64) (fired : Bool) (c : Nat) : Option (Nat × Bool) :=
  let phase := bitsOf c 119 118
  let pass := bitsOf c 117 116
  let layer := bitsOf c 115 106
  let proj := bitsOf c 105 102
  let step := bitsOf c 101 96
  let wild := cardWild c
  if !cardValid c then none
  else if anglePhase w == 0 then (if wild == 0 && phase == 0 then some (layer, false) else none)
  else if phase == 0 && !bitOf wild 4 then none
  else
    let key := layerKey (anglePass w) (angleLayer w) + bitsOf c 95 88
    if wild == 0 then
      let mine := layerKey pass layer * 2 ^ 10 + proj * 2 ^ 6 + step
      let at_ := key * 2 ^ 10 + angleProj w * 2 ^ 6 + angleStep w
      if !fired && anglePhase w == phase && anglePass w == pass && decide (mine ≤ at_) then some (layer, decide (mine < at_))
      else none
    else if 1023 < key then none
    else
      let here := layerKey (anglePass w) key
      if (bitOf wild 4 || anglePhase w == phase) && (bitOf wild 3 || anglePass w == pass) && (bitOf wild 2 || here == layer) &&
          (bitOf wild 1 || angleProj w == proj) && (bitOf wild 0 || angleStep w == step) then some (here, false)
      else none

/-- A fired action that cannot be dispatched, or that lost: counted and logged (R48, R51). -/
def State.dropAction (s : State) (x : Waiting) (winner : Nat) : State :=
  ((((s.bump LS_CARD_EVENTS.DROPPED).set LS_CARD_REJECT.WINNER winner).set LS_CARD_REJECT.INDEX x.index).set
    LS_CARD_REJECT.ACTION x.action).set LS_CARD_REJECT.TARGET x.target

/-- R47: one card meets an accepted word: its action waits for dispatch; one of a reserved code is dropped. TARGET + LAYER is
kept whole for the test of R48, and LS_CARD_REJECT.TARGET takes its low 16 bits (log entry 103). -/
def State.matchCard (w : W64) (s : State) (i c : Nat) : State :=
  match cardFires w (s.loom.fired.contains i) c with
  | none => s
  | some (layer, late) =>
    let x : Waiting := { index := i, action := cardAction c, argument := BitVec.ofNat 64 c,
                         target := bitsOf c 79 64 + (if bitOf c 126 then layer else 0) }
    let s := if late then s.bump LS_CARD_EVENTS.LATE else s
    let s := if cardWild c == 0 && anglePhase w != 0 then { s with loom := { s.loom with fired := insertSorted i s.loom.fired } }
      else s
    if 8 < x.action then (s.bump LS_CARD_EVENTS.FIRED).dropAction x 0
    else { s with loom := { s.loom with actions := s.loom.actions ++ [x] } }

/-- R47: the live bank is matched against an accepted word, unless CARDS_ENABLE is 0. -/
def State.matchCards (s : State) (w : W64) : State :=
  if !s.flag LS_CTRL.CARDS_ENABLE then s else
  (s.cards liveBank).foldl (fun s c => State.matchCard w s c.1 c.2) s

/-- R50: a validated shadow bank becomes the live bank, and the former live bank the shadow bank. -/
def State.swapBanks (s : State) : State :=
  if !s.loom.commitValid then s else
  let live := mapRange s.regs liveBank 0x20000
  let shadow := mapRange s.regs shadowBank 0x20000
  let regs := mapDelRange s.regs shadowBank 0x40000
  let regs := live.foldl (fun m p => mapIns m (p.1 - 0x20000) p.2) regs
  let regs := shadow.foldl (fun m p => mapIns m (p.1 + 0x20000) p.2) regs
  let s := { s with regs := regs, loom := { s.loom with commitValid := false } }
  (s.set LS_CARD_COMMIT.COMMIT 0).set LS_STATUS.CARD_COMMIT_PENDING 0

/-! ## Classification and acceptance (R36 to R42, R23, R24) -/

/-- R40: the accepted word is the current one. -/
def State.setAngle (s : State) (w : W64) : State :=
  let s := s.setWord LS_ANGLE_CURRENT.ANGLE.off w
  (((s.set LS_STATUS.PHASE (anglePhase w)).set LS_STATUS.PASS (anglePass w)).set LS_STATUS.REVOLUTION_VALID 1).set
    LS_STATUS.ANGLE_STALL 0

/-- R199, R207: what an accepted word of the LEARN phase closes and starts. -/
def State.learnWord (s : State) (w : W64) : State :=
  if s.phase != 2 then s else
  let lag := s.getF ST_LEARN_CTRL.CLOSE_LAG
  let from_ := match anglePass w with
    | 0 => 1024
    | 1 => if lag < 255 then angleLayer w + lag + 1 else 1024
    | _ => 0
  let s := { s with skein := { s.skein with closedFrom := min s.skein.closedFrom from_ } }
  let s := s.gradientsDue
  if anglePass w == 2 then s.startUpdates (angleLayer w) (angleProj w) else s

/-- R40, R285: an accepted advance or opening word reaches every subsystem. -/
def State.broadcast (s : State) (w : W64) : State :=
  let s := ((s.setAngle w).openBolts).openedOrders
  let s := { s with exch := { s.exch with roundDone := false, deadlineNs := 0 } }
  let s := s.learnWord w
  (s.breakAngle w).matchCards w

/-- R23, R24, R29, R50: an opening word starts a boundary; its phase then applies to it. -/
def State.openRevolution (s : State) (w : W64) : State :=
  let s := s.set LS_STATUS.IN_BOUNDARY 1
  let s := s.boundary (angleRev w)
  let s := { s with loom := { s.loom with fired := [] } }
  let s := if anglePhase w == 2 then
      let t := s.learnOpen
      { t with skein := { t.skein with learnRev := angleRev w } }
    else s
  let s := if anglePhase w == 3 then s else { s with exch := { s.exch with early := [], earlyLost := none } }
  s.swapBanks.broadcast w

/-- R37: a rejected word changes nothing else. -/
def State.rejectWord (s : State) (w : W64) (c : Fld) : State :=
  ((s.setWord LS_ANGLE_REJECTED.ANGLE.off w).bump c).set LS_STATUS.ANGLE_REJECT 1

/-- R36 to R41: what a word of a class does. -/
def State.takeWord (s : State) (w : W64) : WordClass → State
  | .illegal => s.rejectWord w LS_ANGLE_EVENTS.ILLEGAL
  | .backward => s.rejectWord w LS_ANGLE_EVENTS.BACKWARD
  | .again => s.bump LS_ANGLE_EVENTS.REPEAT
  | .advance => s.launchMain.broadcast w
  | .opening => s.launchMain.openRevolution w

/-- R36 to R41: a word leaves the queue and takes effect. -/
def State.classifyWord (s : State) (w : W64) (rest : List W64) : State :=
  ({ s with loom := { s.loom with queue := rest } }).takeWord w (s.classOf w)

/-- R36 to R41: the word at the head of the queue is classified once the sequencer is free: every action of the word
before it has been dispatched. An opening word that finds IN_BOUNDARY still 1 begins its own boundary after the one before, whose
actions are already made, and IN_BOUNDARY stays 1 (log entry 35). None is classified during an engine halt with FREEZE_ANGLE (R413).
A word whose acceptance reads tiles that are not in Beam waits for them (R249; log entry 122). -/
def execAngleClassify (s : State) : Host.Outcome State Fault Refusal :=
  .next (s.after <| if !s.serving || !s.loom.actions.isEmpty || (s.flag BD_DBG_CTRL.FREEZE_ANGLE && s.engineHalted) then s else
    match s.loom.queue with
    | [] => s
    | w :: rest => (s.attempt (fun s => s.classifyWord w rest)).1.carryOn)

/-- R25, R218, R264: BOUNDARY_COMPLETE. -/
def execBoundaryComplete (s : State) : Host.Outcome State Fault Refusal :=
  .next (s.after <| if !s.inBoundary || !s.powered then s else
    (s.set LS_STATUS.IN_BOUNDARY 0).carryOn)

/-- R43, R44: ANGLE_WATCHDOG_EXPIRY. -/
def execAngleWatchdogExpiry (s : State) : Host.Outcome State Fault Refusal :=
  .next (s.after <| if s.serving && s.revValid && s.phase != 0 && s.get LS_ANGLE_WATCHDOG.LIMIT_US != 0 && !s.engineHalted &&
      !s.flag LS_STATUS.ANGLE_STALL then
      (s.set LS_STATUS.ANGLE_STALL 1).recordFault { cls := 2, source := 1, detail := s.angle.toNat }
    else s)

/-! ## REBASE and card commits (R39, R49) -/

/-- A write of LS_CTRL: REBASE acts in the IDLE phase. -/
def State.writeLsCtrl (s : State) (v : W64) : State :=
  let s := (s.writeFields LS_CTRL.REBASE.off v).set LS_CTRL.REBASE 0
  if bitOf v.toNat 0 && s.phase == 0 then s.set LS_STATUS.REVOLUTION_VALID 0 else s

/-- R39: REBASE. -/
def execRebase (s : State) : Host.Outcome State Fault Refusal :=
  .next (s.after <| s.atPort LS_CTRL.REBASE.off (fun s =>
    s.writeLsCtrl (cmdWord [(LS_CTRL.REBASE, 1), (LS_CTRL.CARDS_ENABLE, s.get LS_CTRL.CARDS_ENABLE)])))

/-- R49: why a shadow card fails validation; 0 where it does not. A card that fails several tests is given the lowest code
(log entry 105). -/
def cardReason (c : Nat) : Nat :=
  let act := cardAction c
  let idle := bitsOf c 119 118 == 0
  if !cardValid c then 0
  else if bitOf c 125 || (decide (act ≤ 8) && !argumentOk act (BitVec.ofNat 64 c)) then 1
  else if 8 < act then 2
  else if !bitOf c 126 && !targetOk act (bitsOf c 79 64) (BitVec.ofNat 64 c) then 3
  else if cardWild c == 0 && idle && bitsOf c 95 88 != 0 then 4
  else if cardWild c != 0 && idle && !bitOf (cardWild c) 4 then 5
  else 0

/-- R49, R50: a write of LS_CARD_COMMIT. -/
def State.writeCardCommit (s : State) (v : W64) : State :=
  if !bitOf v.toNat 0 || s.loom.commitValid then s else
  match (s.cards shadowBank).find? (fun c => cardReason c.2 != 0) with
  | some c => (((s.set LS_CARD_COMMIT.COMMIT 0).set LS_CARD_STATUS.FIRST_BAD_INDEX c.1).set LS_CARD_STATUS.REASON
      (cardReason c.2)).set LS_CARD_STATUS.COMMIT_FAILED 1
  | none => ({ s with loom := { s.loom with commitValid := true } }.set LS_CARD_COMMIT.COMMIT 1).set
      LS_STATUS.CARD_COMMIT_PENDING 1

/-- R49: CARD_COMMIT. -/
def execCardCommit (s : State) : Host.Outcome State Fault Refusal :=
  .next (s.after <| s.atPort LS_CARD_COMMIT.COMMIT.off (fun s => s.writeCardCommit 1))

/-! ## The mailbox (R55) -/

/-- The mailbox order ends. -/
def State.mboxDone (s : State) (e : OrderEnd) : State :=
  let s := { s with loom := { s.loom with mbox := none } }
  ((s.set LS_MBOX_STATUS.BUSY 0).set LS_MBOX_STATUS.STATUS (if e == .done then 0 else orderRejected)).set
    LS_MBOX_STATUS.WINNER e.winner

/-- R55: a write of LS_MBOX_ORDER: one order at a time; one of a reserved action is refused at once. -/
def State.writeMboxOrder (s : State) (v : W64) : State :=
  if s.loom.mbox.isSome then
    -- R55: GO written while BUSY is 1 is ignored
    s.setWord LS_MBOX_ORDER.GO.off (putBits (putBits (s.word LS_MBOX_ORDER.GO.off) 23 16 (bitsOf v.toNat 23 16)) 15 0
      (bitsOf v.toNat 15 0))
  else
    let s := s.writeFields LS_MBOX_ORDER.GO.off v
    if !bitOf v.toNat 63 || s.cust.engineFailed then s
    else
      let x : Waiting := { action := bitsOf v.toNat 23 16, target := bitsOf v.toNat 15 0,
                           argument := s.word LS_MBOX_ARG.ARGUMENT.off }
      if 8 < x.action then (s.set LS_MBOX_ORDER.GO 0).mboxDone .refused
      else { s with loom := { s.loom with mbox := some x } }.set LS_MBOX_STATUS.BUSY 1

/-! ## Orders (Table 2.7) -/

/-- An order row: the oldest fired action, or the mailbox order, is dispatched, where its action is the row's. -/
def State.order (s : State) (action : Nat) (o : Order) (rivalMask : Nat) : State :=
  if !s.serving then s else
  match o.via with
  | .card =>
    match s.loom.actions with
    | [] => s
    | x :: rest =>
      if x.action != action then s else
      let s := { s with loom := { s.loom with actions := rest } }.bump LS_CARD_EVENTS.FIRED
      let r := s.dispatch 4 action x.target x.argument false o.rival rivalMask
      if r.2 == .done then r.1 else r.1.dropAction x r.2.winner
  | .mailbox =>
    match s.loom.mbox with
    | none => s
    | some x =>
      if x.action != action then s else
      let s := s.set LS_MBOX_ORDER.GO 0
      let r := s.dispatch 3 action x.target x.argument true o.rival rivalMask
      r.1.mboxDone r.2

/-- R48: NOP. -/
def execNop (o : Order) (s : State) : Host.Outcome State Fault Refusal := .next (s.after <| s.order 0 o 0)
/-- R262: PREFETCH_SET. -/
def execPrefetchSet (o : Order) (s : State) : Host.Outcome State Fault Refusal := .next (s.after <| (s.order 1 o 0).carryOn)
/-- R262: RELEASE_SET. -/
def execReleaseSet (o : Order) (s : State) : Host.Outcome State Fault Refusal := .next (s.after <| (s.order 2 o 0).carryOn)
/-- R223: COMMIT_VERSION. -/
def execCommitVersion (o : Order) (s : State) : Host.Outcome State Fault Refusal := .next (s.after <| s.order 3 o 0)
/-- R300: BEGIN_RESHARD. -/
def execBeginReshard (o : Order) (s : State) : Host.Outcome State Fault Refusal := .next (s.after <| (s.order 4 o 0).carryOn)
/-- R286: SET_EXCHANGE_DEADLINE. -/
def execSetExchangeDeadline (o : Order) (s : State) : Host.Outcome State Fault Refusal := .next (s.after <| s.order 5 o 0)
/-- R382: RAMP_HARNESS. -/
def execRampHarness (o : Order) (rivalMask : BitVec 8) (s : State) : Host.Outcome State Fault Refusal :=
  .next (s.after <| s.order 6 o rivalMask.toNat)
/-- R361: DRAIN_TALLY. -/
def execDrainTally (o : Order) (s : State) : Host.Outcome State Fault Refusal := .next (s.after <| s.order 7 o 0)
/-- R280, R431: SNAPSHOT_COUNTERS. -/
def execSnapshotCounters (o : Order) (s : State) : Host.Outcome State Fault Refusal := .next (s.after <| s.order 8 o 0)

end Sys2Proof.Machine
end

