-- ==== Sys2Proof/Machine/Image.lean ====
section
/-! DEFINITION. The Warp image (chapter 16): its layout (R392, R393), CRC-32C (R394), what a section may write (R395), the
records (R396, R397) and cards (R398), the signature (R399), the checks of Table 16.4. -/

namespace Sys2Proof.Machine

/-! ## Checksums (R132, R394) -/

/-- A shift of a CRC register with the low bit leaving first. -/
def crcShiftR (poly : Nat) : Nat → Nat → Nat
  | 0, x => x
  | n + 1, x => crcShiftR poly n (if x % 2 == 1 then (x / 2) ^^^ poly else x / 2)

/-- R394: CRC-32C: the polynomial 0x1EDC6F41 reflected is 0x82F63B78. -/
def crc32c (l : List Byte) : Nat :=
  (l.foldl (fun c b => crcShiftR 0x82F63B78 8 (c ^^^ b.toNat)) 0xFFFFFFFF) ^^^ 0xFFFFFFFF

/-- A shift of an 8-bit CRC register with the high bit leaving first. -/
def crcShiftL (poly : Nat) : Nat → Nat → Nat
  | 0, x => x
  | n + 1, x => crcShiftL poly n (if 128 ≤ x then (x * 2 % 256) ^^^ poly else x * 2)

/-- Table 5.6: CHECK of byte 0 of a fuse record. -/
def fuseCheck (b : Nat) : Nat := crcShiftL 0x07 8 (b % 256)

/-! ## Layout (R392, R393) -/

/-- Bytes of the configuration flash; an unlisted byte is erased. -/
def State.norBytes (s : State) (lo n : Nat) : List Byte := mapRun 0xFF#8 s.boot.nor lo n

/-- A little-endian word of `n` bytes of the flash. -/
def State.norWord (s : State) (lo n : Nat) : Nat := leNat (s.norBytes lo n)

/-- Table 16.1: SECTIONS. -/
def State.imgSections (s : State) : Nat := bitsOf (s.norWord 8 8) 15 8
/-- Table 16.1: LENGTH. -/
def State.imgLength (s : State) : Nat := bitsOf (s.norWord 16 8) 63 32
/-- Table 16.1: SIGNED. -/
def State.imgSigned (s : State) : Bool := bitOf (s.norWord 16 8) 0

/-- Table 16.2: a directory entry. -/
structure ImgSection where
  type : Nat
  offset : Nat
  crc : Nat
  size : Nat
  deriving DecidableEq, Repr

/-- The directory. -/
def State.imgDirectory (s : State) : List ImgSection :=
  (List.range s.imgSections).map (fun i =>
    let w0 := s.norWord (64 + 16 * i) 8
    let w1 := s.norWord (72 + 16 * i) 8
    ⟨bitsOf w0 63 56, bitsOf w0 31 0, bitsOf w1 63 32, bitsOf w1 31 0⟩)

/-- Check 4: FORMAT, SECTIONS, LENGTH, HEADER_CRC, and the density. -/
def State.headerOk (s : State) : Bool :=
  let n := s.imgSections
  let len := s.imgLength
  bitsOf (s.norWord 8 8) 7 0 == 1 && decide (1 ≤ n) && decide (n ≤ 8) && len % 16 == 0 && decide (len ≤ 8388416) &&
    decide (len + (if s.imgSigned then 192 else 0) ≤ s.boot.flash.densityKib * 1024) &&
    crc32c (s.norBytes 0 24 ++ s.norBytes 64 (16 * n)) == bitsOf (s.norWord 24 8) 31 0

/-- Check 5: INSTANCE and STEPPING. -/
def State.partOk (s : State) : Bool :=
  bitsOf (s.norWord 8 8) 31 24 == s.fuses.inst && bitsOf (s.norWord 8 8) 23 16 == s.fuses.stepping

/-- R393: does a directory entry, after those before it, meet the layout rules? -/
def sectionOk (first length : Nat) (before : List ImgSection) (x : ImgSection) : Bool :=
  decide (1 ≤ x.type) && decide (x.type ≤ 8) && x.offset % 16 == 0 && x.size % 16 == 0 && decide (16 ≤ x.size) &&
    decide (first ≤ x.offset) && decide (x.offset + x.size ≤ length) &&
    before.all (fun y => y.type != x.type && (decide (y.offset + y.size ≤ x.offset) || decide (x.offset + x.size ≤ y.offset)))

/-- Check 6: the TYPE of the first entry that fails. -/
def State.badSection (s : State) : Option Nat :=
  let d := s.imgDirectory
  (((List.range d.length).filterMap (fun i => (d[i]?).map (fun x => (d.take i, x)))).find? (fun y =>
    !sectionOk (64 + 16 * s.imgSections) s.imgLength y.1 y.2)).map (·.2.type)

/-! ## Records (R395 to R397) -/

/-- R395: may a section of a type write the register at an offset? -/
def sectionMay (type off : Nat) : Bool :=
  let within := fun lo hi => decide (lo ≤ off) && decide (off ≤ hi)
  let tp := within 0x1E10000 0x1E2FFFF
  let h := decide (0x3000000 ≤ off)
  off % 8 == 0 &&
  match type with
  | 1 => within 0xC00000 0xFFFFFF || off == 0x400018
  | 2 => within 0x800000 0xBFFFFF
  | 3 => within 0x1000000 0x10FFFFF || within 0x1400000 0x1BFFFFF || within 0x2400000 0x2FFFFFF || within 0x1000 0x3FFFFF ||
      (h && decide (blockOffset off < 0x10000))
  | 4 => tp || within 0x1820000 0x1820FFF
  | 5 => within 0x2000000 0x23FFFFF
  | 6 => within 0x1C00000 0x1FFFFFF && !tp
  | 7 => h && decide (0x10000 ≤ blockOffset off) && decide (blockOffset off < 0x18000)
  | _ => false

/-- The records of a section: first word and VALUE. -/
def State.imgRecords (s : State) (x : ImgSection) : List (Nat × W64) :=
  (List.range (x.size / 16)).map (fun i =>
    (s.norWord (x.offset + 16 * i) 8, BitVec.ofNat 64 (s.norWord (x.offset + 16 * i + 8) 8)))

/-- Check 8: every record names an offset its section may write, with reserved bits 0. -/
def State.recordsOk (s : State) (x : ImgSection) : Bool :=
  x.type == 8 || (s.imgRecords x).all (fun r => decide (r.1 < 2 ^ 26) && sectionMay x.type r.1)

/-- R396: the IMAGE fields of a word take the VALUE's bits. -/
def State.imageWord (s : State) (off : Nat) (v : W64) : State :=
  let m : W64 := BitVec.ofNat 64 (imageMask off)
  s.setWord off ((s.word off &&& ~~~m) ||| (v &&& m))

/-- R397: the word at byte offset 0 of the register of several words that an offset lies in: ST_TABLE, TM_REGION, TM_BOARD_PORT,
TM_FLASH_NS. -/
def multiWord (off : Nat) : Option Nat :=
  if 0x1C10000 ≤ off && off < 0x1C11000 then some (off / 0x40 * 0x40)
  else if 0x2001000 ≤ off && off < 0x2001800 then some (off / 0x20 * 0x20)
  else if (0x2000080 ≤ off && off < 0x20000C0) || (0x2000A00 ≤ off && off < 0x2000A80) then some (off / 0x10 * 0x10)
  else none

/-- R228: a table definition applied, or refused. -/
def State.imageTable (s s' : State) (k : Nat) : Option State :=
  if !s'.flag (ST_TABLE.VALID k) then some s'
  else if s.flag (ST_TABLE.VALID k) || s.tableReason (s'.tableWords k) != 0 then none
  else some ((s'.set (ST_TABLE.REVISION k) 1).fillFreeList (s'.tableWords k))

/-- R242, R243, R322: a region applied, or refused. -/
def State.imageRegion (s s' : State) (k : Nat) : Option State :=
  let r := s'.regionWords k
  if s.flag (TM_REGION.VALID k) then
    if s'.flag (TM_REGION.VALID k) || s.regionBusy (s.regionWords k) then none
    else some (s'.freeRegion (s.regionWords k))
  else if !s'.flag (TM_REGION.VALID k) then some s'
  else if s.regionRefused r then none
  else some (if r.backing == 0 then s'.makeHome r else s')

/-- R397: the record of the word at byte offset 0 is applied, with the staged words of its register; none where refused. -/
def State.imageRegister (s : State) (off : Nat) (words : SMap W64) : Option State :=
  let s' := words.foldl (fun s w => s.imageWord w.1 w.2) s
  if 0x1C10000 ≤ off && off < 0x1C11000 then s.imageTable s' ((off - 0x1C10000) / 0x40)
  else if 0x2001000 ≤ off && off < 0x2001800 then s.imageRegion s' ((off - 0x2001000) / 0x20)
  else some s'

/-- R184: the map entry (h, k) at an offset, if it is one. -/
def svMapIndex (off : Nat) : Option (Nat × Nat) :=
  let b := blockOffset off
  if 0x3000000 ≤ off && 0x10040 ≤ b && b < 0x10080 then some ((off - 0x3000000) / 0x200000, (b - 0x10040) / 8) else none

/-- R396, R397: one record: the state and the staged words after it, or none where it is refused. -/
def State.applyRecord (s : State) (staged : SMap W64) (off : Nat) (v : W64) : Option (State × SMap W64) :=
  match multiWord off with
  | some base =>
    let words := mapIns staged off v
    if off == base then
      (s.imageRegister base (mapRange words base 0x40 |>.filter (fun w => multiWord w.1 == some base))).map (fun s =>
        (s, words.filter (fun w => multiWord w.1 != some base)))
    else some (s, words)
  | none =>
    match svMapIndex off with
    | some (h, k) =>
      let w := v &&& BitVec.ofNat 64 (imageMask off)
      if mapReason k w (s.progWords h (bitsOf w.toNat 4 0)) != 0 then none else some (s.imageWord off v, staged)
    | none =>
      let b := blockOffset off
      let s := if 0x3000000 ≤ off && 0x14000 ≤ b && b < 0x18000 then
          { s with boot := { s.boot with progs := mapIns s.boot.progs off v } } else s
      some ((if shapeIgnored off v then s else s.imageWord off v).deferredEffect off, staged)

/-- R396: the records of a section in body order, from record `i` on; the index of the first refused record, or the state. -/
def State.applyRecords (s : State) (staged : SMap W64) (i : Nat) : List (Nat × W64) → State ⊕ Nat
  | [] => .inl s
  | r :: rest =>
    match s.applyRecord staged r.1 r.2 with
    | none => .inr i
    | some (s, staged) => s.applyRecords staged (i + 1) rest

/-- R398: card i of the body becomes card i of the live bank, once every card is valid under R49. -/
def State.applyCards (s : State) (x : ImgSection) : State ⊕ Nat :=
  let n := x.size / 16
  let card := fun i => s.norWord (x.offset + 16 * i) 16
  match (List.range (min n 8192)).find? (fun i => cardReason (card i) != 0) with
  | some i => .inr i
  | none =>
    if 8192 < n then .inr 8192
    else .inl ((List.range n).foldl (fun s i =>
      (s.setWord (liveBank + 16 * i) (BitVec.ofNat 64 (card i))).setWord (liveBank + 16 * i + 8)
        (BitVec.ofNat 64 (card i / 2 ^ 64))) s)

/-- Check 13: the sections in ascending TYPE; the TYPE and record index of the first refusal, or the state. -/
def State.applySections (s : State) : List ImgSection → State ⊕ (Nat × Nat)
  | [] => .inl s
  | x :: rest =>
    match if x.type == 8 then s.applyCards x else s.applyRecords [] 0 (s.imgRecords x) with
    | .inr i => .inr (x.type, i)
    | .inl s => s.applySections rest

/-! ## Signature (R399) -/

/-- R399: must the signature be checked? -/
def State.mustVerify (s : State) : Bool :=
  s.fuses.lifecycle == 3 || (s.imgSigned && !s.fuses.imageHash.isEmpty)

/-- Checks 10 and 11: KEY_HASH 9, SIGNATURE 10, 0 where both pass. -/
def State.signatureCode (s : State) : Nat :=
  let len := s.imgLength
  let part := fun i => s.norBytes (len + 48 * i) 48
  if s.fuses.imageHash.isEmpty || sha384 (part 0 ++ part 1) != s.fuses.imageHash then 9
  else if ecdsaVerify (beNat (part 0)) (beNat (part 1)) (beNat (part 2)) (beNat (part 3)) (beNat (sha384 (s.norBytes 0 len)))
  then 0 else 10

/-! ## The checks (R400) -/

/-- Table 16.4, checks 1 to 12: the code of the first that fails and the TYPE of its section; code 0 where all pass. -/
def State.imageCode (s : State) : Nat × Nat :=
  let f := s.boot.flash
  let sig := s.signatureCode
  if !f.answers || f.jedec == 0 || f.jedec == 0xFFFFFF then (1, 0)
  else if !f.sfdp then (2, 0)
  else if s.norWord 0 8 != 0x010050524157515A then (3, 0)
  else if !s.headerOk then (4, 0)
  else if !s.partOk then (5, 0)
  else match s.badSection with
  | some t => (6, t)
  | none =>
    match s.imgDirectory.find? (fun x => crc32c (s.norBytes x.offset x.size) != x.crc) with
    | some x => (7, x.type)
    | none =>
      match s.imgDirectory.find? (fun x => !s.recordsOk x) with
      | some x => (6, x.type)
      | none =>
        if s.fuses.lifecycle == 3 && !s.imgSigned then (8, 0)
        else if s.mustVerify && sig != 0 then (sig, 0)
        else if s.fuses.lifecycle == 4 then (11, 0)
        else (0, 0)

/-- R400, R401: the image is checked and applied, or the engine keeps the factory defaults and says why. -/
def State.checkImage (s : State) : State :=
  let fail := fun (code t i : Nat) =>
    let verified := s.mustVerify && (code == 11 || code == 12)
    let boot := { s.boot with stage := .bootTest, code := code, sectionType := t, record := i, signed := verified }
    { s with boot := boot }
  match s.imageCode with
  | (0, _) =>
    match s.applySections (sortBy (fun a b => decide (a.type < b.type)) s.imgDirectory) with
    | .inr (t, i) => fail 12 t i
    | .inl s' =>
      let boot := { s'.boot with stage := .bootTest, code := 0, factory := false, signed := s.mustVerify,
                                 imageVersion := bitsOf (s.norWord 8 8) 63 32 }
      ({ s' with boot := boot }).applyDuty
  | (c, t) => fail c t 0

/-- R400: IMAGE_CHECK: the image has been read. -/
def execImageCheck (s : State) : Host.Outcome State Fault Refusal :=
  .next (s.after <| if s.pm.st != .off && s.boot.stage == .bootRead then s.checkImage else s)

end Sys2Proof.Machine
end

