-- ==== Sys2Proof/Machine/Boot.lean ====
section
/-! DEFINITION. Start-up (R131 to R134, R402): the end of reset, the last steps of boot; and the rewriting of the configuration
flash (R405, R406). -/

namespace Sys2Proof.Machine

/-! ## The end of reset (R14, R132, R325, R329, R402) -/

/-- Table 13.5: the debug level that a reset sets in a lifecycle. -/
def resetLevel (lifecycle : Nat) : Nat :=
  match lifecycle with
  | 0 | 4 => 2
  | 1 | 2 => 1
  | _ => 0

/-- R14: the active positions of Harness h: the first 64 that are not fused out. -/
def State.activePositions (s : State) (h : Nat) : List Nat :=
  ((List.range 66).filter (fun c => !bitOf (s.fuseRecord h c) 7)).take 64

/-- R132: why a position's row fails: CHECK_MISMATCH 1, RECORD_CONFLICT 3; 0 where it does not. -/
def skewReason (record : Nat) : Nat :=
  if fuseCheck record != record / 256 % 256 then 1
  else if bitOf record 7 && bitOf record 6 then 3
  else 0

/-- R132: the row of a position in the skew table. -/
def State.buildSkew (s : State) (h c : Nat) : State :=
  let r := s.fuseRecord h c
  let bad := skewReason r != 0
  let s := (s.setFlag (SD_SKEW.VALID h c) (!bad)).setFlag (SD_SKEW.FAILED h c) bad
  let s := (s.set (SD_SKEW.SPARE_FOR h c) (if bitOf r 6 then r % 32 else 0xFF)).set (SD_SKEW.FUSE_CHECK h c) (r / 256 % 256)
  let s := (s.set (SD_SKEW.TABLE_CHECK h c) (fuseCheck r)).set (SD_SKEW.MAX_SKEW h c) (c + s.physGroup h c 31)
  s.set (SD_SKEW.CORE_SKEW h c) c

/-- R132, R133: a position is marked FAILED: the first failure of the boot goes to SD_SKEW_FAIL, Custody writes SKEW_FAILED, and
an active core is retired at boot. -/
def State.skewFail (s : State) (h c reason : Nat) (active : Bool) : State :=
  let s := if s.get SD_SKEW_FAIL.REASON == 0 then
      ((s.set SD_SKEW_FAIL.REASON reason).set SD_SKEW_FAIL.HARNESS h).set SD_SKEW_FAIL.POSITION c else s
  let s := (s.set (SD_SKEW.VALID h c) 0).set (SD_SKEW.FAILED h c) 1
  let s := s.recordFault { cls := 5, source := 2, action := if active then 1 else 0, harness := h, core := c,
                           detail := (s.word (SD_SKEW.VALID h c).off).toNat }
  if active then
    (s.modCore h c (fun k => { k with service := .retired, inMap := false, skewFailed := true })).bump SD_STATUS.BOOT_RETIRED
  else s

/-- R14, R132: a position takes its service, and fails where its record does. -/
def State.bringPosition (s : State) (h : Nat) (act : List Nat) (c : Nat) : State :=
  let fused := bitOf (s.fuseRecord h c) 7
  let active := act.contains c
  let s := s.modCore h c (fun k => { k with
    service := if fused then .fusedOut else if active then .active else .spareUnused, inMap := active })
  let s := s.buildSkew h c
  match skewReason (s.fuseRecord h c) with
  | 0 => s
  | r => s.skewFail h c r active

/-- R402 steps 1 and 2: the fuses are read, the skew table is built, the flash is found. The first failure of SD_SKEW_FAIL
and the order of the fault records go by ascending Harness, then position (log entry 114). -/
def State.startBoot (s : State) (f : FlashFound) : State :=
  let lc := s.fuses.pending
  let s := { s with
    fuses := { s.fuses with lifecycle := lc }
    sec := { s.sec with level := resetLevel lc }
    boot := { s.boot with stage := .bootRead, flash := f, singleIo := f.answers && f.sfdp && !f.quad } }
  s.after (((List.range 8).foldl (fun s h =>
    (List.range 66).foldl (fun s c => s.bringPosition h (s.activePositions h) c) s) s).set SD_STATUS.SKEW_READY 1)

/-- R385, R402: RESET_RELEASE: both inputs count high, the PLL has locked, and a clock loss has been answered (R378). -/
def execResetRelease (f : FlashFound) (s : State) : Host.Outcome State Fault Refusal :=
  .next (if s.pm.st != .off && s.boot.stage == .inReset && s.pm.resetN && s.pm.pwrok && s.pm.lossGate == 0 then s.startBoot f
    else s)

/-! ## The last steps of boot (R133, R134, R326, R367, R402) -/

/-- R133: the skew probe of the cores in service; `fails` are the positions (66·h + c) with a marker out of its cycle. Of
several the first failure is the lowest of them (log entry 114). -/
def State.probe (s : State) (fails : List Nat) : State :=
  let s := s.set SD_STATUS.PROBE_DONE 1
  let hit := (sortNub fails).filter (fun k => decide (k < 528) && (s.core (k / 66) (k % 66)).service == .active)
  let s := if hit.isEmpty then s else s.set SD_STATUS.PROBE_FAILED 1
  hit.foldl (fun s k => s.skewFail (k / 66) (k % 66) 2 true) s

/-- R160, R367: the Spindle test of Harness h marks the pairs that mismatched; without a fault-free pair the Spindle has failed. -/
def State.bootSpindle (s : State) (h pairs : Nat) : State :=
  let marks := (setBits 4 pairs).foldl (fun (m : BitVec 8) k => m ||| (3#8 <<< (2 * k))) 0
  let s := s.modSpindle h (fun v => { v with blockFault := v.blockFault ||| marks })
  if (s.freePair h).isNone then s.failSpindle h else s

/-- R134: a Harness left with no core in service is handled as a failed Harness. -/
def State.emptyHarness (s : State) (h : Nat) : State :=
  if s.inService h && (List.range 66).all (fun c => (s.core h c).service != .active) then
    s.fresh.2.retireHarness h s.fresh.1.toNat
  else s

/-- R402 steps 5 to 8: `spindleFails`, bit 4·h + k: pair k of the Spindle of Harness h mismatched. -/
def State.finishBoot (s : State) (probeFails : List Nat) (spindleFails us : Nat) : State :=
  let s := if s.fuses.lifecycle == 4 then { s with tiers := { s.tiers with beam := [] } } else s
  let s := if s.flag SD_CTRL.PROBE_ON_BOOT then s.probe probeFails else s
  let s := (List.range 8).foldl (fun s h => s.bootSpindle h (bitsOf spindleFails (4 * h + 3) (4 * h))) s
  let s := (List.range 8).foldl State.emptyHarness s
  { s with boot := { s.boot with stage := .up, done := true, us := us } }

/-- R402: BOOT_COMPLETE: ENGINE_READY rises. -/
def execBootComplete (probeFails : List Nat) (spindleFails : BitVec 32) (bootUs : BitVec 32) (s : State) :
    Host.Outcome State Fault Refusal :=
  .next (s.after <| if s.pm.st != .off && s.boot.stage == .bootTest then s.finishBoot probeFails spindleFails.toNat bootUs.toNat else s)

/-! ## Rewriting the image (R405, R406) -/

/-- A flash command completes. -/
def State.flashDone (s : State) (code : Nat) : State :=
  s.complete BD_FLASH_CMD.GO BD_FLASH_CMD.BUSY BD_FLASH_CMD.STATUS code

/-- R405: why a flash command is refused: NOT_READY 2, NO_FLASH 5, BAD_ARG 3, LOCKED 1; 0 where it is not. -/
def State.flashRefusal (s : State) : Nat :=
  let op := s.get BD_FLASH_CMD.OP
  let a := s.get BD_FLASH_CMD.ADDR
  let n := s.get BD_FLASH_LEN.LENGTH
  let size := s.boot.flash.densityKib * 1024
  if s.boot.stage != .up then 2
  else if s.boot.code == 1 || s.boot.code == 2 then 5
  else if op == 3 || (op != 1 && (n == 0 || 256 < n)) || (op == 1 && (a % 4096 != 0 || size < a + 4096)) ||
      (op == 2 && (256 < a % 256 + n || size < a + n)) then 3
  else if op != 0 && (!s.flag BD_CTRL.WRITE_ENABLE || s.flag BD_CTRL.LOCK) then 1
  else 0

/-- READ: bytes of the flash go to BD_FLASH_BUF; beyond the density what the device answers is open. -/
def State.flashToBuf (s : State) (a n : Nat) : State :=
  let size := s.boot.flash.densityKib * 1024
  let bytes := (s.norBytes a n).mapIdx (fun i b => if a + i < size then b else Config.freeByte s.free (a + i))
  let old := s.regBytes (BD_FLASH_BUF.WORD 0).off 32
  let new := bytes ++ old.drop n
  let s := { s with free := s.free + 1 }
  (List.range 32).foldl (fun s i => s.setWord (BD_FLASH_BUF.WORD i).off (BitVec.ofNat 64 (leNat ((new.drop (8 * i)).take 8)))) s

/-- GO of BD_FLASH_CMD: READ completes with its bytes; ERASE_4K and PROGRAM begin. -/
def State.takeFlash (s : State) : State :=
  let op := s.get BD_FLASH_CMD.OP
  let a := s.get BD_FLASH_CMD.ADDR
  let n := s.get BD_FLASH_LEN.LENGTH
  match s.flashRefusal with
  | 0 =>
    if op == 0 then (s.flashToBuf a n).flashDone 0
    else
      let data := if op == 2 then (s.regBytes (BD_FLASH_BUF.WORD 0).off 32).take n else []
      { s.set BD_FLASH_CMD.BUSY 1 with boot := { s.boot with cmd := some { op := op, addr := a, data := data } } }
  | code => s.flashDone code

/-- A write of BD_FLASH_CMD. -/
def State.writeFlashCmd (s : State) (v : W64) : State := s.issue v BD_FLASH_CMD.GO BD_FLASH_CMD.BUSY State.takeFlash

/-- A flash command issued with the address that BD_FLASH_CMD holds. -/
def State.flashOrder (s : State) (op : Nat) : State :=
  s.atPort BD_FLASH_CMD.GO.off (fun s => s.writeFlashCmd
    (cmdWord [(BD_FLASH_CMD.GO, 1), (BD_FLASH_CMD.OP, op), (BD_FLASH_CMD.ADDR, s.get BD_FLASH_CMD.ADDR)]))

/-- R405: FLASH_READ. -/
def execFlashRead (s : State) : Host.Outcome State Fault Refusal := .next (s.after <| s.flashOrder 0)

/-- R405: ERASE_4K. -/
def execErase4k (s : State) : Host.Outcome State Fault Refusal := .next (s.after <| s.flashOrder 1)

/-- R405: PROGRAM. -/
def execProgram (s : State) : Host.Outcome State Fault Refusal := .next (s.after <| s.flashOrder 2)

/-- The byte that programming leaves: the new one in an erased byte or over its equal; else the device's, an open value. -/
def State.programmed (s : State) (a : Nat) (b : Byte) : Byte :=
  let old := mapGet 0xFF#8 s.boot.nor a
  if old == 0xFF#8 || old == b then b else Config.freeByte s.free a

/-- The sector erased, or the bytes programmed. -/
def State.flashApply (s : State) (c : FlashOp) : State :=
  let nor := if c.op == 1 then mapDelRange s.boot.nor c.addr 4096
    else mapPutRun 0xFF#8 s.boot.nor c.addr (c.data.mapIdx (fun i b => s.programmed (c.addr + i) b))
  { s with free := s.free + 1, boot := { s.boot with nor := nor, cmd := none } }

/-- R405: FLASH_COMMAND_DONE: the busy bit cleared, or the limit passed, which leaves what was being written open. -/
def execFlashCommandDone (timedOut : Bool) (s : State) : Host.Outcome State Fault Refusal :=
  .next (s.after <| match s.boot.cmd with
    | none => s
    | some c =>
      if timedOut then
        let t := s.tornFlash
        ({ t with boot := { t.boot with cmd := none } }).flashDone 4
      else (s.flashApply c).flashDone 0)

end Sys2Proof.Machine
end

