-- ==== Sys2Proof/Machine/Live.lean ====
section
/-! DEFINITION. What a read of a register shows (R10 to R13, R387, R427, R428): the stored word, with the FUSE and LIVE fields
that show the state of a unit laid over it. -/

namespace Sys2Proof.Machine

/-- A field and the value it shows. -/
abbrev Shown := List (Fld × Nat)

/-- A truth value as a bit. -/
def bit (b : Bool) : Nat := if b then 1 else 0

/-- The largest value of a field, where a count is greater. -/
def capped (f : Fld) (n : Nat) : Fld × Nat := (f, min n (2 ^ fldWidth f - 1))

/-- WP_STATUS. -/
def State.shownWeft (s : State) : Shown :=
  let mask := fun (p : Nat → Bool) => maskOf ((List.range 8).filter p)
  [(WP_STATUS.LINK_UP, mask (fun h => (s.link h).up)), (WP_STATUS.WIN_READY, mask s.winReady),
   (WP_STATUS.DESYNC, mask (fun h => (s.link h).desync)), (WP_STATUS.IRQ_DONE, bit s.irqDone),
   capped WP_STATUS.BOLTS_IN_FLIGHT s.boltsInFlight]

/-- Does an ON core read HELD_ON (R112, R314, R382, R413)? -/
def State.powerCode (s : State) (h c : Nat) : Nat :=
  if s.heddle.sprintHold then 3 else match (s.core h c).power with
  | .gated => 0 | .ramping => 1 | .on => if s.heldOn h c then 3 else 2

/-- The codes of CORE_STATUS.SERVICE. -/
def Service.code : Service → Nat
  | .spareUnused => 0 | .active => 1 | .retirePending => 2 | .retired => 3 | .proving => 4 | .fusedOut => 5

/-- CORE_STATUS. -/
def State.shownCore (s : State) (h c : Nat) : Shown :=
  let k := s.core h c
  let r := s.fuseRecord h c
  [(CORE_STATUS.SPARE_FOR h c, if bitOf r 6 then r % 32 else 0xFF), (CORE_STATUS.SERVICE h c, k.service.code),
   (CORE_STATUS.POWER h c, s.powerCode h c), (CORE_STATUS.HALTED h c, bit (s.coreHalted h c)), (CORE_STATUS.FRONT h c, k.front.toNat)]

/-- PICK_STATUS: of the oldest pick not retired. -/
def State.shownPick (s : State) (h c : Nat) : Shown :=
  match s.queuePicks h c with
  | [] => []
  | p :: t =>
    let cause := if p.issued < p.blocks then s.waitCause p else none
    [(PICK_STATUS.PICK_ID h c, p.id), (PICK_STATUS.KIND h c, p.kind.code), (PICK_STATUS.WAIT_CAUSE h c, cause.getD 0),
     (PICK_STATUS.WAITING h c, bit (decide (p.issued < p.blocks))), (PICK_STATUS.QUEUED h c, t.length + 1)]

/-- SEG_ALLOC. -/
def State.shownSegs (s : State) (h c : Nat) : Shown :=
  let segs := fun (ps : List Pick) => maskOf (sortNub (ps.flatMap (fun p => p.segs.map (·.1))))
  let running := (s.core h c).blocks.filterMap (fun b => s.pick? b.pick)
  [(SEG_ALLOC.BUSY h c, segs (s.queuePicks h c)),
   (SEG_ALLOC.HALF h c, segs (running.filter (fun p => p.rank == 4 && (p.kind == .r || p.kind == .tStored))))]

/-- HA[h].SV_STATUS. -/
def State.shownSpindle (s : State) (h : Nat) : Shown :=
  let v := s.spindle h
  let run := v.jobs.filter (·.started)
  [(SV_STATUS.BLOCK_FAULT h, v.faultBits), capped (SV_STATUS.OPEN_TILES h) v.combines.length,
   capped (SV_STATUS.ACTIVE_INSTANCES h) run.length, (SV_STATUS.BUSY_SLOTS h, (run.map (·.slot)).foldl min 31),
   (SV_STATUS.FORCED h, bit v.forced), (SV_STATUS.MODE h, bit (s.spChecked h))]

/-- R305: the candidates for the lagging bolt. -/
def State.lagging (s : State) : Option Bolt :=
  let ok := s.weft.bolts.filter (fun b => b.remote.isNone && !b.turnedAway && angleRev (dAngle b.desc) == s.revolution &&
    anglePhase (dAngle b.desc) == s.phase && decide (angleOrdinal (dAngle b.desc) ≤ angleOrdinal s.angle))
  (sortBy (fun a b => decide (angleOrdinal (dAngle a.desc) < angleOrdinal (dAngle b.desc)) ||
    (angleOrdinal (dAngle a.desc) == angleOrdinal (dAngle b.desc) && decide (a.aclk < b.aclk))) ok).head?

/-- LS_ANGLE_LAG. -/
def State.shownLag (s : State) : Shown :=
  match if s.phase == 0 then none else s.lagging with
  | none => [(LS_ANGLE_LAG.LAG, 0), (LS_ANGLE_LAG.OLDEST_US, 0)]
  | some b =>
    [capped LS_ANGLE_LAG.LAG (angleOrdinal s.angle - angleOrdinal (dAngle b.desc)),
     capped LS_ANGLE_LAG.OLDEST_US ((s.cust.aclk - b.aclk) / 1700)]

/-- TM_STATUS. -/
def State.shownTiers (s : State) : Shown :=
  [(TM_STATUS.MODE, bit s.interleaved), (TM_STATUS.FREE_FRAMES, s.freeFrames), (TM_STATUS.DIRTY_FRAMES, s.dirtyFrames)]

/-- TM_FRAMES. -/
def State.shownFrames (s : State) : Shown :=
  let count := fun (p : Page → Bool) => (s.tiers.pages.filter (fun q => p q.2)).length
  [(TM_FRAMES.RESERVED, s.tableFrames * s.tiers.tableStacks.length), (TM_FRAMES.HOME, count (fun q => q.st == .home)),
   (TM_FRAMES.PINNED, (s.tiers.pages.filter (fun q => q.2.st.held && s.pagePinned q.1)).length)]

/-- BC_SLICE_STATUS[h]. -/
def State.shownSlice (s : State) (h : Nat) : Shown :=
  let count := fun (p : BFrame → Bool) => ((s.slice h).filter (fun f => p f.2)).length
  [(BC_SLICE_STATUS.VALID_FRAMES h, count (fun _ => true)), (BC_SLICE_STATUS.PINNED_FRAMES h, count (fun f => !f.sets.isEmpty)),
   (BC_SLICE_STATUS.REFERENCED_FRAMES h, count (fun f => f.refs != 0 || f.filling || s.rowHolds h f.tile))]

/-- ST_LEARN_STATUS. -/
def State.shownLearn (s : State) : Shown :=
  [(ST_LEARN_STATUS.LEARNING, (s.skein.learners.filter (·.rev == s.revolution)).length),
   (ST_LEARN_STATUS.UPD_ACTIVE, bit (s.spindles.any (fun v => v.jobs.any (·.key.cls == 5)) ||
      s.skein.learners.any (fun x => !x.waiting.isEmpty))),
   (ST_LEARN_STATUS.ALL_CLOSED, bit (s.phase == 2 && s.skein.closedFrom == 0))]

/-- SX_STATUS. -/
def State.shownExchange (s : State) : Shown :=
  [(SX_STATUS.RESHARD_ACTIVE, bit s.exch.reshard.isSome),
   capped SX_STATUS.REMOTE_BOLTS (s.weft.bolts.filter (·.remote.isSome)).length,
   (SX_STATUS.KEYS_READY, bit ((mapFind s.sec.xkeys 0).isSome && (mapFind s.sec.xkeys 1).isSome))]

/-- The codes of PM_STATUS.POWER. -/
def Power.code : Power → Nat
  | .run | .off => 0 | .idle => 1 | .hold => 2 | .enteringHold => 3

/-- SS_STATUS. -/
def State.shownSecurity (s : State) : Shown :=
  let power := match s.pm.st with
    | .idle => 1 | .hold => 2 | _ => 0
  [(SS_STATUS.LIFECYCLE, s.fuses.lifecycle), (SS_STATUS.PENDING_LIFECYCLE, s.fuses.pending), (SS_STATUS.LEVEL, s.sec.level),
   (SS_STATUS.POWER, power), (SS_STATUS.DEBUGGED, bit s.sec.debugged), (SS_STATUS.GRANT_PENDING, bit (s.sec.grant != .none)),
   (SS_STATUS.LOCKOUT, bit s.sec.lockout), (SS_STATUS.RETIRE_AUTH, bit s.sec.retireAuth),
   (SS_STATUS.KIK_PRESENT, bit (!s.fuses.kik.isEmpty && !s.fuses.kikDestroyed)),
   (SS_STATUS.DEBUG_KEY_PRESENT, bit (!s.fuses.debugHash.isEmpty)), (SS_STATUS.FAILS, s.sec.fails),
   (SS_STATUS.KEYS_LOADED, s.sec.keys.length)]

/-- CU_STATUS. -/
def State.shownCustody (s : State) : Shown :=
  let count := fun (p : Service → Bool) =>
    ((List.range 8).flatMap (fun h => (List.range 66).filter (fun c => p (s.core h c).service))).length
  [(CU_STATUS.ENGINE_FAILED, bit s.cust.engineFailed), (CU_STATUS.HARNESS_RETIRED, s.cust.harnessRetired.toNat),
   (CU_STATUS.HARNESS_PENDING, s.cust.harnessPending.toNat),
   (CU_STATUS.CORES_RETIRED, count (fun x => x == .retired || x == .retirePending)),
   (CU_STATUS.CORES_ACTIVE, count (· == .active))]

/-- PM_STATUS. -/
def State.shownPower (s : State) : Shown :=
  [(PM_STATUS.POWER, s.pm.st.code), (PM_STATUS.PROTECT_HOLD, bit s.pm.protect), (PM_STATUS.DUTY, s.duty),
   (PM_STATUS.PIN_THROTTLE, bit s.pm.throttle), (PM_STATUS.THERMAL_THROTTLE, bit s.pm.thermal),
   (PM_STATUS.THERMAL_CRIT, bit s.pm.crit), (PM_STATUS.LIMIT_THROTTLE, bit s.pm.limit),
   (PM_STATUS.SUPPLY_LOW, bit s.pm.supplyLow), (PM_STATUS.STUCK_THROTTLE, bit s.pm.stuck),
   (PM_STATUS.SENSOR_FAILED, s.pm.sensorFailed.toNat), (PM_STATUS.T_MAX, s.hottest.2)]

/-- PM_INPUTS: the synchronizers' own outputs are open values; only counted levels come to the model. -/
def State.shownInputs (s : State) : Shown :=
  [(PM_INPUTS.COUNTED, 8 * bit s.pm.resetN + 4 * bit s.pm.pwrok + 2 * bit s.pm.throttle + bit s.pm.wake),
   (PM_INPUTS.SYNC, bitsOf s.fresh.1.toNat 3 0)]

/-- PM_SUPPLY: VDD_ZQ reads 0 in HOLD. -/
def State.shownSupply (s : State) : Shown :=
  [(PM_SUPPLY.VDD_ZQS_MV, s.pm.vddsMv), (PM_SUPPLY.VDD_ZQ_MV, if s.pm.st == .hold then 0 else s.pm.vddMv)]

/-- Table 15.8: the levels of ZQ_IRQ_DONE, _TIER, _SEC and _FAULT, from bit 0: 0 in OFF and reset, FAULT alone in boot, those
at entry in HOLD. -/
def State.irqLines (s : State) : Nat :=
  if s.pm.st == .off || s.boot.stage == .inReset then 0
  else if s.pm.st == .hold then s.pm.irqHeld
  else if s.boot.stage != .up then 8 * bit s.irqFault
  else s.irqLevels

/-- BD_BOOT_STATUS. -/
def State.shownBoot (s : State) : Shown :=
  [(BD_BOOT_STATUS.CODE, s.boot.code), (BD_BOOT_STATUS.SECTION, s.boot.sectionType), (BD_BOOT_STATUS.DONE, bit s.boot.done),
   (BD_BOOT_STATUS.SINGLE_IO, bit s.boot.singleIo), (BD_BOOT_STATUS.SIGNED, bit s.boot.signed),
   (BD_BOOT_STATUS.FACTORY, bit s.boot.factory), (BD_BOOT_STATUS.EARLY_WRITES, s.boot.earlyWrites),
   (BD_BOOT_STATUS.IMAGE_VERSION, s.boot.imageVersion)]

/-- BD_FLASH_INFO (R391). -/
def State.shownFlash (s : State) : Shown :=
  let f := s.boot.flash
  [(BD_FLASH_INFO.DENSITY_KIB, f.densityKib), (BD_FLASH_INFO.JEDEC_ID, f.jedec),
   (BD_FLASH_INFO.ADDR4, bit (decide (16384 < f.densityKib))), (BD_FLASH_INFO.QUAD, bit f.quad), (BD_FLASH_INFO.QER, f.qer)]

/-- R407: the identity registers. -/
def State.shownIdentity (s : State) (off : Nat) : Shown :=
  let f := s.fuses
  if off == 0 then [(CU_ID_LOT.LOT, f.lot)]
  else if off == 8 then [(CU_ID_DIE.WAFER, f.wafer), (CU_ID_DIE.DIE_X, f.dieX), (CU_ID_DIE.DIE_Y, f.dieY)]
  else if off == 16 then [(CU_ID_PART.INSTANCE, f.inst), (CU_ID_PART.STEPPING, f.stepping), (CU_ID_PART.FUSE_REV, f.rev)]
  else []

/-- BD_DBG_STATUS. -/
def State.shownDebug (s : State) : Shown :=
  [(BD_DBG_STATUS.ENGINE_HALTED, bit s.engineHalted),
   (BD_DBG_STATUS.STEP_BUSY, bit (s.heddle.cores.any (fun k => k.2.stepping.isSome))),
   (BD_DBG_STATUS.HARNESS_HALTED, maskOf ((List.range 8).filter s.harnessHalted)),
   (BD_DBG_STATUS.LAST_HIT, s.dbg.lastHit), (BD_DBG_STATUS.LAST_INDEX, s.dbg.lastIndex),
   (BD_DBG_STATUS.CORES_HALTED, ((List.range 528).filter (fun k => s.coreHalted (k / 66) (k % 66))).length)]

/-- The derived fields of the Harness ranges. -/
def State.shownHarness (s : State) (off : Nat) : Shown :=
  let h := (off - 0x3000000) / 0x200000
  let b := blockOffset off
  let c := (b - 0x100000) / 0x2000
  if b == 8 then [capped (ALLOC_STATUS.SEGMENTS_USABLE h) (s.segmentsUsable h)]
  else if b == 0x10008 then s.shownSpindle h
  else if 0x100000 ≤ b && c < 66 then
    match b % 0x2000 with
    | 0 => s.shownCore h c
    | 8 => s.shownPick h c
    | 16 => s.shownSegs h c
    | _ => []
  else []

/-- The derived fields of the registers that come once for each index. -/
def State.shownIndexed (s : State) (off : Nat) : Shown :=
  let i := fun (base stride : Nat) => (off - base) / stride
  let at_ := fun (base stride n : Nat) => decide (base ≤ off) && decide (off < base + stride * n) && (off - base) % stride == 0
  if 0x3000000 ≤ off then s.shownHarness off
  else if at_ (RN_STORE.USED 0).off 8 8 then [capped (RN_STORE.USED (i (RN_STORE.USED 0).off 8)) (s.storeUsed (i (RN_STORE.USED 0).off 8))]
  else if at_ (TM_SET_PINNED.PINNED 0).off 8 64 then
    let j := i (TM_SET_PINNED.PINNED 0).off 8
    [(TM_SET_PINNED.PINNED j, maskOf ((s.tiers.sets.map (·.1)).filterMap (fun k => if k / 64 == j then some (k % 64) else none)))]
  else if at_ (BC_SLICE_STATUS.VALID_FRAMES 0).off 16 8 then s.shownSlice (i (BC_SLICE_STATUS.VALID_FRAMES 0).off 16)
  else if at_ (SD_TURN_STATUS.PTR 0).off 8 8 then
    let h := i (SD_TURN_STATUS.PTR 0).off 8
    [(SD_TURN_STATUS.PTR h, (s.harness h).ptr)]
  else if at_ (SS_KEY_VALID.VALID 0).off 8 64 then
    let j := i (SS_KEY_VALID.VALID 0).off 8
    [(SS_KEY_VALID.VALID j, maskOf ((s.sec.keys.map (·.1)).filterMap (fun k => if k / 64 == j then some (k % 64) else none)))]
  else if at_ (CU_PROOF_STATUS.RUNNING 0).off 8 8 then
    let h := i (CU_PROOF_STATUS.RUNNING 0).off 8
    [(CU_PROOF_STATUS.RUNNING h, bit (s.cust.proofs.any (·.1 == h)))]
  else if at_ (PM_TEMP.READING 0 0).off 8 4 then
    let j := i (PM_TEMP.READING 0 0).off 8
    (List.range 4).map (fun k => (PM_TEMP.READING j k, s.pm.sensors.getD (4 * j + k) 0))
  else s.shownIdentity off

/-- The FUSE and LIVE fields at an offset that show the state of a unit. -/
def State.shown (s : State) (off : Nat) : Shown :=
  if off == WP_STATUS.LINK_UP.off then s.shownWeft
  else if off == LS_ANGLE_LAG.LAG.off then s.shownLag
  else if off == TM_STATUS.MODE.off then s.shownTiers
  else if off == TM_FRAMES.HOME.off then s.shownFrames
  else if off == ST_STATUS.HELD_FLIPS.off then [capped ST_STATUS.HELD_FLIPS s.skein.flips.length]
  else if off == ST_LEARN_STATUS.LEARNING.off then s.shownLearn
  else if off == SX_STATUS.KEYS_READY.off then s.shownExchange
  else if off == SS_STATUS.LEVEL.off then s.shownSecurity
  else if off == CU_STATUS.ENGINE_FAILED.off then s.shownCustody
  else if off == CU_TALLY_CTRL.BUSY.off then
    [(CU_TALLY_CTRL.BUSY, bit s.cust.draining), capped CU_TALLY_CTRL.BUFFERED s.cust.tally.length]
  else if off == PM_STATUS.POWER.off then s.shownPower
  else if off == PM_INPUTS.COUNTED.off then s.shownInputs
  else if off == PM_HARNESS_HOLD.HELD.off then
    [(PM_HARNESS_HOLD.HELD, maskOf ((List.range 8).filter (fun h => (s.harness h).heldOn)))]
  else if off == PM_SUPPLY.VDD_ZQ_MV.off then s.shownSupply
  else if off == BD_BOOT_STATUS.CODE.off then s.shownBoot
  else if off == BD_BOOT_DETAIL.RECORD.off then [(BD_BOOT_DETAIL.RECORD, s.boot.record), (BD_BOOT_DETAIL.BOOT_US, s.boot.us)]
  else if off == BD_FLASH_INFO.QUAD.off then s.shownFlash
  else if off == BD_DBG_STATUS.LAST_HIT.off then s.shownDebug
  else s.shownIndexed off

/-- R404: the word that a register holds as boot runs: its reset value, but for what boot itself has brought: the SS window,
the skew table, SD_STATUS and PM_RESET_CAUSE. -/
def State.bootWord (s : State) (off : Nat) : W64 :=
  if (0xC00000 ≤ off && off < 0x1000000) || off == SD_STATUS.SKEW_READY.off || (0x1810000 ≤ off && off < 0x1812000) ||
      off == 0x800040 then s.word off
  else resetWord off

/-- R11 to R13: what a read of an offset of the window shows. -/
def State.shownWord (s : State) (off : Nat) : W64 :=
  if (findReg off).isNone then 0
  else (s.shown off).foldl (fun w x => putBits w x.1.hi x.1.lo x.2) (if s.boot.stage == .up then s.word off else s.bootWord off)

end Sys2Proof.Machine
end

