-- ==== Sys2Proof/Machine/Registers.lean ====
section
/-! DEFINITION. The register port (R10 to R12, R80, R404, R410): reads, which clear fields of access RC, and writes, each
taken as its register's own rule says, or by its fields' access codes. -/

namespace Sys2Proof.Machine

/-! ## Reads -/

/-- Does a read during boot show the stored word (R404)? -/
def bootShows (off : Nat) : Bool :=
  (0xC00000 ≤ off && off < 0x1000000) || off == SD_STATUS.SKEW_READY.off || (0x1810000 ≤ off && off < 0x1812000) ||
    off == 0x800040

/-- Table 0.5, RC: the fields of the word at an offset that a read resets. -/
def State.clearRc (s : State) (off : Nat) : State :=
  match findReg off with
  | none => s
  | some r =>
    s.setWord off ((r.fields.filter (fun f => f.acc == .rc)).foldl (fun w f => putBits w f.hi f.lo f.dflt) (s.word off))

/-- R10 to R12, R375, R404: a 64-bit read of an offset of the window through the register port. -/
def State.readPort (s : State) (off : Nat) : State :=
  if s.pm.st == .off || s.boot.stage == .inReset then s
  else if s.boot.stage == .up && s.pm.st == .hold && !answersInHold off then { s with resp := .error }
  else
    let v := s.shownWord off
    let s := if s.boot.stage == .up || bootShows off then s.clearRc off else s
    { s with resp := .data v, free := s.free + 1 }

/-- R10: an access that the port does not accept is answered with an error and reads or changes no register. -/
def badAccess (off size : Nat) : Bool := size != 8 || off % 8 != 0 || decide (0x4000000 ≤ off)

/-- R10: the error response; none where the engine answers nothing. -/
def State.portError (s : State) : State :=
  if s.pm.st == .off || s.boot.stage == .inReset then s else { s with resp := .error }

/-- R80: the read of WP_CPL_PENDING leaves no counted completion waiting; other reads touch nothing of it. -/
def State.readRegister (s : State) (off : Nat) : State :=
  let t := s.readPort off
  if off == WP_CPL_PENDING.COUNT.off && t.get WP_CPL_PENDING.COUNT == 0 then
    { t with weft := { t.weft with holdoffHit := false } }
  else t

/-- R12: RC_READ: a read through the register port. -/
def execRcRead (off size : Nat) (s : State) : Host.Outcome State Fault Refusal :=
  .next (s.after <| if badAccess off size then s.portError else s.readRegister off)

/-- R80: CPL_PENDING_READ: COUNT is read and cleared. -/
def execCplPendingRead (s : State) : Host.Outcome State Fault Refusal :=
  .next (s.after <| s.readRegister WP_CPL_PENDING.COUNT.off)

/-! ## Writes -/

/-- The rule of a register that is not replicated, where it has one of its own. -/
def State.writeSingle (s : State) (off : Nat) (v : W64) : Option State :=
  if off == LS_CTRL.REBASE.off then some (s.writeLsCtrl v)
  else if off == LS_CARD_COMMIT.COMMIT.off then some (s.writeCardCommit v)
  else if off == LS_MBOX_ORDER.GO.off then some (s.writeMboxOrder v)
  else if off == ST_DESC_CMD.GO.off then some (s.writeDescCmd v)
  else if off == ST_REPLACE_CMD.GO.off then some (s.writeReplaceCmd v)
  else if off == TM_CTRL.FREE_TARGET.off then some ((s.writeFields off v).keepFree)
  else if off == TM_PAGE_CMD.GO.off then some (s.writePageCmd v)
  else if off == SX_RESHARD_CMD.ABORT.off then some (s.writeReshardCmd v none)
  else if off == SX_NODE.VALID.off then some (s.writeSxNode v)
  else if off == SS_KEY_CMD.GO.off then some (s.writeKeyCmd v)
  else if off == SS_UNLOCK_CMD.GO.off then some (s.writeUnlockCmd v)
  else if off == SS_DEBUG_CTRL.GO.off then some (s.writeDebugCtrl v)
  else if off == CU_SERVICE_CMD.GO.off then some (s.writeServiceCmd v)
  else if off == CU_TALLY_RING.VALID.off then some (s.writeTallyRing v)
  else if off == CU_TALLY_CTRL.DRAIN.off then some (s.writeTallyCtrl v)
  else if off == PM_POWER_CMD.GO.off then some (s.writePowerCmd v)
  else if off == PM_THROTTLE_CTRL.PIN_DUTY.off || off == PM_POWER_LIMIT.WATTS.off then some ((s.writeFields off v).applyDuty)
  else if off == BD_FLASH_CMD.GO.off then some (s.writeFlashCmd v)
  else none

/-- The index of a replicated register of one word at an offset: base, stride, how many. -/
def indexAt (base stride n off : Nat) : Option Nat :=
  if base ≤ off && off < base + stride * n && (off - base) % stride == 0 then some ((off - base) / stride) else none

/-- The index and the word of a replicated register of several words. -/
def wordAt (base stride n off : Nat) : Option (Nat × Nat) :=
  if base ≤ off && off < base + stride * n && off % 8 == 0 then some ((off - base) / stride, (off - base) % stride / 8) else none

/-- The rule of a register of a Harness, where it has one of its own (R184, R185). -/
def State.writeOfHarness (s : State) (off : Nat) (v : W64) : Option State :=
  let h := (off - 0x3000000) / 0x200000
  let b := blockOffset off
  if off < 0x3000000 then none
  else match indexAt 0x10040 8 8 b with
  | some k => some (s.writeSvMap h k v)
  | none => (indexAt 0x14000 8 2048 b).map (fun j => s.writeSvProg h (j / 64) (j % 64) v)

/-- The rule of a replicated register, where it has one of its own. -/
def State.writeIndexed (s : State) (off : Nat) (v : W64) : Option State :=
  if isDeferred off then some (s.writeDeferred off v)
  else if 0x3000000 ≤ off then s.writeOfHarness off v
  else match wordAt (ST_TABLE.VALID 0).off 0x40 64 off with
  | some (k, w) => if (findReg off).isSome then some (s.writeTable k w v) else none
  | none =>
  match wordAt (TM_REGION.VALID 0).off 0x20 64 off with
  | some (k, w) => if (findReg off).isSome then some (s.writeRegion k w v) else none
  | none =>
  match wordAt (TM_FLASH_NS.VALID 0).off 0x10 8 off with
  | some (j, w) => some (s.writeFlashNs j w v)
  | none =>
  match indexAt (SS_REGION_KEY.ENCRYPT 0).off 8 64 off with
  | some k => some (s.writeRegionKey k v)
  | none => (indexAt (SS_PROV_BUF.WORD 0).off 8 10 off).map (fun i => s.writeProvBuf i v)

/-- R50: the shadow bank. Writes to it are ignored while a validated commit waits. -/
def inShadowBank (off : Nat) : Bool := 0x1100000 ≤ off && off < 0x1120000

/-- R410: the Treadle registers, which the register port does not write. -/
def isTreadleReg (off : Nat) : Bool := 0x402000 ≤ off && off < 0x402618

/-- Has the register at this offset a rule of its own, beside its fields' access codes? -/
def State.writeSpecial (s : State) (off : Nat) (v : W64) : Option State :=
  if isTreadleReg off || (inShadowBank off && s.loom.commitValid) then some s
  else (s.writeSingle off v).or (s.writeIndexed off v)

/-- R11, R12: a write at an offset of the window; one where no register is assigned has no effect. SS_LIFECYCLE_CMD alone
burns fuses. -/
def State.writeReg (s : State) (off : Nat) (v : W64) : State :=
  if (findReg off).isNone then s
  else if off == SS_LIFECYCLE_CMD.GO.off then s.burnCommand v
  else s.after (((s.writeSpecial off v).map State.carryOn).getD (s.writeFields off v))

/-- R10 to R12: REGISTER_WRITE: a write through the register port. -/
def execRegisterWrite (off size : Nat) (v : W64) (s : State) : Host.Outcome State Fault Refusal :=
  .next (if badAccess off size then s.portError else s.atPort off (fun s => s.writeReg off v))

end Sys2Proof.Machine
end

