-- ==== Sys2Proof/Machine/Debug.lean ====
section
/-! DEFINITION. The Treadle port (chapter 17; R327, R328, R334): the TAP and register accesses, halts, resumes and single steps,
the debugger's memory accesses, and the cross-trigger wires. -/

namespace Sys2Proof.Machine

/-! ## The TAP (R408, R409) -/

/-- R408: the 32-bit identity of the IDCODE instruction. -/
def State.idcode (s : State) : Nat := 2 ^ 28 + 0x5A12 * 2 ^ 12 + s.fuses.manufacturer % 2 ^ 11 * 2 + 1

/-- What Capture-DR loads into the data register that the instruction selects (Tables 17.1, 17.2). An access has always
completed: DONE is 1. -/
def State.capture (s : State) : Nat :=
  match s.dbg.tapIr with
  | 0 => s.idcode
  | 2 => 2 ^ 72 + s.dbg.tapStatus * 2 ^ 64 + s.dbg.tapData.toNat
  | _ => 0

/-- The instruction register takes an instruction. -/
def State.setIr (s : State) (n : Nat) : State := { s with dbg := { s.dbg with tapIr := n } }

/-- R408: IDCODE, in every state but OFF. -/
def execIdcode (s : State) : Host.Outcome State Fault Refusal := .next (s.after <| if s.pm.st == .off then s else s.setIr 0)

/-- R408: BYPASS, in every state but OFF. -/
def execBypass (s : State) : Host.Outcome State Fault Refusal := .next (s.after <| if s.pm.st == .off then s else s.setIr 1)

/-- R408: TREADLE, outside reset. -/
def execTreadle (s : State) : Host.Outcome State Fault Refusal :=
  .next (s.after <| if s.pm.st == .off || s.boot.stage == .inReset then s else s.setIr 2)

/-! ## What the port may reach (R327, R328, R334) -/

/-- R327: the unlock registers. -/
def isUnlockReg (off : Nat) : Bool :=
  off == SS_UNLOCK_CMD.GO.off || (indexAt (SS_CHALLENGE.WORD 0).off 8 8 off).isSome ||
    (indexAt (SS_UNLOCK_BUF.WORD 0).off 8 24 off).isSome

/-- R327, R334: may the port read this offset? -/
def State.treadleReads (s : State) (off : Nat) : Bool :=
  let seen := off == SS_STATUS.LEVEL.off || off < 0x1000
  if s.pm.st == .hold then seen
  else seen || s.sec.level != 0 || off == SS_DEBUG_CTRL.GO.off || isUnlockReg off

/-- R327, R334: may the port write this offset? -/
def State.treadleWrites (s : State) (off : Nat) : Bool :=
  s.pm.st != .hold && (s.sec.level == 2 || off == SS_DEBUG_CTRL.GO.off || isUnlockReg off)

/-- R328: registers that the Treadle port reads as 0. -/
def isSecretReg (off : Nat) : Bool :=
  (indexAt (SS_KEY_BUF.WORD 0).off 8 10 off).isSome || (indexAt (SS_PROV_BUF.WORD 0).off 8 4 off).isSome

/-- R409: can an access be launched? -/
def State.treadleOn (s : State) : Bool := s.pm.st != .off && s.boot.stage != .inReset && s.dbg.tapIr == 2

/-- R409: an access ends with a status. -/
def State.tapEnds (s : State) (code : Nat) : State := { s with dbg := { s.dbg with tapStatus := code } }

/-- What the Treadle port reads at an offset; no field is cleared (R328). -/
def State.treadleWord (s : State) (off : Nat) : W64 :=
  if isSecretReg off || (findReg off).isNone then 0
  else (s.shown off).foldl (fun w x => putBits w x.1.hi x.1.lo x.2) (s.word off)

/-- R409: TREADLE_READ. -/
def execTreadleRead (off : BitVec 26) (s : State) : Host.Outcome State Fault Refusal :=
  .next (s.after <| if !s.treadleOn then s
    else if !s.treadleReads off.toNat then s.tapEnds securityDenied
    else if off.toNat % 8 != 0 then s.tapEnds 1
    else
      let v := s.treadleWord off.toNat
      { s with free := s.free + 1, dbg := { s.dbg with tapStatus := 0, tapData := v } })

/-- R409: TREADLE_NOP makes no access. -/
def execTreadleNop (s : State) : Host.Outcome State Fault Refusal := .next s

/-! ## Halts (R411, R412, R414) -/

/-- The scope of an order, with the fields that it does not use at 0. -/
def haltScope (scope h c : Nat) : HaltReq := ⟨scope, if scope == 0 then 0 else h, if scope == 2 then c else 0⟩

/-- The scope that BD_DBG_HALT names. -/
def State.haltTarget (s : State) : HaltReq :=
  haltScope (s.get BD_DBG_HALT.SCOPE) (s.get BD_DBG_HALT.HARNESS) (s.get BD_DBG_HALT.CORE)

/-- An order of BD_DBG_HALT completes. -/
def State.haltDone (s : State) (code : Nat) : State := s.complete BD_DBG_HALT.GO BD_DBG_HALT.BUSY BD_DBG_HALT.STATUS code

/-- R412: may the Spindle of Harness h stop now: between instances, or, with SPINDLE_FINE, after any instruction? -/
def State.spindleMayStop (s : State) (h : Nat) : Bool :=
  s.flag BD_DBG_CTRL.SPINDLE_FINE || ((s.vectorJob h).isNone && (s.tailJob h).isNone)

/-- R411: can an ordered halt take hold: no block and no proof pick runs on a core that it covers, and its Spindles may stop? -/
def State.haltReady (s : State) (r : HaltReq) : Bool :=
  s.heddle.cores.all (fun k =>
    !r.coversCore (k.1 / 66) (k.1 % 66) || (k.2.blocks.isEmpty && k.2.service != .proving)) &&
  (List.range 8).all (fun h => !r.coversSpindle h || s.spindleMayStop h)

/-- Do the clocks run that the Debug Module needs? -/
def State.debugRuns (s : State) : Bool := s.pm.st != .off && s.pm.st != .hold && s.boot.stage != .inReset

/-- R411: HALT_TAKES_HOLD: the oldest ordered halt whose units have come to rest; the order that asked for it completes. -/
def execHaltTakesHold (s : State) : Host.Outcome State Fault Refusal :=
  .next (s.after <| if !s.debugRuns then s else
    match s.dbg.pendingHalts.find? s.haltReady with
    | none => s
    | some r =>
      let s := s.takeHold r
      if s.flag BD_DBG_HALT.BUSY && s.get BD_DBG_HALT.OP == 0 && s.haltTarget == r then s.haltDone 0 else s)

/-! ## Single step (R415, R416) -/

/-- The oldest due pick of a core (R96). -/
def State.duePick (s : State) (h c : Nat) : Option Pick := (duePicks (s.queuePicks h c)).head?

/-- R95, R415: STEP of a core: its pick steps, and the port shows the fields of that pick (log entry 117). -/
def State.stepCore (s : State) (h c : Nat) : State :=
  if !s.coreHalted h c then s.haltDone 3
  else match s.duePick h c with
    | none => s.haltDone 2
    | some p =>
      let s := (s.leaveIdle).modCore h c (fun k => { k with stepping := some p.id })
      ({ s with dbg := { s.dbg with stepPick := p.words } }).haltDone 0

/-- R416: the next word of a run: an instruction, or the END that closes it. -/
def State.stepWord (s : State) (h : Nat) (j : Job) : State :=
  let m := s.midOf h j
  match (s.runWords h j m)[m.pc]? with
  | some w => s.modSpindle h (fun v => { v with mid := some { m with pc := m.pc + 1, run := m.run.run [w] } })
  | none =>
    let f := s.jobFmts j
    let r := s.endRun h j m f.1 f.2
    (if m.tail then r.1.endInstance h r.2 else r.1.modJob h j.key (fun _ => r.2)).closeVectors h

/-- R416: STEP of a Spindle: the next word of the run in progress, else the first of the next run, else of the next instance. -/
def State.stepSpindle (s : State) (h : Nat) : State :=
  if !s.spindleStopped h then s.haltDone 3
  else if (s.spindle h).failed then s.haltDone 2
  else match (s.vectorJob h).or (s.tailJob h) with
    | some j => ((s.leaveIdle).stepWord h j).haltDone 0
    | none =>
      match s.nextStart h with
      | none => s.haltDone 2
      | some j =>
        let s := (s.leaveIdle).startInstance h j
        match (s.vectorJob h).or (s.tailJob h) with
        | none => s.haltDone 0
        | some j => (s.stepWord h j).haltDone 0

/-- GO of BD_DBG_HALT. -/
def State.takeHalt (s : State) : State :=
  let r := s.haltTarget
  if r.scope == 2 && 66 ≤ r.c then s.haltDone 1
  else match s.get BD_DBG_HALT.OP with
    | 0 =>
      let s := ((s.leaveIdle).orderHalt r).set BD_DBG_HALT.BUSY 1
      { s with dbg := { s.dbg with lastHit := 4, lastIndex := 0 } }
    | 1 => (s.release r).haltDone 0
    | 2 => if r.scope == 2 then s.stepCore r.h r.c else if r.scope == 3 then s.stepSpindle r.h else s.haltDone 1
    | _ => s.haltDone 1

/-- A Treadle write of BD_DBG_HALT. -/
def State.writeHalt (s : State) (v : W64) : State :=
  let s := s.writeFields BD_DBG_HALT.GO.off v
  if bitOf v.toNat 63 then s.takeHalt else s

/-! ## Memory access (R420, R421) -/

/-- Open bytes. -/
def State.openBytes (s : State) (a n : Nat) : State × List Byte :=
  ({ s with free := s.free + 1 }, (List.range n).map (fun i => Config.freeByte s.free (a + i)))

/-- Table 17.3, BOBBIN: a byte of a slice. What a sector that no fill has brought holds is open. -/
def State.memBobbin (s : State) (h a : Nat) (w : Option (List Byte)) : State × MemEnd :=
  if 25165824 ≤ a then (s, ⟨1, none⟩)
  else if w.isSome then (s, ⟨5, none⟩)
  else match mapFind (s.slice h) (a / tileBytes) with
    | none =>
      let x := s.openBytes a 8
      (x.1, ⟨0, some x.2⟩)
    | some f =>
      if f.filling then (s, ⟨2, none⟩)
      else if f.sectors.contains (a % tileBytes / 512) then
        (s, ⟨0, some (getRun f.data (f.tile * tileBytes + a % tileBytes) 8)⟩)
      else
        let x := s.openBytes a 8
        (x.1, ⟨0, some x.2⟩)

/-- Which page a raw frame of a Beam stack holds, if any: the spec does not place the frames, so it is open. -/
def State.rawPage (s : State) (stack : Nat) : State × Option Nat :=
  let ps := (s.tiers.pages.filter (fun q => q.2.st.held && q.2.stack == stack)).map (·.1)
  let f := s.fresh
  (f.2, ps[f.1.toNat % (ps.length + 1)]?)

/-- Table 17.3, BEAM: raw bytes of a stack. -/
def State.memBeam (s : State) (a : Nat) (w : Option (List Byte)) : State × MemEnd :=
  let stack := bitsOf a 38 37
  let x := bitsOf a 36 0
  if 2 ^ 39 ≤ a || 96000000000 ≤ x then (s, ⟨1, none⟩)
  else if s.unitFailed stack then (s, ⟨3, none⟩)
  else
    let p := s.rawPage stack
    match p.2, w with
    | some q, none => (p.1, ⟨0, some (getRun p.1.tiers.beam (q * pageBytes + x % pageBytes) 8)⟩)
    | some q, some bytes =>
      ({ p.1 with tiers := { p.1.tiers with beam := putRun p.1.tiers.beam (q * pageBytes + x % pageBytes) bytes } }, ⟨0, none⟩)
    | none, none =>
      let y := p.1.openBytes a 8
      (y.1, ⟨0, some y.2⟩)
    | none, some _ => (p.1, ⟨0, none⟩)

/-- R271: the Board space byte that offset o on a port is, where the ports are interleaved. -/
def State.portSpace (s : State) (port o : Nat) : Nat := (o / 4096 * s.ports + port) * 4096 + o % 4096

/-- R421: does a byte on a Board port belong to an ENCRYPT region, to its data or its Twill headers? -/
def State.boardEncrypted (s : State) (port o : Nat) : Bool :=
  s.regions.any (fun r => r.backing == 1 && s.encrypted r &&
    if s.interleaved then
      decide (r.backBase ≤ s.portSpace port o) && decide (s.portSpace port o < r.backBase + r.pages * pageBytes)
    else r.port == port && decide (r.backBase ≤ o) && decide (o < r.backBase + r.pages * (pageBytes + 4096)))

/-- Table 17.3, BOARD: raw bytes behind a port. -/
def State.memBoard (s : State) (a : Nat) (w : Option (List Byte)) : State × MemEnd :=
  let port := bitsOf a 45 44
  let o := bitsOf a 43 0
  if 2 ^ 46 ≤ a || s.ports ≤ port || s.get (TM_BOARD_PORT.SIZE port) * pageBytes ≤ o then (s, ⟨1, none⟩)
  else if s.encryptClosed && s.boardEncrypted port o then (s, ⟨securityDenied, none⟩)
  else if s.unitFailed (4 + port) then (s, ⟨3, none⟩)
  else match w with
    | none => (s, ⟨0, some (getRun s.tiers.board (port * 2 ^ 64 + o) 8)⟩)
    | some bytes =>
      ({ s with tiers := { s.tiers with board := putRun s.tiers.board (port * 2 ^ 64 + o) bytes } }, ⟨0, none⟩)

/-- Table 17.3, BACKING: a byte of a BOARD or FLASH region as its backing holds it, decoded and decrypted. -/
def State.memBacking (s : State) (a : Nat) (w : Option (List Byte)) : State × MemEnd :=
  match s.regionOfPage (a / pageBytes) with
  | none => (s, ⟨1, none⟩)
  | some r =>
    if r.backing == 0 then (s, ⟨1, none⟩)
    else if s.encrypted r && s.encryptClosed then (s, ⟨securityDenied, none⟩)
    else if w.isSome then (s, ⟨5, none⟩)
    else if s.backFailed r then (s, ⟨3, none⟩)
    else match s.readBacking r (a / tileBytes) false with
      | .data bytes _ => (s, ⟨0, some ((bytes.drop (a % tileBytes)).take 8)⟩)
      | .decodeError => (s, ⟨3, none⟩)
      | .noKey => (s, ⟨4, none⟩)

/-- Two words in place of two reed words. -/
def putReed (m : SMap (BitVec 32)) (i : Nat) (b : List Byte) : SMap (BitVec 32) :=
  mapPut 0 (mapPut 0 m i (BitVec.ofNat 32 (leNat (b.take 4)))) (i + 1) (BitVec.ofNat 32 (leNat (b.drop 4)))

/-- Table 17.3, CORE: bytes of the banks, the scale stores and the reed tiles of a halted core. -/
def State.memCore (s : State) (h c a : Nat) (w : Option (List Byte)) : State × MemEnd :=
  let kind := bitsOf a 21 20
  let x := bitsOf a 19 0
  let sc := x / 32 * 256 + x % 32
  let top := match kind with
    | 0 => 264 * 1024 | 1 => 264 * 64 | 2 => 64 * 2048 | _ => 0
  if 66 ≤ c || 2 ^ 22 ≤ a || top ≤ x then (s, ⟨1, none⟩)
  else if !s.coreHalted h c then (s, ⟨2, none⟩)
  else
    let k := s.core h c
    match kind, w with
    | 0, none => (s, ⟨0, some (getRun k.banks x 8)⟩)
    | 1, none => (s, ⟨0, some (getRun k.scales sc 8)⟩)
    | _, none => (s, ⟨0, some (toLe 4 (mapGet 0 k.reed (x / 4)).toNat ++ toLe 4 (mapGet 0 k.reed (x / 4 + 1)).toNat)⟩)
    | 0, some b => (s.modCore h c (fun k => { k with banks := putRun k.banks x b }), ⟨0, none⟩)
    | 1, some b => (s.modCore h c (fun k => { k with scales := putRun k.scales sc b }), ⟨0, none⟩)
    | _, some b => (s.modCore h c (fun k => { k with reed := putReed k.reed (x / 4) b }), ⟨0, none⟩)

/-- The registers and VL of a stopped Spindle: those of the run in progress, else as the last run left them. -/
def Spindle.regsNow (v : Spindle) : SpRegs × Nat :=
  match v.mid with
  | some m => (m.run.regs, m.run.vl)
  | none => (v.file, v.vl)

/-- The registers of a stopped Spindle changed. -/
def Spindle.modRegs (v : Spindle) (f : SpRegs → SpRegs) : Spindle :=
  match v.mid with
  | some m => { v with mid := some { m with run := { m.run with regs := f m.run.regs } } }
  | none => { v with file := f v.file }

/-- A list of at least n elements. -/
def widen {α : Type} (d : α) (n : Nat) (l : List α) : List α := l ++ List.replicate (n - l.length) d

/-- Bits of 8 bytes, and 64 bits as bytes. -/
def bitsToBytes (l : List Bool) : List Byte :=
  (List.range 8).map (fun i => BitVec.ofNat 8 (((List.range 8).map (fun k => bit (l.getD (8 * i + k) false) * 2 ^ k)).sum))

/-- R170: the lanes of the mode a Spindle runs in: that of the instance in progress, else of the next; every lane beyond them
reads +0. -/
def State.lanesNow (s : State) (h : Nat) : Nat :=
  match (s.vectorJob h).or (s.tailJob h) with
  | some j => j.width
  | none => s.laneWidth h

/-- Table 17.3, SPINDLE: 8 bytes of a register, of which `width` lanes are in use. -/
def SpRegs.bytesAt (g : SpRegs) (width vl kind r x : Nat) : List Byte :=
  match kind with
  | 0 =>
    let v := g.v.getD r {}
    let lane := fun i => if i < width then v.get i else 0
    toLe 4 (lane (x / 4)).toNat ++ toLe 4 (lane (x / 4 + 1)).toNat
  | 1 => toLe 8 (g.s.getD r 0).toNat
  | _ => bitsToBytes ((List.range 64).map (fun i =>
      decide (8 * x + i < width) && if r == 0 then decide (8 * x + i < vl) else (g.m.getD r []).getD (8 * x + i) false))

/-- Table 17.3, SPINDLE: 8 bytes of a register replaced. -/
def SpRegs.putBytes (g : SpRegs) (kind r x : Nat) (b : List Byte) : SpRegs :=
  match kind with
  | 0 =>
    let v := g.v.getD r {}
    let lanes := setAt (setAt (widen v.rest (x / 4 + 2) v.lanes) (x / 4) (BitVec.ofNat 32 (leNat (b.take 4)))) (x / 4 + 1)
      (BitVec.ofNat 32 (leNat (b.drop 4)))
    { g with v := setAt (widen {} 16 g.v) r { v with lanes := lanes } }
  | 1 => { g with s := setAt (widen 0 16 g.s) r (BitVec.ofNat 32 (leNat (b.take 4))) }
  | _ =>
    let n := leNat b
    let m := (List.range 64).foldl (fun m i => setAt m (8 * x + i) (bitOf n i)) (widen false (8 * x + 64) (g.m.getD r []))
    { g with m := setAt (widen [] 8 g.m) r m }

/-- Table 17.3, SPINDLE: the registers of a stopped Spindle. -/
def State.memSpindle (s : State) (h a : Nat) (w : Option (List Byte)) : State × MemEnd :=
  let kind := bitsOf a 21 20
  let r := bitsOf a 19 16
  let x := bitsOf a 15 0
  let top := match kind with
    | 0 => 8192 | 1 => 8 | 2 => if r < 8 then 256 else 0 | _ => 0
  if 2 ^ 22 ≤ a || top ≤ x then (s, ⟨1, none⟩)
  else if !s.spindleStopped h then (s, ⟨2, none⟩)
  else match w with
    | none =>
      let g := (s.spindle h).regsNow
      (s, ⟨0, some (g.1.bytesAt (s.lanesNow h) g.2 kind r x)⟩)
    | some b =>
      if kind == 2 && r == 0 then (s, ⟨5, none⟩)
      else (s.modSpindle h (fun v => v.modRegs (fun g => g.putBytes kind r x b)), ⟨0, none⟩)

/-- R420: an access to a tier, other than LOOM, that BD_DBG_MEM_CMD names. `w`: the bytes that it writes. -/
def State.memAccess (s : State) (a : Nat) (w : Option (List Byte)) : State × MemEnd :=
  let h := s.get BD_DBG_MEM_CMD.HARNESS
  if a % 8 != 0 then (s, ⟨1, none⟩)
  else match s.get BD_DBG_MEM_CMD.TIER with
    | 1 => s.memBobbin h a w
    | 2 => s.memBeam a w
    | 3 => s.memBoard a w
    | 4 => s.memBacking a w
    | 5 => s.memCore h (s.get BD_DBG_MEM_CMD.CORE) a w
    | 6 => s.memSpindle h a w
    | _ => (s, ⟨1, none⟩)

/-- GO of BD_DBG_MEM_CMD. A LOOM access waits, BUSY, for tiles on their way to Beam (R249). -/
def State.takeMem (s : State) : State :=
  let s := s.leaveIdle
  let w := if s.flag BD_DBG_MEM_CMD.WRITE then some (wordBytes (s.word BD_DBG_MEM_DATA.DATA.off)) else none
  let a := s.get BD_DBG_MEM_ADDR.ADDR
  if a % 8 == 0 && s.get BD_DBG_MEM_CMD.TIER == 0 then
    ((s.set BD_DBG_MEM_CMD.BUSY 1).addWork (.debugMem a w)).carryOn
  else
    let r := s.memAccess a w
    r.1.memDone r.2

/-! ## Writes through the port (R409, R410) -/

/-- A write of a Treadle register. -/
def State.writeDebug (s : State) (off : Nat) (v : W64) : State :=
  if off == BD_DBG_HALT.GO.off then s.writeHalt v
  else if off == BD_DBG_MEM_CMD.GO.off then s.issue v BD_DBG_MEM_CMD.GO BD_DBG_MEM_CMD.BUSY State.takeMem
  else s.writeFields off v

/-- R409: a write through the Treadle port. -/
def State.treadleWrite (s : State) (off : Nat) (v : W64) : State :=
  if !s.treadleOn then s
  else if !s.treadleWrites off then s.tapEnds securityDenied
  else if off % 8 != 0 then s.tapEnds 1
  else (if isTreadleReg off then s.after (s.writeDebug off v) else s.writeReg off v).tapEnds 0

/-- R409: TREADLE_WRITE. -/
def execTreadleWrite (off : BitVec 26) (v : W64) (s : State) : Host.Outcome State Fault Refusal :=
  .next (s.treadleWrite off.toNat v)

/-- The word of BD_DBG_HALT that issues an order. -/
def haltWord (op scope h c : Nat) : W64 :=
  cmdWord [(BD_DBG_HALT.GO, 1), (BD_DBG_HALT.OP, op), (BD_DBG_HALT.SCOPE, scope), (BD_DBG_HALT.HARNESS, h),
    (BD_DBG_HALT.CORE, c)]

/-- R411: HALT, a Treadle write of BD_DBG_HALT. -/
def execHalt (scope : BitVec 2) (h : Fin 8) (c : BitVec 7) (s : State) : Host.Outcome State Fault Refusal :=
  .next (s.treadleWrite BD_DBG_HALT.GO.off (haltWord 0 scope.toNat h.val c.toNat))

/-- R414: RESUME, a Treadle write of BD_DBG_HALT. -/
def execResume (scope : BitVec 2) (h : Fin 8) (c : BitVec 7) (s : State) : Host.Outcome State Fault Refusal :=
  .next (s.treadleWrite BD_DBG_HALT.GO.off (haltWord 1 scope.toNat h.val c.toNat))

/-- R415, R416: STEP, a Treadle write of BD_DBG_HALT. -/
def execStep (scope : BitVec 2) (h : Fin 8) (c : BitVec 7) (s : State) : Host.Outcome State Fault Refusal :=
  .next (s.treadleWrite BD_DBG_HALT.GO.off (haltWord 2 scope.toNat h.val c.toNat))

/-- The word of BD_DBG_MEM_CMD that issues an access to the tier and unit it names already. -/
def State.memWord (s : State) (write : Nat) : W64 :=
  cmdWord [(BD_DBG_MEM_CMD.GO, 1), (BD_DBG_MEM_CMD.WRITE, write), (BD_DBG_MEM_CMD.TIER, s.get BD_DBG_MEM_CMD.TIER),
    (BD_DBG_MEM_CMD.HARNESS, s.get BD_DBG_MEM_CMD.HARNESS), (BD_DBG_MEM_CMD.CORE, s.get BD_DBG_MEM_CMD.CORE)]

/-- R420: DEBUG_MEM_READ. -/
def execDebugMemRead (s : State) : Host.Outcome State Fault Refusal :=
  .next (s.treadleWrite BD_DBG_MEM_CMD.GO.off (s.memWord 0))

/-- R420: DEBUG_MEM_WRITE. -/
def execDebugMemWrite (s : State) : Host.Outcome State Fault Refusal :=
  .next (s.treadleWrite BD_DBG_MEM_CMD.GO.off (s.memWord 1))

/-! ## Cross-trigger wires (R422, R423) -/

/-- R422: XTRIG_IN: a counted rise orders IN_ACTION, at FULL only. -/
def execXtrigIn (s : State) : Host.Outcome State Fault Refusal :=
  .next (s.after <| if !s.debugRuns then s else
    let s := s.bump BD_DBG_XTRIG.IN_COUNT
    if s.sec.level != 2 then s
    else match s.get BD_DBG_XTRIG.IN_ACTION with
      | 1 =>
        let s := (s.leaveIdle).orderHalt ⟨0, 0, 0⟩
        { s with dbg := { s.dbg with lastHit := 3, lastIndex := 0 } }
      | 2 => s.release ⟨0, 0, 0⟩
      | _ => s)

/-- R423: XTRIG_PULSE_END: 8 SCLK cycles have passed since the last event that drives the output. -/
def execXtrigPulseEnd (s : State) : Host.Outcome State Fault Refusal :=
  .next { s with dbg := { s.dbg with xtrigOut := false } }

end Sys2Proof.Machine
end

