-- ==== Sys2Proof/Machine/Weft.lean ====
section
/-! DEFINITION. The Weft port's commands (chapter 3): parts of bolts, row records, the gap after a reserved format, CRC
retries, records and completions on the egress, and the completion interrupt. -/

namespace Sys2Proof.Machine

/-! ## Ingress (R56, R59, R61, R66, R435) -/

/-- R56: the bytes of a beat. -/
def beatBytes : Nat := 1184

/-- R56: the beats that the next n bytes of a link lie in: the first may be shared with what came before. -/
def Link.beats (l : Link) (n : Nat) : Nat := ceilDiv (l.inPos + n) beatBytes

/-- R59: have the next bytes begun in a beat that is discarded already? -/
def Link.inGoneBeat (l : Link) : Bool := l.inGone && l.inPos != 0

/-- R56, R59: n bytes have come on a link; `gone`: the beat that they end in has been discarded. -/
def State.passBytes (s : State) (l n : Nat) (gone : Bool) : State :=
  s.modLink l (fun x => { x with inPos := (x.inPos + n) % beatBytes, inGone := gone })

/-- R59: discarded beats: WP_STATUS shows them, the link counts them, Custody records each. -/
def State.overrun (s : State) (l n : Nat) : State :=
  if n == 0 then s else
  (List.range n).foldl (fun s _ => s.recordFault { cls := 3, source := 0, harness := l, detail := l })
    ((s.set WP_STATUS.INGRESS_OVERRUN 1).bump (WP_LINK_EVENTS.OVERRUN l) n)

/-- R355, R435: n bytes on a failed link, or on one that has lost its place: every beat of theirs is discarded, and counted once. -/
def State.dropBytes (s : State) (l n : Nat) : State :=
  let x := s.link l
  (s.bump (WP_LINK_EVENTS.OVERRUN l) (x.beats n - (if x.inGoneBeat then 1 else 0))).passBytes l n true

/-- R59: the beats of a record of n bytes that find no room in the replay buffer with `free` bytes left, besides one discarded
already, and whether its last beat is one. -/
def Link.lostBeats (l : Link) (n free : Nat) : Nat × Bool :=
  let fit := if n ≤ free then l.beats n else (l.inPos + free) / beatBytes
  let lost := l.beats n - fit
  (lost - (if l.inGoneBeat && fit == 0 then 1 else 0), lost != 0 || (l.inGoneBeat && l.beats n == 1))

/-- Table 3.11: the code with which a new bolt is refused at its arrival, if any. -/
def State.arrivalCode (s : State) (l : Nat) (d : List W64) : Option Nat :=
  if !s.boltsAllowed then some 0x60
  else if 64 ≤ s.boltsInFlight then some 0x72
  else if badDescriptor d || badPart [] d l d then some 0x70
  else if s.expired (dAngle d) then some 0x71
  else none

/-- R61, R65: the first part of a bolt puts it into the bolt table. -/
def State.newBolt (s : State) (l : Nat) (d : List W64) : State :=
  let code := s.arrivalCode l d
  let b : Bolt := { id := dBoltId d, desc := d, refused := code, turnedAway := code.isSome, aclk := s.cust.aclk,
                    parts := [{ link := l, first := dFirstRow d, count := dPartRows d }],
                    opened := s.accepted (dAngle d) }
  { s with weft := { s.weft with bolts := s.weft.bolts ++ [b] } }

/-- R61: a further part of a bolt in flight; a faulty one makes the bolt BOLT_INVALID. -/
def State.morePart (s : State) (b : Bolt) (l : Nat) (d : List W64) : State :=
  if b.st != .running then s else
  let s' := s.modBolt b.id (fun y => { y with
    parts := y.parts ++ [{ link := l, first := dFirstRow d, count := dPartRows d }] })
  if badPart b.parts b.desc l d then s'.invalidBolt b.id else s'

/-- R66, R198: the part with FIRST_ROW 0 is accepted: its bolt's place in bolt order, and its order. -/
def State.acceptFirst (s : State) (id : Nat) (d : List W64) (rival : Option Rival) (rivalMask : Nat) : State :=
  match s.bolt? id with
  | none => s
  | some b =>
    if dFirstRow d == 0 && !b.begun && b.refused.isNone && !b.stopped && b.st == .running && !b.internal then
      let s := s.modBolt id (fun y => { y with order := s.weft.orderClock, begun := true })
      { s with weft := { s.weft with orderClock := s.weft.orderClock + 1 } }.dispatchEmbedded id rival rivalMask
    else s

/-- R59: the beats of a descriptor. `discarded`: those that are not discarded already found no room. Answers whether it lies in a
discarded beat. -/
def State.descBeats (s : State) (l : Nat) (discarded : Bool) : State × Bool :=
  let x := s.link l
  let s := if discarded then s.overrun l (x.beats 64 - (if x.inGoneBeat then 1 else 0)) else s
  (s.passBytes l 64 (discarded || (x.inGoneBeat && x.beats 64 == 1)), discarded || x.inGoneBeat)

/-- R59, R65: a part in a discarded beat: its bolt is BOLT_INVALID; a bolt new with it is refused at its arrival. -/
def State.lostPart (s : State) (id : Nat) (new : Bool) : State :=
  (s.invalidBolt id).modBolt id (fun b => { b with overrun := true, turnedAway := b.turnedAway || new })

/-- R61: the descriptor of a part lands. `discarded`: its beat found no room (R59). -/
def State.takePart (s : State) (l : Nat) (d : List W64) (discarded : Bool) (rival : Option Rival)
    (rivalMask : Nat) : State :=
  let id := dBoltId d
  let r := s.descBeats l discarded
  let new := (s.bolt? id).isNone
  let s := match r.1.bolt? id with
    | none => r.1.newBolt l d
    | some b => r.1.morePart b l d
  let s := if r.2 then s.lostPart id new else s
  let s := s.acceptFirst id d rival rivalMask
  if 6 < dInFmt d then
    -- R435: the beats that follow the descriptor's are discarded
    (s.modLink l (fun x => { x with desync := true, inGone := true })).recordFault { cls := 3, source := 0, harness := l, detail := l }
  else if dPartRows d == 0 then s
  else s.modLink l (fun x => { x with cursor := some (id, dPartRows d), size := recordBytes d })

/-- R61: BOLT_PART. -/
def execBoltPart (link : Fin 8) (desc : List W64) (discarded : Bool) (rival : Option Rival) (rivalMask : BitVec 8)
    (s : State) : Host.Outcome State Fault Refusal :=
  .next (s.after <| let l := s.link link.val
    if !s.serving then s
    else if !l.up || l.desync then s.leaveIdle.dropBytes link.val 64
    else if l.cursor.isSome then s
    else s.leaveIdle.takePart link.val desc discarded rival rivalMask.toNat)

/-- R74, R67: a row record is kept in the replay buffer of its link. -/
def State.keepRow (s : State) (l : Nat) (b : Bolt) (p : Part) (m0 m1 : W64) (payload : List Byte) : State :=
  let r : Row := { index := p.first + p.got, link := l, meta0 := m0, meta1 := m1,
                   payload := (padTo (payloadPadded (dFmt b.desc) (dDin b.desc)) payload).take
                     (payloadPadded (dFmt b.desc) (dDin b.desc)) }
  s.modBolt b.id (fun y => { y with rows := y.rows ++ [r], lastBeat := s.cust.aclk, unmasked := y.unmasked || !r.mask })

/-- R59: the beats of the next row record of a link: those that find no room are discarded. Answers whether one of them is. -/
def State.rowBeats (s : State) (l : Nat) : State × Bool :=
  let x := s.link l
  let r := x.lostBeats x.size (replayBytes - s.occupancy l)
  ((s.overrun l r.1).passBytes l x.size r.2, r.1 != 0 || x.inGoneBeat)

/-- One row record of a part: kept, passed over with its bolt (R435, R78), or lost with a discarded beat (R59). -/
def State.takeRow (s : State) (l : Nat) (id : Nat) (m0 m1 : W64) (payload : List Byte) : State :=
  let r := s.rowBeats l
  let s := r.1
  match s.bolt? id with
  | none => s
  | some b =>
    match b.parts.find? (fun p => p.link == l && decide (p.got < p.count)) with
    | none => s
    | some p =>
      let gone := b.refused.isSome || b.stopped || b.internal || b.st != .running
      let s := if r.2 then s.lostPart id false
        else if gone then s
        else (s.keepRow l b p m0 m1 payload).releaseFed
      s.modBolt id (fun y => { y with
        parts := modWhere (fun q => q.link == l && q.first == p.first) (fun q => { q with got := q.got + 1 }) y.parts })

/-- R74: ROW_RECORD. -/
def execRowRecord (link : Fin 8) (meta0 meta1 : W64) (payload : List Byte) (s : State) : Host.Outcome State Fault Refusal :=
  .next (s.after <| let l := s.link link.val
    if !s.serving then s
    else if !l.up || l.desync then s.leaveIdle.dropBytes link.val (16 + payload.length)
    else match l.cursor with
      | none => s
      | some (id, left) =>
        (s.leaveIdle.modLink link.val (fun x => { x with cursor := if left ≤ 1 then none else some (id, left - 1) })).takeRow
          link.val id meta0 meta1 payload)

/-- R435: after 16 cycles without a beat the link takes a descriptor again, at byte 0 of a beat. -/
def execDesyncGapEnd (link : Fin 8) (s : State) : Host.Outcome State Fault Refusal :=
  .next (s.after <| if s.powered then s.modLink link.val (fun x => if x.desync then { x with desync := false, cursor := none, inPos := 0, inGone := false } else x)
    else s)

/-- R57: a framing window is sent again; `passed`: its CRC holds now. The sixteenth failure in a row fails the link. -/
def execCrcRetry (link : Fin 8) (passed : Bool) (s : State) : Host.Outcome State Fault Refusal :=
  .next (s.after <| let l := s.link link.val
    if !s.powered || !l.up then s else
    let s := s.bump (WP_LINK_EVENTS.CRC_RETRY link.val)
    let n := if passed then 0 else l.crcFails + 1
    let s := s.modLink link.val (fun x => { x with crcFails := n })
    if 16 ≤ n then s.failLink link.val else s)

/-! ## Egress (R71 to R73, R76 to R80) -/

/-- R71, R72: a record has left: its result stands, and its flags reach its bolt's completion. -/
def State.recordLeft (s : State) (e : Egress) : State :=
  let w := leNat (e.bytes.take 8)
  let s := s.modBolt e.bolt (fun b => { b with nanSeen := b.nanSeen || bitOf w 36, satSeen := b.satSeen || bitOf w 35 })
  (s.modResult e.bolt e.row e.proj (fun r => { r with emitted := true })).releaseRow e.bolt e.row

/-- LS_SPRINT_EVENTS.LAST_CYCLES: a row record of the flying-shuttle bolt has left; the last one's count stands. -/
def State.sprintBeat (s : State) (bolt : Nat) : State :=
  match s.heddle.sprint with
  | some f => if f.bolt == bolt then s.set LS_SPRINT_EVENTS.LAST_CYCLES (min 65535 (s.cust.aclk - f.startAclk)) else s
  | none => s

/-- R56, R73: a run goes out on a link, right behind the one before it. -/
def Link.send (l : Link) (run : List Byte) : Link := { l with out := run, outPos := (l.outPos + run.length) % beatBytes }

/-- R72, R73: the oldest record waiting on a link leaves, in a run of its own. -/
def execEgressRecordEmit (link : Fin 8) (s : State) : Host.Outcome State Fault Refusal :=
  .next (s.after <| if !s.serving then s else
    match (s.link link.val).egress with
    | [] => s
    | e :: rest =>
      let run := (runHeader 1 0 e.bolt).flatMap wordBytes ++ e.bytes
      ((s.modLink link.val (fun l => { l with egress := rest }.send run)).recordLeft e).sprintBeat e.bolt)

/-- R310, R314: a bolt completes: one in flying-shuttle mode leaves the mode, and the hold of every core begins. -/
def State.leaveSprint (s : State) (b : Bolt) : State :=
  let s := if s.heddle.sprint.any (·.bolt == b.id) then { s with heddle := { s.heddle with sprint := none } } else s
  if b.sprint && s.get LS_SPRINT_ROWS.HOLD_US != 0 then { s with heddle := { s.heddle with sprintHold := true } } else s

/-- R76, R78, R79: the completion record of a bolt goes out, as a run of its own. -/
def State.emitCompletion (s : State) (b : Bolt) : State :=
  let run := (runHeader 1 1 b.id).flatMap wordBytes ++ b.completion.flatMap wordBytes
  let l := s.completionLink b
  let links := s.weft.links.map (fun x => { x with egress := x.egress.filter (fun e => e.bolt != b.id) })
  let s := { s with weft := { s.weft with links := links } }
  let s := (s.modLink l (fun x => x.send run)).modBolt b.id (fun y => { y with st := .emitted })
  let s := s.bump WP_BOLT_EVENTS.COMPLETED
  let s := if b.status == 0x70 || b.status == 0x71 || b.status == 0x72 then s.bump WP_BOLT_EVENTS.REFUSED else s
  (if b.replayed then s.bump WP_BOLT_EVENTS.REPLAYED else s).leaveSprint b

/-- R79: COMPLETION_EMIT. A remote bolt ends in RESPONSE messages instead (R288). -/
def execCompletionEmit (bolt : BitVec 32) (s : State) : Host.Outcome State Fault Refusal :=
  .next (s.after <| if !s.powered then s else
    match s.named bolt.toNat (fun b => s.mayComplete b || s.mayAnswer b) with
    | none => s
    | some b => if s.mayAnswer b then s.sendAnswers b false
      else if b.remote.isSome then s.endRemote b
      else s.emitCompletion b)

/-- R65, R80: the host has accepted a completion: the bolt leaves flight. -/
def State.acceptCompletion (s : State) (b : Bolt) : State :=
  let s := { s with weft := { s.weft with bolts := s.weft.bolts.filter (fun x => x.id != b.id) } }
  s.bump WP_CPL_PENDING.COUNT

/-- R80: COMPLETION_ACCEPTED. -/
def execCompletionAccepted (bolt : BitVec 32) (s : State) : Host.Outcome State Fault Refusal :=
  .next (s.after <| if !s.powered then s else
    match s.bolt? bolt.toNat with
    | none => s
    | some b => if b.st == .emitted then s.acceptCompletion b else s)

/-- R80: the oldest counted completion has waited HOLDOFF_US. -/
def execIrqDoneHoldoff (s : State) : Host.Outcome State Fault Refusal :=
  .next (s.after <| if s.powered && s.get WP_CPL_PENDING.COUNT != 0 then { s with weft := { s.weft with holdoffHit := true } } else s)

end Sys2Proof.Machine
end

