-- ==== Sys2Proof/Machine/Dispatch.lean ====
section
/-! DEFINITION. What each command does: one arm per constructor, each a call of its meaning. -/

namespace Sys2Proof.Machine

/-- The effect of a command on everything but the queue. -/
def exec (i : Instr) (s : State) : Host.Outcome State Fault Refusal :=
  match i with
  | .angleWord w => Sys2Proof.Machine.execAngleWord w s
  | .angleClassify => Sys2Proof.Machine.execAngleClassify s
  | .boundaryComplete => Sys2Proof.Machine.execBoundaryComplete s
  | .angleWatchdogExpiry => Sys2Proof.Machine.execAngleWatchdogExpiry s
  | .rebase => Sys2Proof.Machine.execRebase s
  | .cardCommit => Sys2Proof.Machine.execCardCommit s
  | .nop o => Sys2Proof.Machine.execNop o s
  | .prefetchSet o => Sys2Proof.Machine.execPrefetchSet o s
  | .releaseSet o => Sys2Proof.Machine.execReleaseSet o s
  | .commitVersion o => Sys2Proof.Machine.execCommitVersion o s
  | .beginReshard o => Sys2Proof.Machine.execBeginReshard o s
  | .setExchangeDeadline o => Sys2Proof.Machine.execSetExchangeDeadline o s
  | .rampHarness o rivalMask => Sys2Proof.Machine.execRampHarness o rivalMask s
  | .drainTally o => Sys2Proof.Machine.execDrainTally o s
  | .snapshotCounters o => Sys2Proof.Machine.execSnapshotCounters o s
  | .boltPart link desc discarded rival rivalMask => Sys2Proof.Machine.execBoltPart link desc discarded rival rivalMask s
  | .rowRecord link meta0 meta1 payload => Sys2Proof.Machine.execRowRecord link meta0 meta1 payload s
  | .desyncGapEnd link => Sys2Proof.Machine.execDesyncGapEnd link s
  | .crcRetry link passed => Sys2Proof.Machine.execCrcRetry link passed s
  | .groupingWindowClose bolt => Sys2Proof.Machine.execGroupingWindowClose bolt s
  | .turnPlace h => Sys2Proof.Machine.execTurnPlace h s
  | .pickEnqueue h c => Sys2Proof.Machine.execPickEnqueue h c s
  | .rowStageCopy h => Sys2Proof.Machine.execRowStageCopy h s
  | .blockIssue h c => Sys2Proof.Machine.execBlockIssue h c s
  | .load h c => Sys2Proof.Machine.execLoad h c s
  | .swap h c => Sys2Proof.Machine.execSwap h c s
  | .drain h c => Sys2Proof.Machine.execDrain h c s
  | .coreGate h c => Sys2Proof.Machine.execCoreGate h c s
  | .coreRamp h c => Sys2Proof.Machine.execCoreRamp h c s
  | .sprintHoldExpiry => Sys2Proof.Machine.execSprintHoldExpiry s
  | .strandCombine h => Sys2Proof.Machine.execStrandCombine h s
  | .longSumFinish adapter layer proj isB => Sys2Proof.Machine.execLongSumFinish adapter layer proj isB s
  | .spindleInstanceStart h => Sys2Proof.Machine.execSpindleInstanceStart h s
  | .spindleVector h mismatch => Sys2Proof.Machine.execSpindleVector h mismatch s
  | .spindleTail h mismatch => Sys2Proof.Machine.execSpindleTail h mismatch s
  | .normAndScalars adapter => Sys2Proof.Machine.execNormAndScalars adapter s
  | .spindleParityError h block inSlot => Sys2Proof.Machine.execSpindleParityError h block inSlot s
  | .svMapWrite h k v => Sys2Proof.Machine.execSvMapWrite h k v s
  | .svProgWrite h slot word v => Sys2Proof.Machine.execSvProgWrite h slot word v s
  | .spindleResume h => Sys2Proof.Machine.execSpindleResume h s
  | .dirWrite adapter => Sys2Proof.Machine.execDirWrite adapter s
  | .dirRead adapter => Sys2Proof.Machine.execDirRead adapter s
  | .dirInvalidate adapter => Sys2Proof.Machine.execDirInvalidate adapter s
  | .dirUpdate adapter => Sys2Proof.Machine.execDirUpdate adapter s
  | .dirSetPending adapter => Sys2Proof.Machine.execDirSetPending adapter s
  | .deferredRegisterWrite off v => Sys2Proof.Machine.execDeferredRegisterWrite off v s
  | .tableDefine k word v => Sys2Proof.Machine.execTableDefine k word v s
  | .replaceRow table row => Sys2Proof.Machine.execReplaceRow table row s
  | .clearRow table row => Sys2Proof.Machine.execClearRow table row s
  | .tileFillIssue unit => Sys2Proof.Machine.execTileFillIssue unit s
  | .tileFillComplete unit hostBytes => Sys2Proof.Machine.execTileFillComplete unit hostBytes s
  | .writeBackComplete unit => Sys2Proof.Machine.execWriteBackComplete unit s
  | .engineWriteLand => Sys2Proof.Machine.execEngineWriteLand s
  | .tierErrorResponse unit => Sys2Proof.Machine.execTierErrorResponse unit s
  | .tierTimeout unit => Sys2Proof.Machine.execTierTimeout unit s
  | .pageTableCopyComplete => Sys2Proof.Machine.execPageTableCopyComplete s
  | .regionWrite k word v => Sys2Proof.Machine.execRegionWrite k word v s
  | .flashNsWrite j word v => Sys2Proof.Machine.execFlashNsWrite j word v s
  | .flush count => Sys2Proof.Machine.execFlush count s
  | .evict count rival => Sys2Proof.Machine.execEvict count rival s
  | .pageInvalidate count rival => Sys2Proof.Machine.execPageInvalidate count rival s
  | .pin count rival => Sys2Proof.Machine.execPin count rival s
  | .unpin count => Sys2Proof.Machine.execUnpin count s
  | .restore count => Sys2Proof.Machine.execRestore count s
  | .zero count => Sys2Proof.Machine.execZero count s
  | .copy count => Sys2Proof.Machine.execCopy count s
  | .read64 => Sys2Proof.Machine.execRead64 s
  | .write64 => Sys2Proof.Machine.execWrite64 s
  | .clearPoison count => Sys2Proof.Machine.execClearPoison count s
  | .returnUnit => Sys2Proof.Machine.execReturnUnit s
  | .roundDeadlineExpiry => Sys2Proof.Machine.execRoundDeadlineExpiry s
  | .requestMessage m => Sys2Proof.Machine.execRequestMessage m s
  | .responseMessage m => Sys2Proof.Machine.execResponseMessage m s
  | .gradientMessage m => Sys2Proof.Machine.execGradientMessage m s
  | .normMessage m => Sys2Proof.Machine.execNormMessage m s
  | .gatherMessage m => Sys2Proof.Machine.execGatherMessage m s
  | .moveMessage m => Sys2Proof.Machine.execMoveMessage m s
  | .messageDelivered id => Sys2Proof.Machine.execMessageDelivered id s
  | .messageUndeliverable id => Sys2Proof.Machine.execMessageUndeliverable id s
  | .peerTimeout id => Sys2Proof.Machine.execPeerTimeout id s
  | .reshardAbort rival => Sys2Proof.Machine.execReshardAbort rival s
  | .sxNodeWrite v => Sys2Proof.Machine.execSxNodeWrite v s
  | .sxEpochWrite v => Sys2Proof.Machine.execSxEpochWrite v s
  | .loadPlain kind slot => Sys2Proof.Machine.execLoadPlain kind slot s
  | .loadWrapped kind slot => Sys2Proof.Machine.execLoadWrapped kind slot s
  | .erase kind slot => Sys2Proof.Machine.execErase kind slot s
  | .eraseAll => Sys2Proof.Machine.execEraseAll s
  | .keyEraseRelease => Sys2Proof.Machine.execKeyEraseRelease s
  | .regionKeyWrite k v => Sys2Proof.Machine.execRegionKeyWrite k v s
  | .provBufWrite word v => Sys2Proof.Machine.execProvBufWrite word v s
  | .lifecycleBurn target => Sys2Proof.Machine.execLifecycleBurn target s
  | .debugLevelRequest level => Sys2Proof.Machine.execDebugLevelRequest level s
  | .unlockNew purpose nonce => Sys2Proof.Machine.execUnlockNew purpose nonce s
  | .unlockGo => Sys2Proof.Machine.execUnlockGo s
  | .unlockVerifyDone => Sys2Proof.Machine.execUnlockVerifyDone s
  | .grantErase => Sys2Proof.Machine.execGrantErase s
  | .grantComplete => Sys2Proof.Machine.execGrantComplete s
  | .coreParityError h c store unit => Sys2Proof.Machine.execCoreParityError h c store unit s
  | .blockTimeout h c => Sys2Proof.Machine.execBlockTimeout h c s
  | .replayEccError h bolt row staged => Sys2Proof.Machine.execReplayEccError h bolt row staged s
  | .bobbinEccError h tile => Sys2Proof.Machine.execBobbinEccError h tile s
  | .internalError subsystem => Sys2Proof.Machine.execInternalError subsystem s
  | .retireCore h c rival => Sys2Proof.Machine.execRetireCore h c rival s
  | .retireHarness h => Sys2Proof.Machine.execRetireHarness h s
  | .returnCore h c rival => Sys2Proof.Machine.execReturnCore h c rival s
  | .proofPickEnd h signature markersOk parityOk => Sys2Proof.Machine.execProofPickEnd h signature markersOk parityOk s
  | .faultTailWrite v => Sys2Proof.Machine.execFaultTailWrite v s
  | .tallyRingWrite v => Sys2Proof.Machine.execTallyRingWrite v s
  | .tallyDrain => Sys2Proof.Machine.execTallyDrain s
  | .tallyEntryWrite => Sys2Proof.Machine.execTallyEntryWrite s
  | .powerHold rival => Sys2Proof.Machine.execPowerHold rival s
  | .powerRun rival => Sys2Proof.Machine.execPowerRun rival s
  | .holdReached => Sys2Proof.Machine.execHoldReached s
  | .holdExitComplete failedStacks => Sys2Proof.Machine.execHoldExitComplete failedStacks s
  | .idleEntry => Sys2Proof.Machine.execIdleEntry s
  | .grantWindow => Sys2Proof.Machine.execGrantWindow s
  | .sensorSample readings => Sys2Proof.Machine.execSensorSample readings s
  | .critHoldExpiry => Sys2Proof.Machine.execCritHoldExpiry s
  | .powerEstimate watts => Sys2Proof.Machine.execPowerEstimate watts s
  | .supplyLow rail mv => Sys2Proof.Machine.execSupplyLow rail mv s
  | .supplyRecovered => Sys2Proof.Machine.execSupplyRecovered s
  | .railLoss => Sys2Proof.Machine.execRailLoss s
  | .refclkLoss => Sys2Proof.Machine.execRefclkLoss s
  | .zqResetN l => Sys2Proof.Machine.execZqResetN l s
  | .zqPwrok l => Sys2Proof.Machine.execZqPwrok l s
  | .zqThrottle l => Sys2Proof.Machine.execZqThrottle l s
  | .throttleStuck => Sys2Proof.Machine.execThrottleStuck s
  | .zqWake l => Sys2Proof.Machine.execZqWake l s
  | .resetRelease f => Sys2Proof.Machine.execResetRelease f s
  | .imageCheck => Sys2Proof.Machine.execImageCheck s
  | .bootComplete probeFails spindleFails bootUs => Sys2Proof.Machine.execBootComplete probeFails spindleFails bootUs s
  | .flashRead => Sys2Proof.Machine.execFlashRead s
  | .erase4k => Sys2Proof.Machine.execErase4k s
  | .program => Sys2Proof.Machine.execProgram s
  | .flashCommandDone timedOut => Sys2Proof.Machine.execFlashCommandDone timedOut s
  | .idcode => Sys2Proof.Machine.execIdcode s
  | .bypass => Sys2Proof.Machine.execBypass s
  | .treadle => Sys2Proof.Machine.execTreadle s
  | .treadleRead off => Sys2Proof.Machine.execTreadleRead off s
  | .treadleWrite off v => Sys2Proof.Machine.execTreadleWrite off v s
  | .treadleNop => Sys2Proof.Machine.execTreadleNop s
  | .halt scope h c => Sys2Proof.Machine.execHalt scope h c s
  | .haltTakesHold => Sys2Proof.Machine.execHaltTakesHold s
  | .resume scope h c => Sys2Proof.Machine.execResume scope h c s
  | .step scope h c => Sys2Proof.Machine.execStep scope h c s
  | .debugMemRead => Sys2Proof.Machine.execDebugMemRead s
  | .debugMemWrite => Sys2Proof.Machine.execDebugMemWrite s
  | .xtrigIn => Sys2Proof.Machine.execXtrigIn s
  | .xtrigPulseEnd => Sys2Proof.Machine.execXtrigPulseEnd s
  | .egressRecordEmit link => Sys2Proof.Machine.execEgressRecordEmit link s
  | .completionEmit bolt => Sys2Proof.Machine.execCompletionEmit bolt s
  | .completionAccepted bolt => Sys2Proof.Machine.execCompletionAccepted bolt s
  | .irqDoneHoldoff => Sys2Proof.Machine.execIrqDoneHoldoff s
  | .cplPendingRead => Sys2Proof.Machine.execCplPendingRead s
  | .rcRead off size => Sys2Proof.Machine.execRcRead off size s
  | .registerWrite off size v => Sys2Proof.Machine.execRegisterWrite off size v s
  | .powerUp => Sys2Proof.Machine.execPowerUp s
  | .holdExitBegin => Sys2Proof.Machine.execHoldExitBegin s
  | .queuePairBind q bound => Sys2Proof.Machine.execQueuePairBind q bound s

end Sys2Proof.Machine
end

