-- ==== Sys2Proof/Machine/Tick.lean ====
section
/-! DEFINITION. One SCLK cycle in which no command comes (log entry 5): ACLK advances by two cycles, the engine leaves IDLE
where a condition of R373 fails, and the counters that count cycles of waiting count. -/

namespace Sys2Proof.Machine

/-- ACLK cycles in one SCLK cycle (Table 1.2). -/
def aclkPerTick : Nat := 2

/-- The due picks of a core whose next block waits, each with its cause (R97). -/
def State.waiters (s : State) (h c : Nat) : List (Pick × Nat) :=
  (duePicks (s.queuePicks h c)).filterMap (fun p =>
    if p.issued < p.blocks then (s.waitCause p).map (fun i => (p, i)) else none)

/-- R280: the cycles of a core position: TM_STALL_CORE of each cause of a due block that waits, HAZARD_CYCLES, WAIT_CYCLES
while no block runs, and the cycles that each segment idles whose pass has ended before the LOAD of its next tile (R93). -/
def State.tickCore (s : State) (h c : Nat) (k : Core) : State :=
  let ws := s.waiters h c
  let s := (sortNub (ws.map (·.2))).foldl (fun s i => s.bump (TM_STALL_CORE.CYCLES i) aclkPerTick) s
  let s := if ws.any (·.2 == 6) then s.bump RN_HAZARD.HAZARD_CYCLES aclkPerTick else s
  let s := ws.foldl (fun s w => s.noteHazard w.1 w.2) s
  let s := if !ws.isEmpty && k.blocks.isEmpty then s.bump (CYCLES.WAIT_CYCLES h c) aclkPerTick else s
  let idle := ((k.blocks.filter (fun b => b.running && !b.loaded && b.ktDone != 0)).map (fun b =>
    ((s.pick? b.pick).map (fun p => (k.lacking p b.index b.ktDone).length)).getD 0)).sum
  if idle == 0 then s else s.bump (LOAD_EVENTS.BUBBLE_CYCLES h c) (aclkPerTick * idle)

/-- A count added to entry i of a list that is zero beyond its end. -/
def addAt (l : List Nat) (i n : Nat) : List Nat := setAt (l ++ List.replicate (i + 1 - l.length) 0) i (l.getD i 0 + n)

/-- R77, R225, R288: what a bolt waits for: the cause of its oldest waiting pick; without one, the tenant check of rows to be
grouped, or a response outstanding. -/
def State.boltCause (s : State) (ws : List (Pick × Nat)) (b : Bolt) : Option Nat :=
  match sortBy (fun (x y : Pick × Nat) => decide (x.1.id < y.1.id)) (ws.filter (fun w => w.1.bolt == b.id)) with
  | w :: _ => some w.2
  | [] =>
    if b.st != .running then none
    else if b.checking then some 0xF
    else if s.remoteRows.any (fun x => x.bolt == b.id && x.sent) then some 0x3
    else none

/-- R77: the cycles charged to the bolts that wait. -/
def State.chargeBolts (s : State) (ws : List (Pick × Nat)) : State :=
  s.weft.bolts.foldl (fun (s : State) b =>
    match s.boltCause ws b with
    | none => s
    | some i => (s.modBolt b.id (fun y => { y with stalls := addAt y.stalls i aclkPerTick })).bump
        (TM_STALL_BOLT.CYCLES i) aclkPerTick) s

/-- R263: does a prefetch fill wait for a frame that only read references hold? -/
def State.prefetchWaits (s : State) : Bool :=
  s.tiers.fills.any (fun f => !f.issued && !f.demand && f.slice.any (fun h =>
    (s.frameOf h f.tile).isNone && (s.sliceFrame h).isNone && !s.sliceFull h))

/-- One SCLK cycle of an engine that has booted: what waits goes on, and the counters count. -/
def State.tickUp (s : State) : State :=
  let s := s.checkIdle.carryOn
  let ws := s.heddle.cores.flatMap (fun k => s.waiters (k.1 / 66) (k.1 % 66))
  let s := s.chargeBolts ws
  let s := s.heddle.cores.foldl (fun s k => s.tickCore (k.1 / 66) (k.1 % 66) k.2) s
  let s := (List.range 8).foldl (fun s h =>
    if s.engineReady && !s.winReady h then s.bump (WP_LINK_EVENTS.READY_LOW h) aclkPerTick else s) s
  let s := (List.range 8).foldl (fun s h =>
    if s.refusesDrain h then s.bump (SV_CYCLES.REFUSED_CYCLES h) aclkPerTick else s) s
  let s := (List.range 8).foldl (fun s h =>
    if s.copyWaits h then s.bump (SD_TILE_EVENTS.STAGE_FULL h) aclkPerTick else s) s
  let s := if s.duty < 16 then s.bump PM_EVENTS.THROTTLE_CYCLES else s
  let s := if s.prefetchWaits then s.bump TM_PIN_EVENTS.PREFETCH_WAIT else s
  if s.skein.learners.any (fun x => !x.waiting.isEmpty && x.scalars.isEmpty) then s.bump ST_LEARN_WAIT.WAIT_CYCLES else s

/-- One SCLK cycle. In OFF and in HOLD no clock runs; in reset and in boot only the count of cycles advances. -/
def State.tick (s : State) : State :=
  if s.pm.st == .off || s.pm.st == .hold then s
  else if s.boot.stage != .up then s.tickCycles 1
  else s.after ((s.tickUp).tickCycles 1)

end Sys2Proof.Machine
end

