-- ==== Sys2Proof/WellFormed.lean ====
section
/-! DEFINITION. Which commands are well formed: the shapes of the operands that their types leave open. Meanings are total and
do not ask for it; statements do. -/

namespace Sys2Proof

/-- Table 3.3: a bolt descriptor is 64 B, eight words. -/
def descOk (desc : List W64) : Bool := desc.length == 8

/-- R68: a row's payload is at most 65,535 elements of 4 B. -/
def payloadOk (payload : List Byte) : Bool := decide (payload.length ≤ 262144)

/-- R289: a message has a header of 32 B, a payload of 1 to 1,048,576 B and a tag of 16 B. -/
def Msg.ok (m : Msg) : Bool :=
  m.header.length == 32 && decide (1 ≤ m.body.length) && decide (m.body.length ≤ 1048576) && m.tag.length == 16

/-- Keys strictly rising. -/
def cellsRise : Option Nat → List Host.Cell → Bool
  | _, [] => true
  | lo, c :: t => lo.all (fun a => decide (a < c.1)) && cellsRise (some c.1) t

/-- R381: sixteen sensors. -/
def readingsOk (l : List (BitVec 16)) : Bool := l.length == 16

/-- The 528 core positions of the engine, 66 · h + c. -/
def positionsOk (l : List Nat) : Bool := l.all (fun k => decide (k < 528))

/-- R10: an access has 1, 2, 4 or 8 bytes. -/
def sizeOk (n : Nat) : Bool := n == 1 || n == 2 || n == 4 || n == 8

/-- R7: a JEDEC identity has 24 bits, a density of KiB 32 bits, a quad-enable code 3 bits. -/
def FlashFound.ok (f : FlashFound) : Bool :=
  decide (f.jedec < 2 ^ 24) && decide (f.densityKib < 2 ^ 32) && decide (f.qer < 8)

/-- Is a command well formed? -/
def Instr.wf : Instr → Bool
  | .boltPart _ desc _ _ _ => descOk desc
  | .rowRecord _ _ _ payload => payloadOk payload
  | .tileFillComplete _ hostBytes => cellsRise none hostBytes
  | .requestMessage m | .responseMessage m | .gradientMessage m | .normMessage m | .gatherMessage m | .moveMessage m => m.ok
  | .sensorSample readings => readingsOk readings
  | .resetRelease f => f.ok
  | .bootComplete probeFails _ _ => positionsOk probeFails
  | .rcRead _ size | .registerWrite _ size _ => sizeOk size
  | _ => true

end Sys2Proof
end

