-- ==== Sys2Proof/Safety.lean ====
section
/-! DEFINITION. The terms in which the statements speak: the invariants that every step keeps, what a command leaves unchanged, the
rows that are writes of one register, and what a step that completes is. -/

namespace Sys2Proof.Machine

/-- The register window keeps its canonical form: offsets strictly rising, no word listed that equals its reset value. -/
def State.regsWf (s : State) : Bool := mapWf resetWord s.regs

/-- A step completes: it answers a next state. -/
def completes (o : Host.Outcome State Fault Refusal) : Prop := ∃ t, o = .next t

/-- `t` is `s` but for words of the register window, and only at the offsets listed. -/
def rewrites (s t : State) (offs : List Nat) : Prop :=
  t = { s with regs := t.regs } ∧ ∀ off, off ∉ offs → t.word off = s.word off

/-- R325, R326: the fuse record of the lifecycle: a burned transition waits for the next reset, no lifecycle lies beyond RETIRED (4),
and a burn of RETIRED has destroyed the KIK. -/
def fusesSound (f : Fuses) : Bool :=
  decide (f.lifecycle ≤ f.pending) && decide (f.pending ≤ 4) && (f.pending != 4 || f.kikDestroyed)

/-- R10, Table 15.8: the offset that a command writes, where its row is a write of one register through the port. -/
def portOffset : Instr → Option Nat
  | .rebase => some LS_CTRL.REBASE.off
  | .cardCommit => some LS_CARD_COMMIT.COMMIT.off
  | .svMapWrite h k _ => some (SV_MAP.SLOT h.val k.val).off
  | .svProgWrite h slot i _ => some (SV_PROG.WORD h.val slot.val i.val).off
  | .spindleResume h => some (SV_CTRL.RESUME h.val).off
  | .dirWrite _ | .dirRead _ | .dirInvalidate _ | .dirUpdate _ | .dirSetPending _ => some ST_DESC_CMD.GO.off
  | .deferredRegisterWrite off _ => if isDeferred off.toNat then some off.toNat else none
  | .tableDefine k i _ => some ((ST_TABLE.VALID k.val).off + 8 * i.val)
  | .replaceRow _ _ | .clearRow _ _ => some ST_REPLACE_CMD.GO.off
  | .regionWrite k i _ => some ((TM_REGION.VALID k.val).off + 8 * i.val)
  | .flashNsWrite j i _ => some ((TM_FLASH_NS.VALID j.val).off + 8 * i.val)
  | .flush _ | .evict _ _ | .pageInvalidate _ _ | .pin _ _ | .unpin _ | .restore _ | .zero _ | .copy _ | .read64 | .write64
  | .clearPoison _ | .returnUnit => some TM_PAGE_CMD.GO.off
  | .reshardAbort _ => some SX_RESHARD_CMD.ABORT.off
  | .sxNodeWrite _ => some SX_NODE.VALID.off
  | .sxEpochWrite _ => some SX_EPOCH.VALID.off
  | .loadPlain _ _ | .loadWrapped _ _ | .erase _ _ | .eraseAll => some SS_KEY_CMD.GO.off
  | .regionKeyWrite k _ => some (SS_REGION_KEY.ENCRYPT k.val).off
  | .provBufWrite i _ => some (SS_PROV_BUF.WORD i.val).off
  | .lifecycleBurn _ => some SS_LIFECYCLE_CMD.GO.off
  | .debugLevelRequest _ => some SS_DEBUG_CTRL.GO.off
  | .unlockNew _ _ | .unlockGo => some SS_UNLOCK_CMD.GO.off
  | .retireCore _ _ _ | .retireHarness _ | .returnCore _ _ _ => some CU_SERVICE_CMD.GO.off
  | .faultTailWrite _ => some CU_FAULT_PTR.TAIL.off
  | .tallyRingWrite _ => some CU_TALLY_RING.VALID.off
  | .tallyDrain => some CU_TALLY_CTRL.DRAIN.off
  | .powerHold _ | .powerRun _ => some PM_POWER_CMD.GO.off
  | .flashRead | .erase4k | .program => some BD_FLASH_CMD.GO.off
  | .registerWrite off size _ => if badAccess off size then none else some off
  | _ => none

/-- GO and BUSY of the command word that a command writes, where it issues a command that may run for longer than the write. -/
def commandWord : Instr → Option (Fld × Fld)
  | .dirWrite _ | .dirRead _ | .dirInvalidate _ | .dirUpdate _ | .dirSetPending _ => some (ST_DESC_CMD.GO, ST_DESC_CMD.BUSY)
  | .replaceRow _ _ | .clearRow _ _ => some (ST_REPLACE_CMD.GO, ST_REPLACE_CMD.BUSY)
  | .flush _ | .evict _ _ | .pageInvalidate _ _ | .pin _ _ | .unpin _ | .restore _ | .zero _ | .copy _ | .read64 | .write64
  | .clearPoison _ | .returnUnit => some (TM_PAGE_CMD.GO, TM_PAGE_CMD.BUSY)
  | .loadPlain _ _ | .loadWrapped _ _ | .erase _ _ | .eraseAll => some (SS_KEY_CMD.GO, SS_KEY_CMD.BUSY)
  | .lifecycleBurn _ => some (SS_LIFECYCLE_CMD.GO, SS_LIFECYCLE_CMD.BUSY)
  | .unlockGo => some (SS_UNLOCK_CMD.GO, SS_UNLOCK_CMD.BUSY)
  | .retireCore _ _ _ | .retireHarness _ | .returnCore _ _ _ => some (CU_SERVICE_CMD.GO, CU_SERVICE_CMD.BUSY)
  | .powerHold _ => some (PM_POWER_CMD.GO, PM_POWER_CMD.BUSY)
  | .flashRead | .erase4k | .program => some (BD_FLASH_CMD.GO, BD_FLASH_CMD.BUSY)
  | _ => none

/-- Table 2.7: the row of an order by its action code (0 to 8). -/
def orderRow (o : Order) (rivalMask : BitVec 8) : Nat → Instr
  | 0 => .nop o
  | 1 => .prefetchSet o
  | 2 => .releaseSet o
  | 3 => .commitVersion o
  | 4 => .beginReshard o
  | 5 => .setExchangeDeadline o
  | 6 => .rampHarness o rivalMask
  | 7 => .drainTally o
  | _ => .snapshotCounters o

/-- R41, R48: the oldest fired action leaves the sequencer and counts in FIRED. -/
def State.popAction (s : State) (rest : List Waiting) : State :=
  { s with loom := { s.loom with actions := rest } }.bump LS_CARD_EVENTS.FIRED

/-- R32, R48, R55: the conditions under which an order is admitted; a mailbox order also leaves every reserved argument bit clear. -/
def State.orderAdmitted (s : State) (x : Waiting) (mailbox : Bool) : Bool :=
  decide (x.action ≤ 8) && targetOk x.action x.target x.argument && (x.action != 4 || s.phase == 3) &&
    (!mailbox || argumentOk x.action x.argument)

/-- Table 11.3: the row of a message by its kind (1 to 6). -/
def messageRow (m : Msg) : Nat → Instr
  | 1 => .requestMessage m
  | 2 => .responseMessage m
  | 3 => .gradientMessage m
  | 4 => .normMessage m
  | 5 => .gatherMessage m
  | _ => .moveMessage m

/-- R295: no remote row, no message, no reduction and no reshard is under way, so that the fabric may close without a loss. -/
def exchangeIdle (s : State) : Prop :=
  s.exch.rounds = [] ∧ s.exch.outstanding = [] ∧ s.exch.held = [] ∧ s.exch.reductions = [] ∧ s.exch.norms = [] ∧
    s.exch.reshard = none

/-- R249: nothing waits in the Tier Manager or the Skein Table Unit that could go on: no attempt is open, no piece of work waits, no
dropped write is unanswered, no page command and no row replacement runs, no slot retires. -/
def State.workIdle (s : State) : Prop :=
  s.tiers.trying = false ∧ s.tiers.wanted = [] ∧ s.tiers.starved = false ∧ s.tiers.work = [] ∧ s.tiers.dropped = [] ∧
    s.tiers.cmd = none ∧ s.skein.retiring = [] ∧ s.skein.replacing = none

/-- R249, R295: nothing waits that could go on, and the exchange is idle. -/
def State.atRest (s : State) : Prop := s.workIdle ∧ exchangeIdle s

/-- R249: n bytes of the Loom range can be read at once: no engine write waits, and each tile of theirs lies in a region and stands
VALID in Beam. -/
def State.inBeam (s : State) (addr n : Nat) : Prop :=
  s.tiers.writes = [] ∧ ∀ t ∈ tilesOf addr n, (s.regionOfPage (t / 64)).isSome = true ∧ (s.page (t / 64)).st ≠ .lost ∧
    s.pageFailed (t / 64) = false ∧ s.tileState t = .valid

/-- Table 2.7: what an admitted order of a card or of the mailbox leaves in `t`, from the state `p` that it is dispatched in. R262: a
pinned prefetch pins its set, where TM_SET_BASE is not valid with no extents; of a set already pinned it does nothing; a release leaves
the set not pinned. R223: a commit joins those of the next boundary. R286: the deadline stands. R382: the Harnesses of the mask are held
on or not, and where they are, their gated cores ramp. R361: the drain runs while an entry waits and the ring has room. R280, R431: the
snapshot registers take their counters, which then read 0. -/
def orderTakes (p t : State) (x : Waiting) : Prop :=
  let on := bitOf x.argument.toNat 0
  (x.action = 1 → (on = true → p.flag TM_SET_BASE.VALID = false → t.setPinned x.target = true) ∧
    (p.setPinned x.target = true → t.tiers = p.tiers)) ∧
  (x.action = 2 → t.setPinned x.target = false) ∧
  (x.action = 3 → t.skein.commits = p.skein.commits ++
    [(⟨bitOf x.argument.toNat 63, x.target, bitsOf x.argument.toNat 31 0⟩ : Commit)]) ∧
  (x.action = 5 → t.exch.deadlineNs = bitsOf x.argument.toNat 31 0) ∧
  (x.action = 6 →
    (∀ (h : Nat) (y : Harness), p.heddle.harnesses[h]? = some y →
      t.heddle.harnesses[h]? = some { y with heldOn := if bitOf x.target h then on else y.heldOn }) ∧
    (∀ h < 8, ∀ c < 66, let k := p.core h c
      t.core h c = if bitOf x.target h && on && k.power == .gated && (k.service == .active || k.service == .retirePending) then
        { k with power := .ramping } else k)) ∧
  (x.action = 7 → t.cust.draining = (p.tallyRoom || p.cust.drainLeft != 0)) ∧
  (x.action = 8 →
    (bitOf x.target 6 = true → ∀ h < 8, t.word (BC_SLICE_SNAP.EVENTS h).off = p.word (BC_SLICE_EVENTS.HITS h).off ∧
      t.word (BC_SLICE_EVENTS.HITS h).off = 0) ∧
    (bitOf x.target 7 = true → ∀ i < 16, t.word (TM_STALL_SNAP.CORE i).off = p.word (TM_STALL_CORE.CYCLES i).off ∧
      t.word (TM_STALL_SNAP.BOLT i).off = p.word (TM_STALL_BOLT.CYCLES i).off ∧ t.word (TM_STALL_CORE.CYCLES i).off = 0 ∧
      t.word (TM_STALL_BOLT.CYCLES i).off = 0) ∧
    (bitOf x.target 11 = true → t.word (CU_FAULT_SNAP.EVENTS 0).off = p.word CU_FAULT_EVENTS.RECORDS.off ∧
      t.word (CU_FAULT_SNAP.EVENTS 1).off = p.word CU_LOSS_EVENTS.LOST_RESULTS.off ∧ t.word CU_FAULT_EVENTS.RECORDS.off = 0 ∧
      t.word CU_LOSS_EVENTS.LOST_RESULTS.off = 0))

/-- R341, Table 14.3: `t` has taken one fault record more than `s`, of a class and from a source, and counts it. -/
def notesFault (s t : State) (cls source : Nat) : Prop :=
  t.get CU_FAULT_PTR.SEQ_NEXT = (s.get CU_FAULT_PTR.SEQ_NEXT + 1) % 2 ^ 32 ∧
  t.get CU_FAULT_PTR.HEAD = (s.get CU_FAULT_PTR.HEAD + 1) % 512 ∧
  bitsOf (t.word (CU_FAULT_RING.RECORD (s.get CU_FAULT_PTR.SEQ_NEXT % 256) 0).off).toNat 31 24 = cls ∧
  bitsOf (t.word (CU_FAULT_RING.RECORD (s.get CU_FAULT_PTR.SEQ_NEXT % 256) 0).off).toNat 23 20 = source

/-- R386: every register of `t` holds its reset value, but for the word of PM_RESET_CAUSE, which is `cause`; nothing is current, in
flight or loaded, and the engine is in reset. -/
def standsReset (t : State) (cause : W64) : Prop :=
  (∀ off, off ≠ 0x800040 → t.word off = resetWord off) ∧ t.word 0x800040 = cause ∧ t.boot.stage = .inReset ∧
  t.revValid = false ∧ t.weft = State.reset.weft ∧ t.heddle = State.reset.heddle ∧ t.spindles = State.reset.spindles ∧
  t.skein = State.reset.skein ∧ t.exch = State.reset.exch ∧ t.sec = State.reset.sec ∧ t.loom = State.reset.loom

end Sys2Proof.Machine
end

