-- ==== Sys2Proof/Certificates/Slice0/Obligations.lean ====
section
/-! DEFINITION. The statements for the provers, from the spec's numbered rules. -/

open Sys2Proof Sys2Proof.Machine

/-! ## The queue, the step and reset -/

/-- Log entry 5 and the model's queue: step takes the command at the front and runs it on the queue's rest. -/
def Obligations.StepRunsTheFrontCommand : Prop :=
  ∀ (c : Instr) (s : State) (rest : List Instr), s.pending = c :: rest → step s = exec c { s with pending := rest }

/-- Log entry 5: on an empty queue one SCLK cycle passes; none in OFF and in HOLD, where no clock runs, and before the end of boot
nothing but the count of cycles moves. The model's choice. -/
def Obligations.EmptyQueuePassesOneCycle : Prop :=
  ∀ s : State, s.pending = [] → ∃ t, step s = .next t ∧
    (s.pm.st = .off ∨ s.pm.st = .hold → t = s) ∧
    (s.pm.st ≠ .off → s.pm.st ≠ .hold → s.boot.stage ≠ .up → t = { s with cust := { s.cust with aclk := s.cust.aclk + 2 } })

/-- R13, R386: after reset every register holds its reset value, but for PM_RESET_CAUSE, where POWER_ON (bit 3) is set; no angle
word has been accepted, no bolt is known, no page is resident, no key is loaded, no fault is recorded, and no interrupt line is
high, and nothing waits; the window keeps its canonical form, and the fuse record (of an unprogrammed bank, the model's choice, log entry 4) is sound. -/
def Obligations.ResetLeavesEveryRegisterAtItsResetValue : Prop :=
  (∀ off, off ≠ 0x800040 → State.reset.word off = resetWord off) ∧ State.reset.word 0x800040 = 8 ∧ State.reset.regsWf = true ∧
    State.reset.revValid = false ∧ State.reset.engineReady = false ∧ State.reset.weft.bolts = [] ∧ State.reset.heddle.picks = [] ∧
    State.reset.tiers.pages = [] ∧ State.reset.sec.keys = [] ∧ State.reset.get CU_FAULT_PTR.SEQ_NEXT = 0 ∧
    State.reset.irqLevels = 0 ∧ State.reset.atRest ∧ fusesSound State.reset.fuses = true

/-- Every command completes, and leaves the queue of the commands that wait behind it as it is. -/
def Obligations.CommandsLeaveTheQueueStanding : Prop :=
  ∀ (c : Instr) (s : State), ∃ t, exec c s = .next t ∧ t.pending = s.pending

/-- R325: nothing but a write of SS_LIFECYCLE_CMD (LIFECYCLE_BURN, or a write through the register port or the Treadle port at its
offset) and the release of reset changes the OTP fuse bank. -/
def Obligations.OnlyBurnsAndResetReleaseChangeTheFuses : Prop :=
  ∀ (c : Instr) (s t : State), exec c s = .next t →
    (∀ target, c ≠ .lifecycleBurn target) → (∀ f, c ≠ .resetRelease f) →
    (∀ size v, c ≠ .registerWrite SS_LIFECYCLE_CMD.GO.off size v) →
    (∀ v, c ≠ .treadleWrite (BitVec.ofNat 26 SS_LIFECYCLE_CMD.GO.off) v) → t.fuses = s.fuses

/-- R325, R326: the fuse record stays sound in every step: a burned transition never lies behind the lifecycle, none lies beyond
RETIRED, and where RETIRED is burned the KIK is destroyed. And the lifecycle moves one way: no step brings it, or the transition burned
for the next reset, back. -/
def Obligations.LifecycleMovesOneWayAndStaysSound : Prop :=
  ∀ s t : State, fusesSound s.fuses = true → step s = .next t →
    fusesSound t.fuses = true ∧ s.fuses.lifecycle ≤ t.fuses.lifecycle ∧ s.fuses.pending ≤ t.fuses.pending

/-! ## The register port (R9 to R13, Table 15.8, R404) -/

/-- R10: an access of other than 64 bits, at an unaligned offset or outside the window is answered with an error, and reads or
changes no register. (In OFF and in reset the port answers nothing.) -/
def Obligations.OddAccessesAreAnsweredWithAnError : Prop :=
  ∀ (s : State) (off size : Nat) (v : W64), size ≠ 8 ∨ off % 8 ≠ 0 ∨ 0x4000000 ≤ off →
    s.pm.st ≠ .off → s.boot.stage ≠ .inReset →
    exec (.registerWrite off size v) s = .next { s with resp := .error } ∧
    exec (.rcRead off size) s = .next { s with resp := .error }

/-- R11: a read of an offset of the window to which no register is assigned returns 0, and a write to it is accepted and has no
effect. -/
def Obligations.UnassignedOffsetsReadZeroAndIgnoreWrites : Prop :=
  ∀ (s : State) (off : Nat) (v : W64), off < 0x4000000 → off % 8 = 0 → findReg off = none → s.boot.stage = .up →
    s.pm.st ≠ .off → s.pm.st ≠ .hold →
    exec (.registerWrite off 8 v) s = .next { s with resp := .written } ∧
    exec (.rcRead off 8) s = .next { s with resp := .data 0, free := s.free + 1 }

/-- R12, Table 0.5: a write of a register that has no rule of its own beside its fields' access codes: RO and RC fields stay, RW
fields take the value, W1C fields lose the bits written 1, W1S fields gain them, WL fields take their first write alone; no other
word, and nothing else of the engine, changes. -/
def Obligations.WritesObeyTheAccessCodes : Prop :=
  ∀ (s : State) (off : Nat) (v : W64) (r : RegWord), off % 8 = 0 → s.writeGate off = .made →
    off ≠ SS_LIFECYCLE_CMD.GO.off → s.writeSpecial off v = none → findReg off = some r →
    ∃ t, exec (.registerWrite off 8 v) s = .next t ∧
      t = { s with regs := t.regs, locked := t.locked, resp := .written } ∧
      (∀ off', off' ≠ off → t.word off' = s.word off') ∧
      (∀ f ∈ r.fields,
        let new := bitsOf v.toNat f.hi f.lo
        let old := bitsOf (s.word off).toNat f.hi f.lo
        let now := bitsOf (t.word off).toNat f.hi f.lo
        (f.acc = .rw → now = new) ∧ (f.acc = .ro → now = old) ∧ (f.acc = .rc → now = old) ∧
        (f.acc = .w1c → now = old &&& (2 ^ (f.hi + 1 - f.lo) - 1 - new)) ∧ (f.acc = .w1s → now = old ||| new) ∧
        (f.acc = .wl → now = if s.locked.contains (off * 64 + f.lo) then old else new) ∧
        (f.acc = .wl → t.locked.contains (off * 64 + f.lo) = true))

/-- R12, Table 0.5: a read through the port of a booted engine answers what the register shows; its RC fields then hold their reset
value, every other field of it, and everything else of the engine, stays (but for the count of free values, the model's own). A read
of WP_CPL_PENDING is R80's. -/
def Obligations.ReadsClearOnlyReadClearFields : Prop :=
  ∀ (s : State) (off : Nat) (r : RegWord), off % 8 = 0 → s.boot.stage = .up → s.pm.st ≠ .off →
    (s.pm.st = .hold → answersInHold off = true) → off ≠ WP_CPL_PENDING.COUNT.off → findReg off = some r →
    ∃ t, exec (.rcRead off 8) s = .next t ∧
      t = { s with regs := t.regs, resp := .data (s.shownWord off), free := s.free + 1 } ∧
      (∀ off', off' ≠ off → t.word off' = s.word off') ∧
      (∀ f ∈ r.fields,
        let now := bitsOf (t.word off).toNat f.hi f.lo
        if f.acc = .rc then now = f.dflt % 2 ^ (f.hi + 1 - f.lo) else now = bitsOf (s.word off).toNat f.hi f.lo)

/-- Table 15.8, R375, R404: a command that is a register write is not answered in OFF and in reset, is counted early while the engine
boots, and is answered with an error in HOLD; it has no other effect. The SS window takes writes during boot, and in HOLD the PM
window, SS_STATUS and the identity registers answer. -/
def Obligations.RegisterCommandsMeetThePortsGate : Prop :=
  ∀ (c : Instr) (s : State) (off : Nat), portOffset c = some off →
    (s.pm.st = .off ∨ s.boot.stage = .inReset → exec c s = .next s) ∧
    (s.pm.st ≠ .off → s.boot.stage = .bootRead ∨ s.boot.stage = .bootTest → ¬ (0xC00000 ≤ off ∧ off < 0x1000000) →
      exec c s = .next { s with resp := .written, boot := { s.boot with earlyWrites := min (s.boot.earlyWrites + 1) 255 } }) ∧
    (s.pm.st = .hold → s.boot.stage = .up → answersInHold off = false → exec c s = .next { s with resp := .error })

/-- R51, R218, R237, R258, R319, R325, R351, R405: GO written while BUSY is 1 is ignored: a command written while another of its unit
runs changes nothing but its own command word, and neither GO's nor BUSY's effect begins. -/
def Obligations.CommandsWrittenWhileBusyAreIgnored : Prop :=
  ∀ (c : Instr) (s : State) (go busy : Fld), commandWord c = some (go, busy) → s.writeGate go.off = .made →
    s.flag busy = true → ∃ t, exec c s = .next t ∧ rewrites { s with resp := .written } t [go.off] ∧ t.flag busy = true

/-! ## Loom Sequencer (chapter 2) -/

/-- R34, R35: a word presented to an engine that is ready enters the queue behind those that wait; where four wait it is lost: OVERRUN
counts, ANGLE_OVERRUN is set, and a fault record of class ANGLE_OVERRUN (0x01) holds the word. Before ENGINE_READY a word is discarded
and counted in EARLY. In OFF, in reset and in HOLD a word changes nothing. -/
def Obligations.AngleWordsEnterTheQueue : Prop :=
  ∀ (s : State) (w : W64),
    (s.engineReady = true → s.pm.st ≠ .hold → s.loom.queue.length < 4 →
      exec (.angleWord w) s = .next { s with loom := { s.loom with queue := s.loom.queue ++ [w] } }) ∧
    (s.engineReady = true → s.pm.st ≠ .hold → 4 ≤ s.loom.queue.length → ∃ t, exec (.angleWord w) s = .next t ∧
      t = { s with regs := t.regs } ∧
      t.get LS_ANGLE_EVENTS.OVERRUN = min (s.get LS_ANGLE_EVENTS.OVERRUN + 1) 255 ∧ t.get LS_STATUS.ANGLE_OVERRUN = 1 ∧
      notesFault s t 1 1 ∧ t.word (CU_FAULT_RING.RECORD (s.get CU_FAULT_PTR.SEQ_NEXT % 256) 3).off = w) ∧
    (s.engineReady = false → s.pm.st ≠ .off → s.pm.st ≠ .hold → s.boot.stage ≠ .inReset → ∃ t,
      exec (.angleWord w) s = .next t ∧ rewrites s t [LS_ANGLE_EVENTS.EARLY.off] ∧
      t.get LS_ANGLE_EVENTS.EARLY = min (s.get LS_ANGLE_EVENTS.EARLY + 1) 255) ∧
    (s.pm.st = .off ∨ s.boot.stage = .inReset ∨ s.pm.st = .hold → exec (.angleWord w) s = .next s)

/-- Table 2.4, R36, R37, R41: the class of a word, in the order of the table's rows. A pass that the phase does not admit makes it
illegal. Else, with no word accepted since reset or REBASE, or of a later revolution than the current one, it opens; of an earlier one it
is backward; of the same one and another phase illegal, in the IDLE phase a repeat, and else its ordinal decides: greater, advance; the
same, repeat; smaller, backward. With no action of the word before waiting and nothing else waiting, a rejected word leaves the queue, is
copied into LS_ANGLE_REJECTED, counts in ILLEGAL or BACKWARD and sets ANGLE_REJECT; a repeat leaves the queue and counts in REPEAT;
nothing else changes. -/
def Obligations.WordsAreClassedAndTheRejectedChangeNothing : Prop :=
  ∀ (s : State) (w : W64),
    (admits (anglePhase w) (anglePass w) = false → s.classOf w = .illegal) ∧
    (admits (anglePhase w) (anglePass w) = true → s.revValid = false ∨ s.revolution < angleRev w → s.classOf w = .opening) ∧
    (admits (anglePhase w) (anglePass w) = true → s.revValid = true →
      (angleRev w < s.revolution → s.classOf w = .backward) ∧
      (angleRev w = s.revolution → anglePhase w ≠ s.phase → s.classOf w = .illegal) ∧
      (angleRev w = s.revolution → anglePhase w = s.phase → s.phase = 0 → s.classOf w = .again) ∧
      (angleRev w = s.revolution → anglePhase w = s.phase → s.phase ≠ 0 →
        (angleOrdinal s.angle < angleOrdinal w → s.classOf w = .advance) ∧
        (angleOrdinal w = angleOrdinal s.angle → s.classOf w = .again) ∧
        (angleOrdinal w < angleOrdinal s.angle → s.classOf w = .backward))) ∧
    (∀ rest, s.serving = true → s.atRest → s.loom.actions = [] → s.flag BD_DBG_CTRL.FREEZE_ANGLE = false →
      s.loom.queue = w :: rest →
      (∀ c : Fld, (s.classOf w = .illegal ∧ c = LS_ANGLE_EVENTS.ILLEGAL) ∨ (s.classOf w = .backward ∧ c = LS_ANGLE_EVENTS.BACKWARD) →
        ∃ t, exec .angleClassify s = .next t ∧
          rewrites { s with loom := { s.loom with queue := rest } } t
            [LS_ANGLE_REJECTED.ANGLE.off, LS_ANGLE_EVENTS.ILLEGAL.off, LS_STATUS.ANGLE_REJECT.off] ∧
          t.word LS_ANGLE_REJECTED.ANGLE.off = w ∧ t.get c = min (s.get c + 1) 65535 ∧ t.get LS_STATUS.ANGLE_REJECT = 1 ∧
          t.angle = s.angle ∧ t.phase = s.phase ∧ t.revValid = s.revValid) ∧
      (s.classOf w = .again → ∃ t, exec .angleClassify s = .next t ∧
        rewrites { s with loom := { s.loom with queue := rest } } t [LS_ANGLE_EVENTS.REPEAT.off] ∧
        t.get LS_ANGLE_EVENTS.REPEAT = min (s.get LS_ANGLE_EVENTS.REPEAT + 1) 65535 ∧ t.angle = s.angle))

/-- R40, R41, R43: with every action of the word before dispatched and nothing waiting, an advance word of the GENERATE phase that finds
no bolt, no breakpoint and no card enabled leaves the queue and becomes the current word: LS_ANGLE_CURRENT and PASS take it, PHASE and
REVOLUTION_VALID stay, ANGLE_STALL clears; no other register changes and no action waits. -/
def Obligations.AdvanceWordBecomesCurrent : Prop :=
  ∀ (s : State) (w : W64) (rest : List W64), s.serving = true → s.atRest → s.loom.actions = [] →
    s.flag BD_DBG_CTRL.FREEZE_ANGLE = false → s.loom.queue = w :: rest → s.classOf w = .advance → s.phase = 1 →
    s.weft.bolts = [] → s.flag LS_CTRL.CARDS_ENABLE = false → (∀ i < 16, s.flag (BD_DBG_BP.ENABLE i) = false) →
    ∃ t, exec .angleClassify s = .next t ∧ t.angle = w ∧ t.phase = 1 ∧ t.get LS_STATUS.PASS = anglePass w ∧ t.revValid = true ∧
      t.get LS_STATUS.ANGLE_STALL = 0 ∧ t.loom.queue = rest ∧ t.loom.actions = [] ∧
      (∀ off, off ≠ LS_ANGLE_CURRENT.ANGLE.off → off ≠ LS_STATUS.PHASE.off → t.word off = s.word off)

/-- R43, R44: where the watchdog runs (a serving engine, a current word of a phase other than IDLE, a limit other than 0, no engine halt)
and has not expired already, its expiry sets ANGLE_STALL and leaves a fault record of class ANGLE_STALL (0x02) that holds the current
word, which stays; with the phase IDLE, the limit 0 or an engine halt nothing changes. -/
def Obligations.AngleWatchdogExpiryIsRecorded : Prop :=
  ∀ s : State,
    (s.serving = true → s.revValid = true → s.phase ≠ 0 → s.get LS_ANGLE_WATCHDOG.LIMIT_US ≠ 0 → s.engineHalted = false →
      s.flag LS_STATUS.ANGLE_STALL = false → ∃ t, exec .angleWatchdogExpiry s = .next t ∧ t = { s with regs := t.regs } ∧
      t.get LS_STATUS.ANGLE_STALL = 1 ∧ t.angle = s.angle ∧ notesFault s t 2 1 ∧
      t.word (CU_FAULT_RING.RECORD (s.get CU_FAULT_PTR.SEQ_NEXT % 256) 3).off = s.angle) ∧
    (s.phase = 0 ∨ s.get LS_ANGLE_WATCHDOG.LIMIT_US = 0 ∨ s.engineHalted = true → exec .angleWatchdogExpiry s = .next s)

/-- R25, R39: the boundary of an engine with nothing waiting ends: IN_BOUNDARY falls and nothing else changes; outside a boundary the
row changes nothing. REBASE clears REVOLUTION_VALID in the IDLE phase, and outside it changes nothing; it reads 0 afterwards, and
CARDS_ENABLE and every register beside LS_CTRL and LS_STATUS stay. -/
def Obligations.BoundaryEndsAndRebaseActsInIdle : Prop :=
  ∀ s : State,
    (s.powered = true → s.inBoundary = true → s.atRest →
      ∃ t, exec .boundaryComplete s = .next t ∧ rewrites s t [LS_STATUS.IN_BOUNDARY.off] ∧ t.inBoundary = false ∧
        t.phase = s.phase ∧ t.revValid = s.revValid) ∧
    (s.inBoundary = false → exec .boundaryComplete s = .next s) ∧
    (s.writeGate LS_CTRL.REBASE.off = .made →
      ∃ t, exec .rebase s = .next t ∧ t.get LS_CTRL.REBASE = 0 ∧ t.get LS_CTRL.CARDS_ENABLE = s.get LS_CTRL.CARDS_ENABLE ∧
        (s.phase = 0 → rewrites { s with resp := .written } t [LS_CTRL.REBASE.off, LS_STATUS.PHASE.off] ∧ t.revValid = false ∧
          t.phase = 0) ∧
        (s.phase ≠ 0 → rewrites { s with resp := .written } t [LS_CTRL.REBASE.off]))

/-- R49, R50: a commit request that no earlier one holds up validates the shadow bank: where no card of it has a reason to fail the commit
is pending (COMMIT and CARD_COMMIT_PENDING read 1); else COMMIT reads 0, and COMMIT_FAILED is set with the index of the first card that
fails, in ascending index, and its reason. No other register changes, the banks among them; a request while a validated commit waits
changes nothing. -/
def Obligations.CardCommitValidatesTheShadowBank : Prop :=
  ∀ s : State, s.writeGate LS_CARD_COMMIT.COMMIT.off = .made →
    (s.loom.commitValid = true → exec .cardCommit s = .next { s with resp := .written }) ∧
    (s.loom.commitValid = false → (∀ c ∈ s.cards shadowBank, cardReason c.2 = 0) → ∃ t, exec .cardCommit s = .next t ∧
      rewrites { s with resp := .written, loom := { s.loom with commitValid := true } } t
        [LS_CARD_COMMIT.COMMIT.off, LS_STATUS.CARD_COMMIT_PENDING.off] ∧
      t.get LS_CARD_COMMIT.COMMIT = 1 ∧ t.get LS_STATUS.CARD_COMMIT_PENDING = 1) ∧
    (∀ c, s.loom.commitValid = false → (s.cards shadowBank).find? (fun c => cardReason c.2 != 0) = some c →
      ∃ t, exec .cardCommit s = .next t ∧
        rewrites { s with resp := .written } t [LS_CARD_COMMIT.COMMIT.off, LS_CARD_STATUS.COMMIT_FAILED.off] ∧
        t.get LS_CARD_COMMIT.COMMIT = 0 ∧ t.get LS_CARD_STATUS.COMMIT_FAILED = 1 ∧
        t.get LS_CARD_STATUS.FIRST_BAD_INDEX = c.1 % 2 ^ 13 ∧ t.get LS_CARD_STATUS.REASON = cardReason c.2 % 2 ^ 8)

/-- R41, Table 2.7: of a serving engine with nothing waiting, the oldest fired action, where it is admitted and no order of its cycle
rivals it, leaves the sequencer, counts in FIRED, and takes its effect (`orderTakes`): NOP none; COMMIT_VERSION and
SET_EXCHANGE_DEADLINE change no other register. PREFETCH_SET waits as a piece of work that reads the lists of its set, and BEGIN_RESHARD,
while SX_PLAN_BASE is valid, makes the plan of its target the active reshard and PLAN of SX_STATUS and waits as one that reads the plan;
what waits then goes on (`carryOn`). With SX_PLAN_BASE not valid BEGIN_RESHARD begins none and counts in BEGIN_REFUSED. A row whose action
is not that of the oldest changes nothing. -/
def Obligations.CardActionsTakeEffectInOrder : Prop :=
  ∀ (s : State) (x : Waiting) (rest : List Waiting) (o : Order) (m : BitVec 8), s.serving = true → s.atRest →
    o.via = .card → o.rival = none → s.loom.actions = x :: rest →
    (∀ a, a ≤ 8 → a ≠ x.action → exec (orderRow o m a) s = .next s) ∧
    (s.orderAdmitted x false = true →
      let p := s.popAction rest
      (x.action = 1 → exec (.prefetchSet o) s = .next (s.after
        { p with tiers := { p.tiers with work := [.prefetch x.target (bitOf x.argument.toNat 0)] } }.carryOn)) ∧
      (x.action ≠ 4 → (x.action = 1 → s.flag TM_SET_BASE.VALID = false) → ∃ t, exec (orderRow o m x.action) s = .next t ∧
        orderTakes p t x ∧ t.loom.actions = rest ∧ t.get LS_CARD_EVENTS.FIRED = min (s.get LS_CARD_EVENTS.FIRED + 1) (2 ^ 32 - 1) ∧
        (x.action = 0 → t = p) ∧ (x.action = 3 ∨ x.action = 5 → t.regs = p.regs)) ∧
      (x.action = 4 → s.flag SX_PLAN_BASE.VALID = true → exec (.beginReshard o) s = .next (s.after
        { p.set SX_STATUS.PLAN x.target with
          exch := { p.exch with reshard := some { plan := x.target } },
          tiers := { p.tiers with work := [.reshard x.target] } }.carryOn)) ∧
      (x.action = 4 → s.flag SX_PLAN_BASE.VALID = false → ∃ t, exec (.beginReshard o) s = .next t ∧ t.exch = s.exch ∧
        t.get SX_EVENTS.BEGIN_REFUSED = min (s.get SX_EVENTS.BEGIN_REFUSED + 1) (2 ^ fldWidth SX_EVENTS.BEGIN_REFUSED - 1)))

/-- R51, R55, Table 2.7: of a serving engine with nothing waiting, the mailbox order, where it is admitted and no order of its cycle
rivals it, is taken: it takes its effect (`orderTakes`) and completes: GO 0, BUSY 0, STATUS OK (0x00), WINNER 0. PREFETCH_SET waits as a
piece of work that reads the lists of its set, and BEGIN_RESHARD, while SX_PLAN_BASE is valid, makes the plan of its target the active
reshard and PLAN of SX_STATUS and waits as one that reads the plan; what waits then goes on (`carryOn`). One that is identical to an order of its cycle completes alike and has no further effect. -/
def Obligations.MailboxOrdersTakeEffect : Prop :=
  ∀ (s : State) (x : Waiting) (o : Order) (m : BitVec 8), s.serving = true → s.atRest →
    o.via = .mailbox → s.loom.mbox = some x → s.orderAdmitted x true = true →
    let p := s.set LS_MBOX_ORDER.GO 0
    let ends := fun t : State => t.loom.mbox = none ∧ t.get LS_MBOX_ORDER.GO = 0 ∧ t.get LS_MBOX_STATUS.BUSY = 0 ∧
      t.get LS_MBOX_STATUS.STATUS = 0 ∧ t.get LS_MBOX_STATUS.WINNER = 0
    (o.rival = none → x.action = 1 → exec (.prefetchSet o) s = .next (s.after
      ({ p with tiers := { p.tiers with work := [.prefetch x.target (bitOf x.argument.toNat 0)] } }.mboxDone .done).carryOn)) ∧
    (o.rival = none → x.action ≠ 4 → (x.action = 1 → s.flag TM_SET_BASE.VALID = false) →
      ∃ t, exec (orderRow o m x.action) s = .next t ∧ ends t ∧ orderTakes p t x) ∧
    (o.rival = none → x.action = 4 → s.flag SX_PLAN_BASE.VALID = true → exec (.beginReshard o) s = .next (s.after
      ({ p.set SX_STATUS.PLAN x.target with
         exch := { p.exch with reshard := some { plan := x.target } },
         tiers := { p.tiers with work := [.reshard x.target] } }.mboxDone .done).carryOn)) ∧
    (o.rival = some .same → ∃ t, exec (orderRow o m x.action) s = .next t ∧ ends t ∧
      rewrites { s with loom := { s.loom with mbox := none } } t [LS_MBOX_ORDER.GO.off, LS_MBOX_STATUS.BUSY.off])

/-- R32, R48, R51, R55: of a serving engine with nothing waiting, an order that is not admitted, or, RAMP_HARNESS apart, one that loses
against a contradicting order of its cycle, takes no effect: a card's is counted in FIRED and DROPPED and logged in LS_CARD_REJECT with
its index, action and target and the winner, or 0 for a refusal; a mailbox order completes with ORDER_REJECTED (0x50) and the winner, or
0. -/
def Obligations.RefusedOrdersTakeNoEffect : Prop :=
  ∀ (s : State) (x : Waiting) (rest : List Waiting) (o : Order) (m : BitVec 8) (winner : Nat), s.serving = true → s.atRest →
    x.action ≤ 8 →
    (o.via = .card → s.loom.actions = x :: rest →
      ((s.orderAdmitted x false = false ∧ winner = 0) ∨ (s.orderAdmitted x false = true ∧ contradicts x.action = true ∧
        x.action ≠ 6 ∧ ∃ r, defeatedBy 4 o.rival = some r ∧ winner = rivalCode r)) →
      ∃ t, exec (orderRow o m x.action) s = .next t ∧
        rewrites { s with loom := { s.loom with actions := rest } } t [LS_CARD_EVENTS.FIRED.off, LS_CARD_REJECT.WINNER.off] ∧
        t.get LS_CARD_EVENTS.DROPPED = min (s.get LS_CARD_EVENTS.DROPPED + 1) 65535 ∧
        t.get LS_CARD_EVENTS.FIRED = min (s.get LS_CARD_EVENTS.FIRED + 1) (2 ^ 32 - 1) ∧
        t.get LS_CARD_REJECT.WINNER = winner ∧ t.get LS_CARD_REJECT.INDEX = x.index % 2 ^ 13 ∧
        t.get LS_CARD_REJECT.ACTION = x.action ∧ t.get LS_CARD_REJECT.TARGET = x.target % 2 ^ 16) ∧
    (o.via = .mailbox → s.loom.mbox = some x →
      ((s.orderAdmitted x true = false ∧ winner = 0) ∨ (s.orderAdmitted x true = true ∧ contradicts x.action = true ∧
        x.action ≠ 6 ∧ ∃ r, defeatedBy 3 o.rival = some r ∧ winner = rivalCode r)) →
      ∃ t, exec (orderRow o m x.action) s = .next t ∧
        rewrites { s with loom := { s.loom with mbox := none } } t [LS_MBOX_ORDER.GO.off, LS_MBOX_STATUS.BUSY.off] ∧
        t.get LS_MBOX_STATUS.BUSY = 0 ∧ t.get LS_MBOX_STATUS.STATUS = 0x50 ∧ t.get LS_MBOX_STATUS.WINNER = winner)

/-! ## Weft port (chapter 3) -/

/-- R61, R65, R78, R435: a descriptor of no order and no reserved format, of a bolt not known yet, that a ready link carries in a beat
that found room, puts the bolt into the table: refused with the code of Table 3.11 that its arrival earns, if any, and else not refused.
Its 64 bytes pass on the link, which then expects the part's row records, if it has any. No other bolt, no register, no core state and
no tile changes. -/
def Obligations.NewBoltEntersTheTable : Prop :=
  ∀ (s : State) (l : Fin 8) (d : List W64) (rival : Option Rival) (m : BitVec 8), s.serving = true → (s.link l.val).up = true →
    (s.link l.val).desync = false → (s.link l.val).cursor = none → (s.link l.val).inGone = false → s.bolt? (dBoltId d) = none →
    dInFmt d ≤ 6 → dOrderAction d = 0 →
    ∃ t b, exec (.boltPart l d false rival m) s = .next t ∧ t.bolt? (dBoltId d) = some b ∧ b.desc = d ∧
      b.refused = s.arrivalCode l.val d ∧ b.turnedAway = (s.arrivalCode l.val d).isSome ∧
      b.parts = [{ link := l.val, first := dFirstRow d, count := dPartRows d }] ∧
      t.weft.bolts.length = s.weft.bolts.length + 1 ∧ (∀ id, id ≠ dBoltId d → t.bolt? id = s.bolt? id) ∧
      t.weft.links = modAt s.weft.links l.val (fun x =>
        { x with inPos := (x.inPos + 64) % 1184,
                 cursor := if dPartRows d = 0 then x.cursor else some (dBoltId d, dPartRows d),
                 size := if dPartRows d = 0 then x.size else recordBytes d }) ∧
      t.regs = s.regs ∧ t.heddle = s.heddle ∧ t.tiers = s.tiers

/-- R74, R435: a row record of an accepted part that finds room in the replay buffer of its link, with no link above HIGH_WATER
afterwards, is kept there with its place in the bolt, its metadata and its payload of the descriptor's length; its bytes pass on the
link, which counts down the part's records, and the part counts one record more. No register changes. -/
def Obligations.RowRecordIsKept : Prop :=
  ∀ (s : State) (l : Fin 8) (m0 m1 : W64) (payload : List Byte) (id left : Nat) (b : Bolt) (p : Part), s.serving = true →
    (s.link l.val).up = true → (s.link l.val).desync = false → (s.link l.val).cursor = some (id, left) →
    (s.link l.val).inGone = false → s.weft.bolts.filter (·.id == id) = [b] →
    b.refused = none → b.stopped = false → b.internal = false → b.st = .running →
    b.parts.find? (fun p => p.link == l.val && decide (p.got < p.count)) = some p →
    s.occupancy l.val + (s.link l.val).size ≤ replayBytes →
    (∀ h < 8, s.occupancy h + (if h = l.val then recordBytes b.desc else 0) ≤ s.get WP_REPLAY_CTRL.HIGH_WATER * 65536) →
    ∃ t, exec (.rowRecord l m0 m1 payload) s = .next t ∧ t.regs = s.regs ∧
      t.weft.links = modAt s.weft.links l.val (fun x =>
        { x with cursor := if left ≤ 1 then none else some (id, left - 1), inPos := (x.inPos + x.size) % 1184 }) ∧
      let n := payloadPadded (dFmt b.desc) (dDin b.desc)
      ∃ b' r, t.bolt? id = some b' ∧ b'.rows = b.rows ++ [r] ∧ r.index = p.first + p.got ∧ r.link = l.val ∧ r.meta0 = m0 ∧
        r.meta1 = m1 ∧ r.payload = (padTo n payload).take n ∧ r.held = true ∧ r.grouped = false ∧ r.spoiled = false ∧
        b'.parts = modWhere (fun q => q.link == l.val && q.first == p.first) (fun q => { q with got := q.got + 1 }) b.parts ∧
        b'.lastBeat = s.cust.aclk ∧ b'.desc = b.desc ∧ b'.refused = none

/-- R56, R59, R355, R435: the beats of a descriptor (64 bytes) or of a row record (16 bytes and its payload) on a link that is down, or
that has lost its place after a reserved format, are discarded, and OVERRUN of the link counts each beat once: one that has been
discarded before it counts no more. Nothing but that register and the place in the beat changes. A descriptor that comes while a part's
records are due is none, and changes nothing. -/
def Obligations.LostLinksPassBeatsOver : Prop :=
  ∀ (s : State) (l : Fin 8) (d : List W64) (m0 m1 : W64) (payload : List Byte) (rival : Option Rival) (m : BitVec 8) (x : Bool),
    s.serving = true → s.pm.st ≠ .idle →
    let y := s.link l.val
    let ovr := WP_LINK_EVENTS.OVERRUN l.val
    let drops := fun (n : Nat) (t : State) =>
      rewrites { s with weft := { s.weft with links := modAt s.weft.links l.val (fun z =>
        { z with inPos := (z.inPos + n) % 1184, inGone := true }) } } t [ovr.off] ∧
      t.get ovr = min (s.get ovr + ((y.inPos + n + 1183) / 1184 - (if y.inGone && y.inPos != 0 then 1 else 0)))
        (2 ^ fldWidth ovr - 1)
    (y.up = false ∨ y.desync = true →
      (∃ t, exec (.boltPart l d x rival m) s = .next t ∧ drops 64 t) ∧
      (∃ t, exec (.rowRecord l m0 m1 payload) s = .next t ∧ drops (16 + payload.length) t)) ∧
    (y.up = true → y.desync = false → y.cursor ≠ none → exec (.boltPart l d x rival m) s = .next s)

/-- R57, R435: after a gap a link that has lost its place takes a descriptor again, at byte 0 of a beat; another link goes on as it was.
A retransmission on a link that is up counts in CRC_RETRY; one that passes ends the run of failures, and one that fails counts in it; on
a link that is down it is nothing. The sixteenth failure in a row fails the link: it is down, and a fault record of class LINK_FAILED
(0x04) is written; here of a Harness that is out of service already, with no bolt known. -/
def Obligations.LinkFramingRecovers : Prop :=
  ∀ (s : State) (l : Fin 8) (passed : Bool), s.powered = true →
    exec (.desyncGapEnd l) s = .next (s.modLink l.val (fun x =>
      if x.desync then { x with desync := false, cursor := none, inPos := 0, inGone := false } else x)) ∧
    ((s.link l.val).up = false → exec (.crcRetry l passed) s = .next s) ∧
    ((s.link l.val).up = true →
      let u := (s.bump (WP_LINK_EVENTS.CRC_RETRY l.val)).modLink l.val
        (fun x => { x with crcFails := if passed then 0 else (s.link l.val).crcFails + 1 })
      (passed = true ∨ (s.link l.val).crcFails < 15 → exec (.crcRetry l passed) s = .next u) ∧
      (passed = false → 15 ≤ (s.link l.val).crcFails → exec (.crcRetry l passed) s = .next (s.after (u.failLink l.val))) ∧
      (passed = false → 15 ≤ (s.link l.val).crcFails → s.inService l.val = false → s.weft.bolts = [] → l.val < s.weft.links.length →
        ∃ t, exec (.crcRetry l passed) s = .next t ∧ notesFault s t 4 0 ∧ (t.link l.val).up = false))

/-- R71 to R73: the oldest record that waits on a link leaves in a run of its own, with the run header of Table 3.8 before it, right
behind the run before; its result has left, and no register but the flying-shuttle measurement changes. -/
def Obligations.EgressRecordsLeaveInOrder : Prop :=
  ∀ (s : State) (l : Fin 8) (e : Egress) (rest : List Egress), s.serving = true →
    (s.link l.val).egress = e :: rest → ∃ t, exec (.egressRecordEmit l) s = .next t ∧
      (let run := (runHeader 1 0 e.bolt).flatMap wordBytes ++ e.bytes
       t.weft.links = modAt s.weft.links l.val
        (fun x => { x with egress := rest, out := run, outPos := (x.outPos + run.length) % 1184 })) ∧
      (∀ b r, s.bolt? e.bolt = some b → b.result? e.row e.proj = some r → ∃ b' r', t.bolt? e.bolt = some b' ∧
        b'.result? e.row e.proj = some r' ∧ r'.emitted = true ∧ r'.status = r.status) ∧
      (∀ off, off ≠ LS_SPRINT_EVENTS.LAST_CYCLES.off → t.word off = s.word off) ∧ t.heddle = s.heddle ∧ t.tiers = s.tiers

/-- R12, R65, R76, R79, R80: a local bolt that may complete sends its completion record as a run of KIND 1 on its completion link, and
COMPLETED counts it; its other records leave the egress queues. When the host accepts the record of a bolt that has sent it, the bolt
leaves the table, the rest stay, and COUNT of WP_CPL_PENDING rises. The hold-off of a counted completion raises ZQ_IRQ_DONE where ENABLE
is 1. A read of WP_CPL_PENDING, by either row, answers COUNT and leaves it 0; no counted completion waits any more. -/
def Obligations.CompletionsGoOutAndAreCounted : Prop :=
  ∀ (s : State) (id : BitVec 32) (b : Bolt), s.powered = true →
    (s.named id.toNat (fun b => s.mayComplete b || s.mayAnswer b) = some b → b.remote = none → ∃ t,
      exec (.completionEmit id) s = .next t ∧
      (let run := (runHeader 1 1 b.id).flatMap wordBytes ++ b.completion.flatMap wordBytes
       t.weft.links = modAt (s.weft.links.map (fun x => { x with egress := x.egress.filter (fun e => e.bolt != b.id) }))
        (s.completionLink b) (fun x => { x with out := run, outPos := (x.outPos + run.length) % 1184 })) ∧
      (∃ b', t.bolt? id.toNat = some b' ∧ b'.st = .emitted) ∧
      t.get WP_BOLT_EVENTS.COMPLETED = min (s.get WP_BOLT_EVENTS.COMPLETED + 1) (2 ^ fldWidth WP_BOLT_EVENTS.COMPLETED - 1)) ∧
    (s.bolt? id.toNat = some b → b.st = .emitted → ∃ t, exec (.completionAccepted id) s = .next t ∧
      t.weft.bolts = s.weft.bolts.filter (fun x => x.id != id.toNat) ∧ t.bolt? id.toNat = none ∧
      t.get WP_CPL_PENDING.COUNT = min (s.get WP_CPL_PENDING.COUNT + 1) (2 ^ fldWidth WP_CPL_PENDING.COUNT - 1) ∧
      (∀ off, off ≠ WP_CPL_PENDING.COUNT.off → t.word off = s.word off)) ∧
    (s.get WP_CPL_PENDING.COUNT ≠ 0 → ∃ t, exec .irqDoneHoldoff s = .next t ∧
      t = { s with weft := { s.weft with holdoffHit := true } } ∧ (s.flag WP_IRQ_CTRL.ENABLE = true → t.irqDone = true)) ∧
    (s.serving = true → ∃ t, exec .cplPendingRead s = .next t ∧ exec (.rcRead WP_CPL_PENDING.COUNT.off 8) s = .next t ∧
      t.resp = .data (s.shownWord WP_CPL_PENDING.COUNT.off) ∧ t.get WP_CPL_PENDING.COUNT = 0 ∧ t.irqDone = false ∧
      (∀ off, off ≠ WP_CPL_PENDING.COUNT.off → t.word off = s.word off) ∧
      t = { s with regs := t.regs, resp := t.resp, free := s.free + 1, weft := { s.weft with holdoffHit := false } })
/-! ## Shuttle and cores (chapters 4 to 6) -/

/-- R96, R313: the pick that is next to enter the queue of a core, its first flying-shuttle pick not yet queued, and without one its
oldest pick not yet queued, enters it while fewer than 16 are queued: behind those that wait, and if it is a flying-shuttle pick ahead of
those that are none and have issued no block. With 16 queued, or no pick left to queue, nothing changes. -/
def Obligations.PicksEnterTheQueueOfTheirCore : Prop :=
  ∀ (s : State) (h : Fin 8) (c : Fin 66), s.serving = true →
    let due := s.heddle.picks.filter (fun p => p.h == h.val && p.c == c.val && !p.queued)
    let q := (s.core h.val c.val).queue
    (∀ p, (due.find? Pick.sprint = some p ∨ (due.find? Pick.sprint = none ∧ due.head? = some p)) →
      (q.length < 16 → ∃ t, exec (.pickEnqueue h c) s = .next t ∧
        (∀ x, t.pick? p.id = some x → x.queued = true) ∧ t.regs = s.regs ∧ t.weft = s.weft ∧ t.tiers = s.tiers ∧
        (p.sprint = false → (t.core h.val c.val).queue = q ++ [p.id]) ∧
        (p.sprint = true → ∃ a b, q = a ++ b ∧ (t.core h.val c.val).queue = a ++ [p.id] ++ b ∧
          (∀ i ∈ a, (s.pick? i).any (fun x => x.sprint || x.issued != 0) = true) ∧
          (∀ i, b.head? = some i → (s.pick? i).any (fun x => x.sprint || x.issued != 0) = false))) ∧
      (16 ≤ q.length → exec (.pickEnqueue h c) s = .next s)) ∧
    (due = [] → exec (.pickEnqueue h c) s = .next s)

/-- R126: the oldest row copy due in a Harness is made while the row stage of 2 MiB has room, and counts in ROWS_MOVED_IN; while the
stage is full the copy stays due and nothing changes; a row that is gone is copied no more. -/
def Obligations.RowStageTakesTheOldestCopyDue : Prop :=
  ∀ (s : State) (h : Fin 8) (q : StageReq) (rest : List StageReq), s.serving = true →
    (s.harness h.val).reqs = q :: rest →
    (∀ r, s.row? q.bolt q.row = some r → r.held = true → r.spoiled = false →
      ((s.harness h.val).stageUsed + r.payload.length ≤ 2097152 → ∃ t, exec (.rowStageCopy h) s = .next t ∧
        t.heddle.harnesses = modAt s.heddle.harnesses h.val (fun x =>
          { x with reqs := rest, stage := x.stage ++ [{ bolt := q.bolt, row := q.row, kind := .row, bytes := r.payload }] }) ∧
        t.get (SD_ROW_EVENTS.ROWS_MOVED_IN h.val) = min (s.get (SD_ROW_EVENTS.ROWS_MOVED_IN h.val) + 1)
          (2 ^ fldWidth (SD_ROW_EVENTS.ROWS_MOVED_IN h.val) - 1) ∧
        t.weft = s.weft ∧ t.tiers = s.tiers) ∧
      (2097152 < (s.harness h.val).stageUsed + r.payload.length → exec (.rowStageCopy h) s = .next s)) ∧
    (s.row? q.bolt q.row = none → exec (.rowStageCopy h) s = .next (s.modHarness h.val (fun x => { x with reqs := rest })))

/-- R69, R122, R307, R308: GROUPING_WINDOW_CLOSE of a bolt none of whose windows may close changes nothing; else it groups the next
window (`closeWindow`), and what waits goes on. A window of the one bolt known, local, all of whose rows are masked, with no tile job
and nothing waiting, counts as a window of its bolt, its rows are grouped, each gives a MASKED result (1) for every projection, and no
core, gang or tile changes. TURN_PLACE places the next turn of the oldest window in a Harness, once every pick of the turn before has
issued all its blocks: TURN of SD_TURN_STATUS counts it, and the window leaves the Harness when no turn of it is left. It changes nothing
before that, or with no window there. -/
def Obligations.WindowsAndTurnsGoForward : Prop :=
  ∀ (s : State) (id : BitVec 32) (h : Fin 8), s.serving = true →
    (s.named id.toNat s.windowCloses = none → exec (.groupingWindowClose id) s = .next s) ∧
    (∀ b, s.named id.toNat s.windowCloses = some b →
      exec (.groupingWindowClose id) s = .next (s.after (s.closeWindow b).carryOn) ∧
      (s.atRest → s.weft.bolts = [b] → b.remote = none → (∀ r ∈ b.rows, r.mask = true) → b.results = [] → b.sprint = false →
        b.findsMode = false → (∀ i < 8, (s.spindle i).jobs = []) → s.windowRows b ≠ [] →
        ∃ t b', exec (.groupingWindowClose id) s = .next t ∧ t.weft.bolts = [b'] ∧ b'.windows = b.windows + 1 ∧
          (∀ r ∈ s.windowRows b, ∀ r' ∈ b'.rows, r'.index = r.index → r'.grouped = true) ∧
          (∀ r ∈ s.windowRows b, ∀ p ∈ dProjs b.desc, ∃ x ∈ b'.results, x.row = r.index ∧ x.proj = p ∧ x.status = 1) ∧
          t.heddle = s.heddle ∧ t.tiers = s.tiers)) ∧
    (∀ w rest, (s.harness h.val).turns = w :: rest →
      (s.turnIssued h.val w = true → ∃ t q, exec (.turnPlace h) s = .next t ∧ q = (s.nextTurn h.val w).2 ∧
        q.placed = w.placed + 1 ∧ (t.harness h.val).turns = (if q.more then q :: rest else rest) ∧
        t.get (SD_TURN_STATUS.TURN h.val) = (w.placed + 1) % 2 ^ fldWidth (SD_TURN_STATUS.TURN h.val)) ∧
      (s.turnIssued h.val w = false → exec (.turnPlace h) s = .next s)) ∧
    ((s.harness h.val).turns = [] → exec (.turnPlace h) s = .next s)

/-- R89 to R92, R97, R99: the block rows of a core. BLOCK_ISSUE issues the next block of the oldest due pick when none of the thirteen
conditions of Table 4.4 makes it wait, its tiles can be read, and no breakpoint is armed: the pick has issued one block more, the block
stands in its core with its tiles, BLOCKS counts it, and what waits goes on; with no due pick nothing changes. LOAD marks the blocks that
it serves as loaded and counts its words in LOAD_CYCLES; front banks and picks stay, and for one block each segment that does not hold
the K-tile in front holds it in back. SWAP exchanges front and back of these segments for the oldest loaded block, and the passes run on.
DRAIN drains the first tile of the oldest block that has passed: where its receiver takes it, the tiles behind it are left, and where it
does not, the tile stays; the passes run on, and what waits goes on. Without a block that a row of LOAD or SWAP serves nothing changes. -/
def Obligations.CoreBlocksIssueLoadSwapAndDrain : Prop :=
  ∀ (s : State) (h : Fin 8) (c : Fin 66), s.serving = true →
    let k := s.core h.val c.val
    (duePicks (s.queuePicks h.val c.val) = [] → s.atRest → exec (.blockIssue h c) s = .next s) ∧
    (∀ p rest, duePicks (s.queuePicks h.val c.val) = p :: rest → s.atRest → s.tiers.writes = [] → p.h = h.val → p.c = c.val →
      p.issued < p.blocks → p.stash = [] → s.flag BD_DBG_CTRL.ARM = false →
      (s.blockTiles p p.issued).any s.tileError = false → s.waitCause p = none →
      ∃ t, exec (.blockIssue h c) s = .next t ∧ (∀ q, t.pick? p.id = some q → q.issued = p.issued + 1) ∧
        (∃ b ∈ (t.core h.val c.val).blocks, b.pick = p.id ∧ b.index = p.issued ∧ b.refs = s.blockTiles p p.issued) ∧
        t.get (PICK_EVENTS.BLOCKS h.val c.val) = min (s.get (PICK_EVENTS.BLOCKS h.val c.val) + 1)
          (2 ^ fldWidth (PICK_EVENTS.BLOCKS h.val c.val) - 1)) ∧
    (s.nextLoad h.val c.val = [] → exec (.load h c) s = .next s) ∧
    (∀ x rest, s.nextLoad h.val c.val = x :: rest → (∀ y ∈ x :: rest, y.2.h = h.val ∧ y.2.c = c.val) →
      ∃ t, exec (.load h c) s = .next t ∧ (∀ y ∈ x :: rest, ∀ b ∈ (t.core h.val c.val).blocks, b.same y.1 = true → b.loaded = true) ∧
        (t.core h.val c.val).front = k.front ∧ (t.core h.val c.val).frontTile = k.frontTile ∧ t.heddle.picks = s.heddle.picks ∧
        t.get (LOAD_EVENTS.LOAD_CYCLES h.val c.val) = min (s.get (LOAD_EVENTS.LOAD_CYCLES h.val c.val) + loadSize x)
          (2 ^ fldWidth (LOAD_EVENTS.LOAD_CYCLES h.val c.val) - 1) ∧
        (rest = [] → (x.2.segs.map (·.1)).Nodup → ∀ g ∈ k.lacking x.2 x.1.index x.1.ktDone,
          mapGet .none (t.core h.val c.val).backTile g.1 = x.2.statTile x.1.index x.1.ktDone g.2)) ∧
    (k.blocks.find? (·.loaded) = none → exec (.swap h c) s = .next s) ∧
    (∀ b p, k.blocks.find? (·.loaded) = some b → s.pick? b.pick = some p → p.h = h.val → p.c = c.val → (p.segs.map (·.1)).Nodup →
      exec (.swap h c) s = .next (s.after ((s.modCore h.val c.val (Core.swapBanks b p)).advance h.val c.val)) ∧
      ∃ t, exec (.swap h c) s = .next t ∧
        (∀ g < 32, (t.core h.val c.val).front.getLsbD g =
          (k.front.getLsbD g ^^ ((k.lacking p b.index b.ktDone).map (·.1)).contains g)) ∧
        (∀ g ∈ k.lacking p b.index b.ktDone, mapGet .none (t.core h.val c.val).frontTile g.1 = mapGet .none k.backTile g.1)) ∧
    (exec (.drain h c) s = .next (s.after (((s.drainOne h.val c.val).advance h.val c.val).carryOn)) ∧
     ∀ b p d rest, k.blocks.find? (fun b => decide (b.kTiles ≤ b.ktDone) && !b.drains.isEmpty) = some b → s.pick? b.pick = some p →
      b.drains = d :: rest → (s.acceptTile p b d = none → s.drainOne h.val c.val = s) ∧
      (∀ u, s.acceptTile p b d = some u → rest ≠ [] → u.heddle.cores = s.heddle.cores → ∃ b',
        b' ∈ ((s.drainOne h.val c.val).core h.val c.val).blocks ∧ b'.pick = b.pick ∧ b'.index = b.index ∧ b'.drains = rest))

/-- R112, R113, R314: an ON core without a block that nothing holds on gates, and nothing else of it changes; with a block, held on, or
not ON, it does not. A core that is not ON and is due ramps to ON and counts in RAMPS; one that is ON does not. The end of the
flying-shuttle hold holds no core any more. -/
def Obligations.CoresGateAndRamp : Prop :=
  ∀ (s : State) (h : Fin 8) (c : Fin 66), s.serving = true →
    ((s.core h.val c.val).power = .on → (s.core h.val c.val).blocks = [] → s.heldOn h.val c.val = false →
      exec (.coreGate h c) s = .next (s.modCore h.val c.val (fun k => { k with power := .gated }))) ∧
    ((s.core h.val c.val).blocks ≠ [] ∨ s.heldOn h.val c.val = true ∨ (s.core h.val c.val).power ≠ .on →
      exec (.coreGate h c) s = .next s) ∧
    ((s.core h.val c.val).power ≠ .on → s.rampDue h.val c.val = true → ∃ t, exec (.coreRamp h c) s = .next t ∧
      t.heddle = (s.modCore h.val c.val (fun k => { k with power := .on })).heddle ∧
      t.get (PICK_EVENTS.RAMPS h.val c.val) = min (s.get (PICK_EVENTS.RAMPS h.val c.val) + 1)
        (2 ^ fldWidth (PICK_EVENTS.RAMPS h.val c.val) - 1) ∧ t.weft = s.weft ∧ t.tiers = s.tiers) ∧
    ((s.core h.val c.val).power = .on → exec (.coreRamp h c) s = .next s) ∧
    exec .sprintHoldExpiry s = .next { s with heddle := { s.heddle with sprintHold := false } }

/-- R146, R199, R205, R206, R311: STRAND_COMBINE sends H of a flying-shuttle bolt back once its partials are in; else the strand of a
Harness that can join its cell joins it: the first becomes the cell, a later one is added, which counts in COMBINES; else two complete
siblings make their node. LONG_SUM_FINISH ends a long sum that closes: with the directory entry in Beam, one that has lost terms goes and
its gradients are looked after, and of one that has not the GRAD_OUT job of its matrix is formed. NORM_AND_SCALARS, with the directory
entry and the record of an adapter in Beam, skips the update of a learner whose gradients are done but incomplete: SKIPPED counts it. Where
a row has nothing to act on nothing changes. -/
def Obligations.SumsCombineAndFinish : Prop :=
  ∀ (s : State) (h : Fin 8) (a : BitVec 16) (l : BitVec 10) (pj : BitVec 4) (isB : Bool), s.serving = true → s.atRest →
    (∀ f, s.heddle.sprint.filter s.sprintDone = some f →
      exec (.strandCombine h) s = .next (s.after (s.sprintReturn f)) ∧
      (∀ b, s.bolt? f.bolt = some b → ∃ t, exec (.strandCombine h) s = .next t ∧
        t.heddle.sprint = some { f with hDone := true, parts := [] })) ∧
    (s.heddle.sprint.filter s.sprintDone = none → s.nextStrand h.val = none →
      (s.nextPair h.val = none → exec (.strandCombine h) s = .next s) ∧
      (∀ x c d, s.nextPair h.val = some (x, c, d) → exec (.strandCombine h) s = .next (s.after (s.combinePair x c d)) ∧
        ∃ t, exec (.strandCombine h) s = .next t ∧
          t.get RN_EVENTS.COMBINES = min (s.get RN_EVENTS.COMBINES + 1) (2 ^ fldWidth RN_EVENTS.COMBINES - 1))) ∧
    (∀ x st, s.heddle.sprint.filter s.sprintDone = none → s.nextStrand h.val = some (x, st) →
      (x.cells.find? st.joins = none → ∃ t, exec (.strandCombine h) s = .next t ∧ t.regs = s.regs ∧
        t.heddle.sums = s.heddle.sums.map (fun y => if y == x then
          { x with strands := x.strands.filter (· != st),
                   cells := x.cells ++ [{ index := cellOf st.firstTerm, outTile := st.outTile, harness := st.harness,
                                          elems := st.elems }] } else y)) ∧
      (∀ c, x.cells.find? st.joins = some c → c.frame = none → ∃ t, exec (.strandCombine h) s = .next t ∧
        t.heddle.sums = s.heddle.sums.map (fun y => if y == x then
          { x with strands := x.strands.filter (· != st),
                   cells := modWhere st.joins (fun _ => { c.readBack with elems := addElems c.readBack.elems st.elems }) x.cells }
          else y) ∧
        t.get RN_EVENTS.COMBINES = min (s.get RN_EVENTS.COMBINES + 1) (2 ^ fldWidth RN_EVENTS.COMBINES - 1))) ∧
    (∀ x, s.heddle.sums.find? (fun x => x.adapter == a.toNat && x.layer == l.toNat && x.proj == pj.toNat && x.isB == isB &&
        s.sumCloses x) = some x → s.inBeam (s.dirAddr x.adapter) 64 →
      (x.incomplete = true → ∃ t, exec (.longSumFinish a l pj isB) s = .next t ∧ t.heddle.sums = s.heddle.sums.filter (· != x) ∧
        Work.gradients ∈ t.tiers.work) ∧
      (∀ y d sec m, x.incomplete = false → s.learner? x.adapter x.rev = some y → s.rawDir x.adapter = some d →
        s.sectionOf d y.opt x.layer x.proj x.isB = some sec → s.runMat d ⟨0, 0⟩ sec = some m →
        s.standIn (x.adapter % 8) < s.spindles.length → ∃ t, exec (.longSumFinish a l pj isB) s = .next t ∧
          t.heddle.sums = s.heddle.sums.filter (· != x) ∧ ∃ j ∈ (t.spindle (s.standIn (x.adapter % 8))).jobs, j.key.cls = 4 ∧
            j.key.bolt = x.rev ∧ j.key.adapter = x.adapter ∧ j.key.layer = x.layer ∧ j.key.proj = x.proj ∧ j.key.isB = x.isB)) ∧
    (s.heddle.sums = [] → exec (.longSumFinish a l pj isB) s = .next s) ∧
    (∀ x, s.skein.learners.find? (fun x => x.adapter == a.toNat && x.learns && !x.normDone && s.gradientsDone x) = some x →
      x.incomplete = true → s.inBeam (s.dirAddr x.adapter) 64 → s.inBeam (s.recordAddr x.adapter) 32 →
      ∃ t, exec (.normAndScalars a) s = .next t ∧
        t.get ST_LEARN_EVENTS.SKIPPED = min (s.get ST_LEARN_EVENTS.SKIPPED + 1) (2 ^ fldWidth ST_LEARN_EVENTS.SKIPPED - 1) ∧
        ∀ y ∈ t.skein.learners, y.adapter = x.adapter → y.rev = x.rev → y.normDone = true ∧ y.skipped = true) ∧
    (s.skein.learners = [] → exec (.normAndScalars a) s = .next s)

/-! ## Spindle (chapter 7) -/

/-- R160, R170, R171, R412: an open Spindle of an engine with nothing waiting starts the first job that may start: a job of FWD_HIDDEN
or GRAD_OUT is then started, in the present lane width, on the slot of its class. The body of the program runs over the oldest closed
vector of a started job: its issue cycles count, and the register file stands as the body left it. A GRAD_ROW job whose vectors have run
ends its instance with the tail: with elements left it is no longer started and its place goes on, else it leaves. In CHECKED mode a
lockstep mismatch on a Spindle with a fault-free pair marks that pair instead. A Spindle that has failed or is stopped runs no vector and
no tail; one that is not open, or has nothing to start, starts nothing. -/
def Obligations.SpindleJobsRun : Prop :=
  ∀ (s : State) (h : Fin 8) (mm : Bool), s.atRest →
    (∀ j, s.spindleOpen h.val = true → s.nextStart h.val = some j → j.key.cls = 0 ∨ j.key.cls = 4 →
      ∃ t, exec (.spindleInstanceStart h) s = .next t ∧ ∃ y ∈ (t.spindle h.val).jobs, y.key = j.key ∧ y.started = true ∧
        y.width = s.laneWidth h.val ∧ y.slot = s.get (SV_MAP.SLOT h.val j.key.cls)) ∧
    (s.spindleOpen h.val = false ∨ s.nextStart h.val = none → exec (.spindleInstanceStart h) s = .next s) ∧
    (∀ j, s.serving = true → (s.spindle h.val).failed = false → s.spindleStopped h.val = false → s.vectorJob h.val = some j →
      (mm = true → j.width = 256 → exec (.spindleVector h mm) s = .next (s.after (s.mismatch h.val j)) ∧
        ∀ k, s.freePair h.val = some k → j.key.cls = 2 → ∃ t, exec (.spindleVector h mm) s = .next t ∧
          (t.spindle h.val).blockFault = (s.spindle h.val).blockFault ||| (3#8 <<< (2 * k))) ∧
      (mm = false ∨ j.width ≠ 256 → ∃ t, exec (.spindleVector h mm) s = .next t ∧
        let m := s.midOf h.val j
        let words := s.runWords h.val j m
        (t.spindle h.val).last = some j.key ∧ (t.spindle h.val).file = (m.run.run (words.drop m.pc)).regs ∧
        t.get (SV_CYCLES.ISSUE_CYCLES h.val) = min (s.get (SV_CYCLES.ISSUE_CYCLES h.val) +
          (if m.tail then progCost words else max 1 (progCost words))) (2 ^ fldWidth (SV_CYCLES.ISSUE_CYCLES h.val) - 1))) ∧
    (∀ j, s.serving = true → (s.spindle h.val).failed = false → s.spindleStopped h.val = false → s.tailJob h.val = some j →
      (mm = true → j.width = 256 → exec (.spindleTail h mm) s = .next (s.after (s.mismatch h.val j))) ∧
      (mm = false ∨ j.width ≠ 256 → j.key.cls = 2 →
        (j.pos + j.width < j.total → ∃ t, exec (.spindleTail h mm) s = .next t ∧ ∃ y ∈ (t.spindle h.val).jobs, y.key = j.key ∧
          y.started = false ∧ y.pos = j.pos + j.width) ∧
        (j.total ≤ j.pos + j.width → ∃ t, exec (.spindleTail h mm) s = .next t ∧
          ∀ y ∈ (t.spindle h.val).jobs, y.key ≠ j.key))) ∧
    ((s.spindle h.val).failed = true ∨ s.spindleStopped h.val = true →
      exec (.spindleVector h mm) s = .next s ∧ exec (.spindleTail h mm) s = .next s)

/-- R187: in SERVICE mode a parity error of a Spindle without a job that runs sets FORCED and marks the block, or, in a program slot, the
program fault; while a fault-free pair is left nothing else changes but its fault record, of class SPINDLE (0x08). -/
def Obligations.SpindleParityErrorForces : Prop :=
  ∀ (s : State) (h b : Fin 8) (inSlot : Bool), s.serving = true → (s.spindle h.val).failed = false →
    s.vectorJob h.val = none → s.tailJob h.val = none → s.spChecked h.val = false →
    let u := (s.modSpindle h.val (fun v => { v with
      forced := true, progFault := v.progFault || inSlot,
      blockFault := if inSlot then v.blockFault else v.blockFault ||| (1#8 <<< b.val) }))
    (u.freePair h.val).isSome = true → ∃ t, exec (.spindleParityError h b inSlot) s = .next t ∧
      t = { u with regs := t.regs } ∧ notesFault s t 8 5

/-- R184, R185, R188: an entry of the class map that has no reason to be refused takes its slot and its fields; one that has is refused
with the reason and the entry stands. A word of a program slot that nothing uses is written, one of a slot in use is refused. RESUME
reads 1, MODE stays, and nothing else changes yet. -/
def Obligations.SpindleRegistersAreChecked : Prop :=
  ∀ (s : State) (h k : Fin 8) (slot : Fin 32) (i : Fin 64) (v : W64), s.boot.stage = .up → s.pm.st = .run →
    let reason := mapReason k.val v (s.progWords h.val (bitsOf v.toNat 4 0))
    let off := (SV_MAP.SLOT h.val k.val).off
    (reason = 0 → ∃ t, exec (.svMapWrite h k v) s = .next t ∧ rewrites { s with resp := .written } t [off] ∧
      t.get (SV_MAP.SLOT h.val k.val) = bitsOf v.toNat 4 0 ∧ t.word off = (s.writeFields off v).word off) ∧
    (reason ≠ 0 → ∃ t, exec (.svMapWrite h k v) s = .next t ∧
      rewrites { s with resp := .written } t [(SV_STATUS.MAP_REFUSED h.val).off] ∧ t.get (SV_STATUS.MAP_REFUSED h.val) = 1 ∧
      t.get (SV_STATUS.REFUSE_REASON h.val) = reason % 2 ^ fldWidth (SV_STATUS.REFUSE_REASON h.val)) ∧
    (s.slotInUse h.val slot.val = true → ∃ t, exec (.svProgWrite h slot i v) s = .next t ∧
      rewrites { s with resp := .written } t [(SV_STATUS.PROG_WRITE_REFUSED h.val).off] ∧
      t.get (SV_STATUS.PROG_WRITE_REFUSED h.val) = 1) ∧
    (s.slotInUse h.val slot.val = false → ∃ t, exec (.svProgWrite h slot i v) s = .next t ∧
      rewrites { s with resp := .written } t [(SV_PROG.WORD h.val slot.val i.val).off] ∧
      t.word (SV_PROG.WORD h.val slot.val i.val).off = v) ∧
    (∃ t, exec (.spindleResume h) s = .next t ∧ rewrites { s with resp := .written } t [(SV_CTRL.RESUME h.val).off] ∧
      t.get (SV_CTRL.RESUME h.val) = 1 ∧ t.get (SV_CTRL.MODE h.val) = s.get (SV_CTRL.MODE h.val))

/-! ## Skein Table Unit (chapter 9) -/

/-- R218, Table 9.3: a directory command that finds its unit free is taken: BUSY is 1, it waits as a piece of work, and what waits goes on.
Of a powered engine with nothing else waiting, it waits while IN_BOUNDARY is 1; while the directory is not ready it completes with
DIR_NOT_READY (0x06), and nothing but its command word changes. -/
def Obligations.DirectoryCommandsRunOrWait : Prop :=
  ∀ (s : State) (a : BitVec 16), s.writeGate ST_DESC_CMD.GO.off = .made → s.powered = true → s.flag ST_DESC_CMD.BUSY = false →
    s.atRest →
    ∀ c op, (c, op) ∈ [(Instr.dirWrite a, 0), (.dirRead a, 1), (.dirInvalidate a, 2), (.dirUpdate a, 3), (.dirSetPending a, 4)] →
    let u := { (s.writeFields ST_DESC_CMD.GO.off (descWord op a.toNat)).set ST_DESC_CMD.BUSY 1 with
      resp := .written, tiers := { s.tiers with work := [.directory op a.toNat] } }
    exec c s = .next (s.after u.carryOn) ∧
    (s.inBoundary = true → ∃ t, exec c s = .next t ∧ t.flag ST_DESC_CMD.BUSY = true ∧
      rewrites { s with resp := .written, tiers := { s.tiers with work := [.directory op a.toNat] } } t [ST_DESC_CMD.GO.off]) ∧
    (s.inBoundary = false → s.dirReady = false → ∃ t, exec c s = .next t ∧
      rewrites { s with resp := .written } t [ST_DESC_CMD.GO.off] ∧ t.get ST_DESC_CMD.STATUS = 6 ∧
      t.flag ST_DESC_CMD.BUSY = false ∧ t.flag ST_DESC_CMD.GO = false)

/-- R218, R219, R220, Table 9.3: of an engine with nothing else waiting, outside a boundary, with the entry of the adapter in Beam, a
directory command completes: READ (OK, 0) with the entry's eight words in the staging words; UPDATE of a VALID entry, no reserved policy
staged, with the staged fields to be applied at the boundary (OK); WRITE over a VALID entry with ALREADY_VALID (0x01), and INVALIDATE,
UPDATE and SET_PENDING of an entry that is not VALID with NOT_VALID (0x01). -/
def Obligations.DirectoryCommandsMeetTheEntry : Prop :=
  ∀ (s : State) (a : BitVec 16) (d : Dir), s.writeGate ST_DESC_CMD.GO.off = .made → s.powered = true →
    s.flag ST_DESC_CMD.BUSY = false → s.atRest → s.inBoundary = false → s.rawDir a.toNat = some d → s.inBeam (s.dirAddr a.toNat) 64 →
    let ends := fun (c : Instr) (t : State) (code : Nat) => exec c s = .next t ∧ t.get ST_DESC_CMD.STATUS = code ∧
      t.get ST_DESC_CMD.BUSY = 0 ∧ t.get ST_DESC_CMD.GO = 0 ∧ t.tiers.work = []
    (∃ t, ends (.dirRead a) t 0 ∧ ∀ i < 8, t.word (ST_DESC_STAGE.WORD i).off = d.words.getD i 0) ∧
    (d.valid = true → ∃ t, ends (.dirWrite a) t 1 ∧ t.tiers.beam = s.tiers.beam) ∧
    (d.valid = false → ∀ c ∈ [Instr.dirInvalidate a, .dirUpdate a, .dirSetPending a], ∃ t, ends c t 1 ∧ t.tiers.beam = s.tiers.beam ∧
      t.skein = s.skein) ∧
    (d.valid = true → s.staged.policy ≠ 3 → ∃ t, ends (.dirUpdate a) t 0 ∧
      t.skein.updates = s.skein.updates.filter (fun u => u.1 != a.toNat) ++ [(a.toNat, s.staged.words)])

/-- R432, R213: a write of a boundary-deferred register takes effect at once while no revolution is current: the value in force is the
one written; else the value in force stays for the boundary while the register holds the new one, and so do the others. A width of
ST_SHAPE out of range is ignored, and an offset of another register is none of this row's. -/
def Obligations.DeferredRegistersWaitForTheBoundary : Prop :=
  ∀ (s : State) (off : BitVec 26) (v : W64),
    (isDeferred off.toNat = false → exec (.deferredRegisterWrite off v) s = .next s) ∧
    (isDeferred off.toNat = true → s.writeGate off.toNat = .made →
      (shapeIgnored off.toNat v = true → exec (.deferredRegisterWrite off v) s = .next { s with resp := .written }) ∧
      (shapeIgnored off.toNat v = false → s.revValid = false → ∃ t, exec (.deferredRegisterWrite off v) s = .next t ∧
        t.word off.toNat = (s.writeFields off.toNat v).word off.toNat ∧ t.inForce off.toNat = t.word off.toNat ∧
        (∀ o, o ≠ off.toNat → o ≠ ST_STATUS.DIR_READY.off → t.word o = s.word o ∧ t.inForce o = s.inForce o)) ∧
      (shapeIgnored off.toNat v = false → s.revValid = true → ∃ t, exec (.deferredRegisterWrite off v) s = .next t ∧
        t.word off.toNat = (s.writeFields off.toNat v).word off.toNat ∧ t.inForce off.toNat = s.inForce off.toNat ∧
        (∀ o, o ≠ off.toNat → t.word o = s.word o ∧ t.inForce o = s.inForce o)))

/-- R228, R229: while VALID of a table definition is 0, a write of a word of it that does not set VALID is made; one that sets VALID is
refused, with the reason of the first condition that fails, or else made: REVISION is 1, and, of a table that is not COMPOSED, the free
list holds as many slots as SHADOW_SLOTS. While VALID is 1 a write that clears it is made, and any other is refused with TABLE_REASON
6. A refusal changes nothing but TABLE_REFUSED and TABLE_REASON. -/
def Obligations.TableDefinitionsAreChecked : Prop :=
  ∀ (s : State) (k : Fin 64) (i : Fin 8) (v : W64), s.boot.stage = .up → s.pm.st = .run →
    let off := (ST_TABLE.VALID k.val).off + 8 * i.val
    let set := i.val = 0 ∧ bitOf v.toNat 63 = true
    let u := s.writeFields off v
    (s.flag (ST_TABLE.VALID k.val) = true → ¬ (i.val = 0 ∧ bitOf v.toNat 63 = false) → ∃ t, exec (.tableDefine k i v) s = .next t ∧
      rewrites { s with resp := .written } t [ST_STATUS.TABLE_REFUSED.off] ∧ t.get ST_STATUS.TABLE_REFUSED = 1 ∧
      t.get ST_STATUS.TABLE_REASON = 6) ∧
    (s.flag (ST_TABLE.VALID k.val) = true → i.val = 0 → bitOf v.toNat 63 = false →
      exec (.tableDefine k i v) s = .next (s.after { u with resp := .written }) ∧ u.flag (ST_TABLE.VALID k.val) = false) ∧
    (s.flag (ST_TABLE.VALID k.val) = false → ¬ set → exec (.tableDefine k i v) s = .next (s.after { u with resp := .written })) ∧
    (s.flag (ST_TABLE.VALID k.val) = false → set → s.tableReason (u.tableWords k.val) ≠ 0 → ∃ t,
      exec (.tableDefine k i v) s = .next t ∧ rewrites { s with resp := .written } t [ST_STATUS.TABLE_REFUSED.off] ∧
      t.get ST_STATUS.TABLE_REFUSED = 1 ∧ t.get ST_STATUS.TABLE_REASON = s.tableReason (u.tableWords k.val)) ∧
    (s.flag (ST_TABLE.VALID k.val) = false → set → s.tableReason (u.tableWords k.val) = 0 → ∃ t,
      exec (.tableDefine k i v) s = .next t ∧ t.flag (ST_TABLE.VALID k.val) = true ∧ t.get (ST_TABLE.REVISION k.val) = 1 ∧
      ((u.tableWords k.val).kind ≠ 2 → t.ring k.val = ⟨0, (u.tableWords k.val).shadow⟩))

/-- R237, R239: REPLACE_ROW and CLEAR_ROW that find their unit free, of an engine with nothing waiting: a table that is not valid (0x01), a
COMPOSED one (0x02) and a row beyond PHYS_ROWS (0x03) are refused, and nothing but the command word changes. Else the replacement is taken,
BUSY 1, and what waits goes on. On a table of READ_MODE 1 with no flip of the row held and fewer than 4,096 held, CLEAR_ROW completes (OK, 0)
with a held flip of the row to absent; REPLACE_ROW with the free list empty sets FREE_EMPTY and stays BUSY, and with its first entry, the
source and the slot in Beam completes with a held flip of the row to that slot. -/
def Obligations.RowReplacementsAreChecked : Prop :=
  ∀ (s : State) (k : Fin 64) (p : BitVec 32) (clear : Bool), s.writeGate ST_REPLACE_CMD.GO.off = .made → s.powered = true →
    s.flag ST_REPLACE_CMD.BUSY = false → s.atRest →
    let c := if clear then Instr.clearRow k p else Instr.replaceRow k p
    let u := s.writeFields ST_REPLACE_CMD.GO.off (replaceWord clear k.val p.toNat)
    (∀ code, (s.table? k.val = none ∧ code = 1) ∨
        (∃ t, s.table? k.val = some t ∧ ((t.kind = 2 ∧ code = 2) ∨ (t.kind ≠ 2 ∧ t.phys ≤ p.toNat ∧ code = 3))) →
      ∃ t, exec c s = .next t ∧ rewrites { s with resp := .written } t [ST_REPLACE_CMD.GO.off] ∧
        t.get ST_REPLACE_CMD.STATUS = code ∧ t.get ST_REPLACE_CMD.GO = 0 ∧ t.get ST_REPLACE_CMD.BUSY = 0) ∧
    (∀ t, s.table? k.val = some t → t.kind ≠ 2 → p.toNat < t.phys →
      let src := s.get ST_REPLACE_SRC.SRC / 64 * 64
      let v := { u.set ST_REPLACE_CMD.BUSY 1 with
        resp := .written, skein := { s.skein with replacing := some (k.val, p.toNat, src, clear) } }
      exec c s = .next (s.after v.carryOn) ∧
      (t.passMode = true → s.skein.flips.find? (fun f => f.table == k.val && f.row == p.toNat) = none → s.skein.flips.length < 4096 →
        let done := fun (x : State) (slot : Nat) => exec c s = .next x ∧ x.get ST_REPLACE_CMD.STATUS = 0 ∧
          x.get ST_REPLACE_CMD.BUSY = 0 ∧ x.skein.flips = s.skein.flips ++ [⟨k.val, p.toNat, slot⟩]
        (clear = true → ∃ x, done x absentSlot) ∧
        (clear = false → (s.ring k.val).count = 0 → ∃ x, exec c s = .next x ∧ x.get ST_STATUS.FREE_EMPTY = 1 ∧
          x.get ST_REPLACE_CMD.BUSY = 1 ∧ x.skein.flips = s.skein.flips) ∧
        (∀ slot, clear = false → (s.ring k.val).count ≠ 0 → s.inBeam (t.free + 4 * (s.ring k.val).head) 4 →
          slot = leNat (getRun s.tiers.beam (t.free + 4 * (s.ring k.val).head) 4) → s.inBeam src t.slotBytes →
          s.inBeam (t.slotAddr slot) t.slotBytes → ∃ x, done x slot)))

/-! ## Tier Manager (chapter 10) -/

/-- R249 to R251, R265, R266, R275, R276, R278: the tier rows of a serving engine with nothing waiting. TILE_FILL_ISSUE of a working unit
issues the one fill that waits, a demand fill of an INVALID tile of a page in Beam that is the unit's. TILE_FILL_COMPLETE of the oldest
fill in flight on a unit takes it out of the fills; with none in flight, and no row read waiting in a Spindle, it changes nothing, and nor
does an error response. WRITE_BACK_COMPLETE takes the oldest write-back in flight on a unit out of those that wait. ENGINE_WRITE_LAND puts
the bytes of the oldest write, that lie in one VALID tile of a writable region, into Beam, where no frame need be freed; with no write it
changes nothing. An error response to a fill on a unit other than a stack poisons its tile. A request outstanding beyond the limit fails a
Board or Flash unit: UNIT_FAILED shows it, and a record of class TIER_TIMEOUT (0x0C) is written, here with no pick and no gang; a limit of
0 disables that. The copy of the page table ends. -/
def Obligations.TierRequestsIssueAndEnd : Prop :=
  ∀ (s : State) (u : Fin 9) (cells : List Host.Cell), s.serving = true → s.atRest →
    let inFlight := fun (f : Fill) => f.issued && f.unit == u.val
    (∀ f, s.tiers.fills = [f] → f.issued = false → f.demand = true → f.slice = none → u.val < 8 → s.unitFailed u.val = false →
      s.tileError f.tile = false → ((s.page (f.tile / 64)).tile (f.tile % 64)).st = .invalid → s.fillUnit f = some u.val →
      (s.page (f.tile / 64)).st.held = true → ∃ t g, exec (.tileFillIssue u) s = .next t ∧ t.tiers.fills = [g] ∧
        g.issued = true ∧ g.unit = u.val ∧ g.tile = f.tile) ∧
    (∀ f, s.tiers.fills.find? inFlight = some f → ∃ t, exec (.tileFillComplete u cells) s = .next t ∧ f ∉ t.tiers.fills) ∧
    (s.tiers.fills.find? inFlight = none → (∀ h < 8, ∀ j ∈ (s.spindle h).jobs, j.reads = []) → s.spindles.length ≤ 8 →
      exec (.tileFillComplete u cells) s = .next s ∧
      (s.tiers.wbs.find? (fun w => w.issued && w.unit == u.val) = none → exec (.tierErrorResponse u) s = .next s)) ∧
    (∀ w, s.tiers.wbs.find? (fun w => w.issued && w.unit == u.val) = some w → (s.regionOfPage w.page).isSome = true →
      ∃ t, exec (.writeBackComplete u) s = .next t ∧ ∀ x ∈ t.tiers.wbs, x.page ≠ w.page) ∧
    (s.tiers.wbs.find? (fun w => w.issued && w.unit == u.val) = none → exec (.writeBackComplete u) s = .next s) ∧
    (∀ w tile, s.tiers.writes = [w] → tilesOf w.addr w.bytes.length = [tile] → w.source ≠ 11 →
      (∃ r, s.regionOfPage (tile / 64) = some r ∧ r.wb = true) → (s.page (tile / 64)).st ≠ .lost → s.pageFailed (tile / 64) = false →
      s.tileState tile = .valid → s.get TM_CTRL.FREE_TARGET = 0 → ∃ t, exec .engineWriteLand s = .next t ∧ t.tiers.writes = [] ∧
        t.tiers.beam = putRun s.tiers.beam w.addr w.bytes) ∧
    (s.tiers.writes = [] → exec .engineWriteLand s = .next s) ∧
    (∀ f, s.tiers.fills.find? inFlight = some f → 4 ≤ u.val → ∃ t, exec (.tierErrorResponse u) s = .next t ∧ f ∉ t.tiers.fills ∧
      ((t.page (f.tile / 64)).tile (f.tile % 64)).st = .poisoned ∧ t.get TM_IRQ_STATUS.POISONED = 1) ∧
    (s.unitLimit u.val ≠ 0 → (s.tiers.fills.any inFlight || s.tiers.wbs.any (fun w => w.issued && w.unit == u.val)) = true →
      exec (.tierTimeout u) s = .next (s.after (s.unitFails u.val)) ∧
      (4 ≤ u.val → s.tiers.writes = [] → s.heddle.picks = [] → (∀ x ∈ s.heddle.harnesses, x.gangs = []) →
        ∃ t, exec (.tierTimeout u) s = .next t ∧ bitOf (t.get TM_STATUS.UNIT_FAILED) u.val = true ∧
          t.get TM_IRQ_STATUS.UNIT_FAILED = 1 ∧ notesFault s t 0x0C 7)) ∧
    (s.unitLimit u.val = 0 → exec (.tierTimeout u) s = .next s) ∧
    exec .pageTableCopyComplete s = .next { s with tiers := { s.tiers with tableCopying := none } }

/-- R242, R243, R274: while a region is valid, a write that does not clear VALID, and one that clears it while something of the region is
busy, are refused; so is a write that sets VALID where a condition of R242 fails; a refusal sets REGION_REFUSED and changes nothing else.
A region that is freed is not valid and holds no page; one that is set is valid, and where it is backed by nothing its pages are at home
in Beam. The words of a namespace that backs a valid region are not written, those of another are. The host binds and unbinds queue pairs,
each by itself. -/
def Obligations.RegionsAndNamespacesAreChecked : Prop :=
  ∀ (s : State) (k : Fin 64) (i : Fin 4) (j : Fin 8) (n : Fin 2) (v : W64) (b : Bool), s.boot.stage = .up →
    s.pm.st = .run →
    let off := (TM_REGION.VALID k.val).off + 8 * i.val
    let set := i.val = 0 ∧ bitOf v.toNat 63 = true
    let clear := i.val = 0 ∧ bitOf v.toNat 63 = false
    let u := s.writeFields off v
    let r := u.regionWords k.val
    let valid := s.flag (TM_REGION.VALID k.val) = true
    ((valid ∧ ¬ clear) ∨ (valid ∧ clear ∧ s.regionBusy (s.regionWords k.val) = true) ∨
        (¬ valid ∧ set ∧ s.regionRefused r = true) → ∃ t, exec (.regionWrite k i v) s = .next t ∧
      rewrites { s with resp := .written } t [TM_STATUS.REGION_REFUSED.off] ∧ t.get TM_STATUS.REGION_REFUSED = 1) ∧
    (valid → clear → s.regionBusy (s.regionWords k.val) = false → ∃ t, exec (.regionWrite k i v) s = .next t ∧
      t.flag (TM_REGION.VALID k.val) = false ∧ (∀ o, o ≠ off → t.word o = s.word o) ∧
      t.tiers.pages = mapDelRange s.tiers.pages (s.regionWords k.val).base (s.regionWords k.val).pages) ∧
    (¬ valid → ¬ set → exec (.regionWrite k i v) s = .next (s.after { u with resp := .written })) ∧
    (¬ valid → set → s.regionRefused r = false →
      exec (.regionWrite k i v) s = .next (s.after { (if r.backing == 0 then u.makeHome r else u.keepFree) with resp := .written }) ∧
      (s.get TM_CTRL.FREE_TARGET = 0 → ∃ t, exec (.regionWrite k i v) s = .next t ∧ t.flag (TM_REGION.VALID k.val) = true ∧
        (r.backing ≠ 0 → t.tiers = s.tiers))) ∧
    (s.flag (TM_FLASH_NS.VALID j.val) = true → (∃ q ∈ s.regions, q.backing = 2 ∧ q.nsid = s.get (TM_FLASH_NS.NSID j.val)) →
      exec (.flashNsWrite j n v) s = .next { s with resp := .written }) ∧
    ((s.flag (TM_FLASH_NS.VALID j.val) = false ∨ ∀ q ∈ s.regions, ¬ (q.backing = 2 ∧ q.nsid = s.get (TM_FLASH_NS.NSID j.val))) →
      exec (.flashNsWrite j n v) s =
        .next (s.after { s.writeFields ((TM_FLASH_NS.VALID j.val).off + 8 * n.val) v with resp := .written })) ∧
    (∃ t, exec (.queuePairBind j b) s = .next t ∧ rewrites s t [TM_FLASH_CTRL.BOUND.off] ∧
      t.get TM_FLASH_CTRL.DEPTH = s.get TM_FLASH_CTRL.DEPTH ∧
      ∀ q < 8, bitOf (t.get TM_FLASH_CTRL.BOUND) q = if q = j.val then b else bitOf (s.get TM_FLASH_CTRL.BOUND) q)

/-- R248, R256 to R259, R266, R267, R276, Table 10.13: a page command that finds its unit free, and that no order of its cycle rivals,
takes its pages in ascending order from the page that TM_PAGE_ADDR names, as many as its count (0 counts as one); COPY takes TM_PAGE_ARG
along. On one page p of a region whose backing works it leaves: FLUSH of a CLEAN page counts in FLUSHES; EVICT of an unpinned CLEAN page,
and INVALIDATE of an unpinned CLEAN or DIRTY one, leave it ABSENT; PIN and UNPIN set and clear its pin; RESTORE of a LOST page of a BOARD
region leaves it ABSENT; ZERO of an unpinned page in Beam of a writable region leaves its bytes zero; CLEAR_POISON leaves no tile
POISONED; each with OK (0) and BUSY 0. EVICT and INVALIDATE of a pinned page, and ZERO of one that is not LOST, complete with PINNED
(0x01). COPY of a page that stands in Beam into a writable region waits, BUSY 1, with an engine write for each of the 64 tiles. -/
def Obligations.PageCommandsTakeTheirPages : Prop :=
  ∀ (s : State) (count : BitVec 32), s.writeGate TM_PAGE_CMD.GO.off = .made → s.flag TM_PAGE_CMD.BUSY = false →
    (∀ c op, (c, op) ∈ [(Instr.flush count, 0), (.evict count none, 1), (.pageInvalidate count none, 2), (.pin count none, 3),
      (.unpin count, 4), (.restore count, 5), (.zero count, 6), (.copy count, 7), (.clearPoison count, 10)] →
      let u := ((s.writeFields TM_PAGE_CMD.GO.off (pageWord op count.toNat)).set TM_PAGE_CMD.BUSY 1).set TM_PAGE_CMD.WINNER 0
      let n := max 1 count.toNat
      exec c s = .next (s.after { State.runPageCmd (n + 1) u ⟨op, s.get TM_PAGE_ADDR.ADDR / pageBytes, n,
        bitsOf (s.get TM_PAGE_ARG.ARG) 51 0 / pageBytes * pageBytes, false⟩ with resp := .written })) ∧
    (count.toNat ≤ 1 → ∀ r, let p := s.get TM_PAGE_ADDR.ADDR / pageBytes
      s.regionOfPage p = some r → s.backFailed r = false →
      let ends := fun (c : Instr) (t : State) (code : Nat) => exec c s = .next t ∧ t.get TM_PAGE_CMD.STATUS = code ∧
        t.get TM_PAGE_CMD.BUSY = 0 ∧ t.tiers.cmd = none
      let st := (s.page p).st
      (st = .clean → ∃ t, ends (.flush count) t 0 ∧ t.get TM_WRITE_EVENTS.FLUSHES =
        min (s.get TM_WRITE_EVENTS.FLUSHES + 1) (2 ^ fldWidth TM_WRITE_EVENTS.FLUSHES - 1)) ∧
      (st = .clean → s.pagePinned p = false → ∃ t, ends (.evict count none) t 0 ∧ (t.page p).st = .absent) ∧
      (st = .clean ∨ st = .dirty → s.pagePinned p = false → ∃ t, ends (.pageInvalidate count none) t 0 ∧ (t.page p).st = .absent) ∧
      (st.held = true → s.pagePinned p = true → ∀ c ∈ [Instr.evict count none, .pageInvalidate count none, .zero count],
        ∃ t, ends c t 1 ∧ t.tiers.pages = s.tiers.pages) ∧
      (∃ t, ends (.pin count none) t 0 ∧ (t.page p).rtPin = true) ∧
      (∃ t, ends (.unpin count) t 0 ∧ (t.page p).rtPin = false) ∧
      (r.backing = 1 → st = .lost → ∃ t, ends (.restore count) t 0 ∧ (t.page p).st = .absent) ∧
      (st.held = true → s.pagePinned p = false → r.wb = true → ∃ t, ends (.zero count) t 0 ∧
        (t.page p).st = (if r.backing = 0 then PageSt.home else PageSt.dirty) ∧
        t.tiers.beam = mapDelRange s.tiers.beam (p * pageBytes) pageBytes) ∧
      (∃ t, ends (.clearPoison count) t 0 ∧ ∀ i < 64, ((t.page p).tile i).st ≠ .poisoned) ∧
      (∀ q, s.tiers.trying = false → s.regionOfPage (bitsOf (s.get TM_PAGE_ARG.ARG) 51 0 / pageBytes) = some q → q.wb = true →
        s.inBeam (p * pageBytes) pageBytes → ∃ t, exec (.copy count) s = .next t ∧ t.get TM_PAGE_CMD.BUSY = 1 ∧
          t.tiers.cmd.isSome = true ∧ t.tiers.writes.length = 64))

/-- R51, R249, R258, R279: a page order that a master of a higher rank defeats completes with ORDER_REJECTED (0x50) and names the winner;
one that is identical to an order of its cycle completes with OK and does nothing more. READ64 and WRITE64 of an address in no region
complete with UNMAPPED (0x02); with the address in Beam, READ64 leaves its 8 bytes in TM_PAGE_ARG, and WRITE64 of a writable region puts
TM_PAGE_ARG there, where no frame need be freed, both with OK (0). RETURN_UNIT acts in the IDLE phase alone (else 0x06), refuses a Beam
stack (0x03), and brings a Board or Flash unit back. -/
def Obligations.PageOrdersLoseAndSingleAccessesEnd : Prop :=
  ∀ (s : State) (count : BitVec 32) (rival : Option Rival) (r : Rival),
    s.writeGate TM_PAGE_CMD.GO.off = .made → s.flag TM_PAGE_CMD.BUSY = false →
    (defeatedBy 3 rival = some r → ∀ c ∈ [Instr.evict count rival, .pageInvalidate count rival, .pin count rival],
      ∃ t, exec c s = .next t ∧ rewrites { s with resp := .written, tiers := { s.tiers with cmd := none } } t [TM_PAGE_CMD.GO.off] ∧
        t.get TM_PAGE_CMD.STATUS = 0x50 ∧ t.get TM_PAGE_CMD.WINNER = rivalCode r ∧ t.get TM_PAGE_CMD.BUSY = 0) ∧
    (∀ c ∈ [Instr.evict count (some .same), .pageInvalidate count (some .same), .pin count (some .same)],
      ∃ t, exec c s = .next t ∧ rewrites { s with resp := .written, tiers := { s.tiers with cmd := none } } t [TM_PAGE_CMD.GO.off] ∧
        t.get TM_PAGE_CMD.STATUS = 0 ∧ t.get TM_PAGE_CMD.BUSY = 0) ∧
    (let a := s.get TM_PAGE_ADDR.ADDR / 8 * 8
     let arg := s.word TM_PAGE_ARG.ARG.off
     (s.regionOfPage (a / pageBytes) = none → ∀ c ∈ [Instr.read64, .write64], ∃ t, exec c s = .next t ∧
       t.get TM_PAGE_CMD.STATUS = 2 ∧ t.get TM_PAGE_CMD.BUSY = 0 ∧ t.tiers.beam = s.tiers.beam) ∧
     (s.tiers.trying = false → s.inBeam a 8 →
       (∃ t, exec .read64 s = .next t ∧ t.get TM_PAGE_CMD.STATUS = 0 ∧ t.get TM_PAGE_CMD.BUSY = 0 ∧
         t.word TM_PAGE_ARG.ARG.off = BitVec.ofNat 64 (leNat (getRun s.tiers.beam a 8)) ∧ t.tiers.beam = s.tiers.beam) ∧
       (s.get TM_CTRL.FREE_TARGET = 0 → (∃ q, s.regionOfPage (a / pageBytes) = some q ∧ q.wb = true) →
         ∃ t, exec .write64 s = .next t ∧ t.get TM_PAGE_CMD.STATUS = 0 ∧ t.get TM_PAGE_CMD.BUSY = 0 ∧
           t.tiers.beam = putRun s.tiers.beam a (wordBytes arg)))) ∧
    (s.phase ≠ 0 → ∃ t, exec .returnUnit s = .next t ∧ t.get TM_PAGE_CMD.STATUS = 6 ∧
      t.get TM_STATUS.UNIT_FAILED = s.get TM_STATUS.UNIT_FAILED) ∧
    (∀ x, s.phase = 0 → x = bitsOf (s.get TM_PAGE_ARG.ARG) 3 0 →
      (x < 4 → ∃ t, exec .returnUnit s = .next t ∧ t.get TM_PAGE_CMD.STATUS = 3 ∧
        t.get TM_STATUS.UNIT_FAILED = s.get TM_STATUS.UNIT_FAILED) ∧
      (4 ≤ x → x < 9 → ∃ t, exec .returnUnit s = .next t ∧ t.get TM_PAGE_CMD.STATUS = 0 ∧
        bitOf (t.get TM_STATUS.UNIT_FAILED) x = false ∧
        ∀ y < 9, y ≠ x → bitOf (t.get TM_STATUS.UNIT_FAILED) y = bitOf (s.get TM_STATUS.UNIT_FAILED) y))

/-! ## Shed Exchange (chapter 11) -/

/-- R287 to R292, R295, R297, R298, R301 to R303: messages. One of a kind not for this host changes nothing. One that finds the exchange
closed, or no key of its sender, is refused and logged as DENIED (5). A replay and a failed tag are dropped: counted, recorded (class 0x0E)
and logged (6 and 1), and they cost what a lost message of their kind costs: a REQUEST with LAST closes the round, a GATHER or MOVE before
this host's BEGIN_RESHARD is kept as lost, and during a reshard fails it. A good one is taken: its epoch and SEQ are kept and its bytes
counted. A REQUEST section forms a remote bolt of its rows. A RESPONSE record takes its row out of the rounds and leaves on the link that
carried the row. A GRADIENT or NORM of a later revolution waits; one whose adapter learns here, and whose directory entry stands in Beam,
adds its partial as its sender's, where more than one host takes part. A GATHER or MOVE before BEGIN_RESHARD waits; a MOVE tile that the
plan expects is queued for writing, and expected no more. -/
def Obligations.MessagesAreReceived : Prop :=
  ∀ (s : State) (m : Msg) (kind : Nat), 1 ≤ kind → kind ≤ 6 → s.serving = true →
    let h := Header.ofBytes m.header
    let row := messageRow m kind
    (h.kind ≠ kind ∨ s.flag SX_NODE.VALID = false ∨ h.dst ≠ s.self → kind ≤ 2 ∨ s.atRest → exec row s = .next s) ∧
    (h.kind = kind → s.flag SX_NODE.VALID = true → h.dst = s.self → kind ≤ 2 ∨ s.workIdle →
      (s.exchangeOpen = false ∨ s.exchangeKey h.src = none → kind ≤ 2 ∨ s.atRest → ∃ t, exec row s = .next t ∧
        rewrites s t [SX_FAULT_LOG.VALID.off] ∧
        (s.flag SX_FAULT_LOG.VALID = false → t.flag SX_FAULT_LOG.VALID = true ∧ t.get SX_FAULT_LOG.KIND = 5 ∧
          t.get SX_FAULT_LOG.SEQ = h.seq % 2 ^ 32) ∧ (s.flag SX_FAULT_LOG.VALID = true → t.word SX_FAULT_LOG.VALID.off =
          s.word SX_FAULT_LOG.VALID.off)) ∧
      (∀ key, s.exchangeOpen = true → s.exchangeKey h.src = some key →
        let replay := (mapFind s.exch.kept h.src).any (fun p => decide (h.epoch < p.1) || (h.epoch == p.1 && decide (h.seq ≤ p.2)))
        let good := m.body.length = h.length ∧ gcmTag key h.nonce m.header m.body = m.tag
        (∀ log, (replay = true ∧ log = 6) ∨ (replay = false ∧ ¬ good ∧ log = 1) →
          let lost := (s.noteLost log h.src 0 h.seq).lostIn h log
          exec row s = .next (s.after (if kind ≤ 2 then lost else lost.carryOn)) ∧
          (kind = 1 ∨ (4 < kind ∧ s.atRest) → ∃ t, exec row s = .next t ∧ notesFault s t 0x0E 9 ∧ t.exch.kept = s.exch.kept ∧
            t.get SX_EVENTS.TAG_FAIL = min (s.get SX_EVENTS.TAG_FAIL + 1) (2 ^ fldWidth SX_EVENTS.TAG_FAIL - 1) ∧
            (s.flag SX_FAULT_LOG.VALID = false → t.get SX_FAULT_LOG.KIND = log ∧ t.get SX_FAULT_LOG.SEQ = h.seq % 2 ^ 32) ∧
            (kind = 1 → h.last = true → ∀ b ∈ t.weft.bolts, b.remote = some h.src → dAngle b.desc = h.angle → b.roundOpen = false) ∧
            (4 < kind → s.exch.earlyLost = none → t.exch.earlyLost = some (log, h.src, h.seq))) ∧
          (∀ r, 4 < kind → s.exch.reshard = some r → r.gathers = [] → s.exch.outstanding = [] → s.exch.rounds = [] →
            ∃ t, exec row s = .next t ∧ t.exch.reshard = none ∧ t.get SX_STATUS.RESHARD_FAILED = 1)) ∧
        (replay = false → good →
          let b := gcmCrypt key h.nonce m.body
          let k := kib s.exch.inRest (48 + m.body.length)
          let u := ({ s with exch := { s.exch with kept := mapIns s.exch.kept h.src (h.epoch, h.seq), inRest := k.2 } }).bump
            SX_BYTES.KIB_IN k.1
          let word := fun (i : Nat) => leNat ((b.drop (8 * i)).take 8)
          let a := bitsOf (word 0) 63 48
          let learning := fun (x : Learner) (d : Dir) => s.atRest ∧ (s.revValid = true → angleRev h.angle ≤ s.revolution) ∧
            s.dirReady = true ∧ s.inBeam (s.dirAddr a) 64 ∧ s.dir? a = some d ∧ s.phase ≠ 2 ∧ s.exchanging a = some x ∧
            s.get SX_NODE.HOSTS ≠ 1
          (∀ d rows, kind = 1 → requestSections (b.length / 64 + 1) b = [(d, rows)] → s.exch.held = [] →
            (∀ x ∈ s.weft.bolts, x.remote = none) → s.expired (dAngle d) = false → ∃ t y, exec row s = .next t ∧
            t.weft.bolts = s.weft.bolts ++ [y] ∧ y.desc = d ∧ y.remote = some h.src ∧ y.rows = rows.map remoteRow ∧
            y.roundOpen = (!h.last && dAngle d == h.angle) ∧ t.exch.kept = u.exch.kept ∧ t.regs = u.regs) ∧
          (∀ y x, kind = 2 → s.bolt? (bitsOf (word 0) 31 0) = some y → y.remote = none → bitsOf (word 0) 48 36 = 1 →
            let w := word 2
            let hit := fun (x : RemoteRow) => x.bolt == y.id && x.row == bitsOf w 63 44 && x.proj == bitsOf w 43 40 &&
              x.owner == h.src && x.sent
            b.length = 24 + (if bitOf w 39 then (if dOutFmt y.desc == 1 then 4 else 2) * dDout y.desc (bitsOf w 43 40) else 0) →
            x ∈ s.remoteRows → hit x = true → ∃ t, exec row s = .next t ∧ t.remoteRows = s.remoteRows.filter (fun x => !hit x) ∧
              t.weft.links = (u.modLink (s.linkFor (((s.row? y.id (bitsOf w 63 44)).map (·.link)).getD 0)) (fun l =>
                { l with egress := l.egress ++ [⟨y.id, bitsOf w 63 44, bitsOf w 43 40, b.drop 16⟩] })).weft.links) ∧
          (kind = 3 ∨ kind = 4 → exec row s = .next (s.after (u.addWork (.payload kind h.src h.angle b)).carryOn) ∧
            (s.atRest → s.revValid = true → s.revolution < angleRev h.angle →
              exec row s = .next (s.after (u.addWork (.payload kind h.src h.angle b))))) ∧
          (∀ x d sec, kind = 3 → learning x d → bitsOf (word 1) 31 0 = 1 → let c := bitsOf (word 0) 31 0
            s.sectionOfChunk d 0 c = some sec → s.ownsChunk d c = true → b.length = 16 + 4 * min 2048 (sec.elems - 2048 * (c - sec.chunk0)) →
            ∃ t, exec row s = .next t ∧ t.exch.reductions =
              [⟨a, c, [(h.src % 8, (groupsOf 4 (b.drop 16)).map (fun q => BitVec.ofNat 32 (leNat q)))], false⟩]) ∧
          (∀ x d, kind = 4 → learning x d → b.length = 16 + 4 * bitsOf (word 1) 31 0 → ∃ t, exec row s = .next t ∧ t.exch.norms =
            [⟨a, [(h.src % 8, (groupsOf 4 (b.drop 16)).map (fun q => BitVec.ofNat 32 (leNat q)))], false⟩]) ∧
          (4 < kind → s.atRest → exec row s =
            .next (s.after { u with exch := { u.exch with early := s.exch.early ++ [(kind, h.src, b)] } })) ∧
          (∀ r, 4 < kind → s.exch.reshard = some r →
            exec row s = .next (s.after (u.addWork (.payload kind h.src h.angle b)).carryOn)) ∧
          (∀ r, kind = 6 → s.exch.rounds = [] → s.exch.reshard = some r → r.started = true → bitsOf (word 1) 31 0 = 1 →
            b.length = 16 + tileBytes → let tile := bitsOf (word 0) 51 0 / tileBytes
            let due := fun (x : Nat × Nat × Nat) => x.1 == h.src && x.2.1 == tile
            r.moves.any due = true → ∃ t, exec row s = .next t ∧
              t.tiers.writes = s.tiers.writes ++ [⟨tile * tileBytes, b.drop 16, 9, none⟩] ∧
              t.exch.reshard = some { r with moves := (r.moves.map (fun x =>
                if due x then (x.1, x.2.1 + 1, x.2.2 - 1) else x)).filter (·.2.2 != 0) }))))

/-- R285, R286, R289, R292, R293, R302: the deadline of a round that has not launched launches what is due of it, once: here with no row
in the round it only passes. A delivered message is outstanding no more, but for a REQUEST, which waits for its answer. An undeliverable
one is outstanding no more either: it is counted, recorded (class 0x0E) and logged (2), here of a NORM or GRADIENT whose adapter then
skips its update, or of a REQUEST none of whose rows waits any more. A peer that does not answer within the limit fails: its ALIVE bit
clears, nothing is outstanding at it, and a record of class PEER_FAILED (0x0F) is written, here with no row, no reshard and no learner
under way; a limit of 0 disables that. Of a message that is not outstanding each changes nothing. -/
def Obligations.MessagesSentComeToAnEnd : Prop :=
  ∀ (s : State) (id : Nat), s.serving = true →
    (s.exch.roundDone = true → exec .roundDeadlineExpiry s = .next s) ∧
    (s.exch.roundDone = false → exec .roundDeadlineExpiry s = .next (s.after s.launchMain)) ∧
    (s.exch.roundDone = false → s.exch.rounds = [] →
      exec .roundDeadlineExpiry s = .next { s with exch := { s.exch with roundDone := true } }) ∧
    (s.exch.outstanding.find? (·.id == id) = none → exec (.messageDelivered id) s = .next s ∧
      exec (.messageUndeliverable id) s = .next s ∧ exec (.peerTimeout id) s = .next s) ∧
    (s.get SX_PEER_TIMEOUT.LIMIT_US = 0 → exec (.peerTimeout id) s = .next s) ∧
    (∀ m, s.exch.outstanding.find? (·.id == id) = some m →
      let left := s.exch.outstanding.filter (fun x => x.id != id)
      let seq := leNat ((m.bytes.drop 8).take 8)
      (m.kind = 1 → exec (.messageDelivered id) s = .next s) ∧
      (m.kind ≠ 1 → s.exch.reshard = none →
        exec (.messageDelivered id) s = .next { s with exch := { s.exch with outstanding := left } }) ∧
      (m.kind ≠ 1 → ∃ t, exec (.messageDelivered id) s = .next t ∧ t.exch.outstanding = left ∧
        ∀ r, t.exch.reshard = some r → id ∉ r.sends) ∧
      (∀ a, m.kind = 3 ∨ m.kind = 4 → m.adapter = some a → s.exch.reshard = none → ∃ t, exec (.messageUndeliverable id) s = .next t ∧
        t.exch.outstanding = left ∧ notesFault s t 0x0E 9 ∧
        t.get SX_EVENTS.TAG_FAIL = min (s.get SX_EVENTS.TAG_FAIL + 1) (2 ^ fldWidth SX_EVENTS.TAG_FAIL - 1) ∧
        (s.flag SX_FAULT_LOG.VALID = false → t.get SX_FAULT_LOG.KIND = 2 ∧ t.get SX_FAULT_LOG.SEQ = seq % 2 ^ 32) ∧
        t.skein.learners = modWhere (fun l => l.adapter == a && l.learns && !l.normDone) (fun l => { l with incomplete := true })
          s.skein.learners) ∧
      (m.kind = 1 → s.exch.rounds = [] → ∃ t, exec (.messageUndeliverable id) s = .next t ∧ notesFault s t 0x0E 9 ∧
        t.exch.outstanding.all (fun x => x.id != id) = true) ∧
      (s.get SX_PEER_TIMEOUT.LIMIT_US ≠ 0 → ∃ t, exec (.peerTimeout id) s = .next t ∧
        t.exch.outstanding.all (fun x => x.dst != m.dst) = true ∧
        (m.dst < 4096 → s.exch.rounds = [] → s.exch.reshard = none → s.skein.learners = [] →
          let alive := ST_OWNER_MAP.ALIVE (m.dst / 8)
          notesFault s t 0x0F 9 ∧ (∀ i < 8,
            bitOf (t.get alive) i = (bitOf (s.get alive) i && i != m.dst % 8)) ∧
          (s.flag SX_FAULT_LOG.VALID = false → t.get SX_FAULT_LOG.KIND = 0))))

/-- R51, R281, R291, R303: ABORT ends an active reshard as failed (OK): nothing of it stays, and RESHARD_FAILED is set; it completes with
NOT_ACTIVE (1) where none is, and with OK and nothing more where an identical order was given in its cycle; one that loses against a
master of a higher rank completes with ORDER_REJECTED (0x50) and names it. SX_NODE and SX_EPOCH lock with their first write: an
ill-formed node (no hosts, more than 8, or none at HOST) is ignored and locks nothing, and a second write changes nothing. -/
def Obligations.ExchangeRegistersObeyTheirRules : Prop :=
  ∀ (s : State) (v : W64) (rival : Option Rival), s.boot.stage = .up → s.pm.st = .run →
    (∀ r, defeatedBy 3 rival = some r → ∃ t, exec (.reshardAbort rival) s = .next t ∧
      rewrites { s with resp := .written } t [SX_RESHARD_CMD.ABORT.off] ∧ t.get SX_RESHARD_CMD.STATUS = 0x50 ∧
      t.get SX_RESHARD_CMD.WINNER = rivalCode r) ∧
    (∃ t, exec (.reshardAbort (some .same)) s = .next t ∧ rewrites { s with resp := .written } t [SX_RESHARD_CMD.ABORT.off] ∧
      t.get SX_RESHARD_CMD.STATUS = 0 ∧ t.get SX_RESHARD_CMD.WINNER = 0) ∧
    (rival ≠ some .same → defeatedBy 3 rival = none → s.exch.reshard = none → ∃ t, exec (.reshardAbort rival) s = .next t ∧
      rewrites { s with resp := .written } t [SX_RESHARD_CMD.ABORT.off] ∧ t.get SX_RESHARD_CMD.STATUS = 1 ∧
      t.get SX_RESHARD_CMD.WINNER = 0) ∧
    (∀ r, rival ≠ some .same → defeatedBy 3 rival = none → s.exch.reshard = some r → ∃ t, exec (.reshardAbort rival) s = .next t ∧
      t.exch.reshard = none ∧ t.exch.outstanding = s.exch.outstanding.filter (fun m => !r.sends.contains m.id) ∧
      t.get SX_RESHARD_CMD.STATUS = 0 ∧ t.get SX_STATUS.RESHARD_FAILED = 1) ∧
    (let hosts := bitsOf v.toNat 3 0
     let bad := hosts = 0 ∨ 8 < hosts ∨ hosts ≤ bitsOf v.toNat 6 4
     let fresh := ∀ f ∈ [SX_NODE.VALID, SX_NODE.MILL, SX_NODE.HOST, SX_NODE.HOSTS], s.locked.contains (f.off * 64 + f.lo) = false
     let taken := ∀ f ∈ [SX_NODE.VALID, SX_NODE.MILL, SX_NODE.HOST, SX_NODE.HOSTS], s.locked.contains (f.off * 64 + f.lo) = true
     (bitOf v.toNat 63 = true → bad → exec (.sxNodeWrite v) s = .next { s with resp := .written }) ∧
     (bitOf v.toNat 63 = true → ¬ bad → fresh → ∃ t, exec (.sxNodeWrite v) s = .next t ∧
       t.flag SX_NODE.VALID = true ∧ t.get SX_NODE.MILL = bitsOf v.toNat 15 7 ∧ t.get SX_NODE.HOST = bitsOf v.toNat 6 4 ∧
       t.get SX_NODE.HOSTS = hosts ∧ t.locked.contains (SX_NODE.VALID.off * 64 + 63) = true) ∧
     (taken → ∃ t, exec (.sxNodeWrite v) s = .next t ∧ ∀ off, t.word off = s.word off)) ∧
    (s.locked.contains (SX_EPOCH.VALID.off * 64 + 63) = false → s.locked.contains (SX_EPOCH.VALID.off * 64) = false →
      ∃ t, exec (.sxEpochWrite v) s = .next t ∧ t.flag SX_EPOCH.VALID = bitOf v.toNat 63 ∧
        t.get SX_EPOCH.EPOCH = bitsOf v.toNat 15 0 ∧ ∀ off, off ≠ SX_EPOCH.VALID.off → t.word off = s.word off) ∧
    (s.locked.contains (SX_EPOCH.VALID.off * 64 + 63) = true → s.locked.contains (SX_EPOCH.VALID.off * 64) = true →
      ∃ t, exec (.sxEpochWrite v) s = .next t ∧ ∀ off, t.word off = s.word off)

/-! ## Tenancy and security (chapter 13) -/

/-- R319 to R321, Table 13.2: the key commands, of a unit that is free. A load of a reserved kind completes with BAD_KIND (4), one that the
lifecycle does not permit with 1, a load over a key with 2, a wrapped key that does not unwrap with 3, a tenant key of equal halves with 5,
and none of these touches a slot; a load that passes puts the key of SS_KEY_BUF into its slot and no other. An ERASE clears its slot at
once, unless a cipher use of it is in flight: then it waits, BUSY, and the slot stands until KEY_ERASE_RELEASE finds the last use ended.
ERASE_ALL clears every slot where nothing is in flight. Each clears SS_KEY_BUF as it completes. -/
def Obligations.KeyCommandsTakeEffect : Prop :=
  ∀ (s : State) (kind : BitVec 2) (slot : BitVec 12), s.writeGate SS_KEY_CMD.GO.off = .made → s.flag SS_KEY_CMD.BUSY = false →
    (∀ wrapped : Bool, let op := if wrapped then 1 else 0
      let c := if wrapped then Instr.loadWrapped kind slot else .loadPlain kind slot
      let n := if kind = 0 then 64 else 32
      let buf := s.regBytes (SS_KEY_BUF.WORD 0).off 10
      let key := if wrapped then keyUnwrap s.fuses.kik (buf.take (n + 8)) else some (buf.take n)
      (∀ code, (kind = 3 ∧ code = 4) ∨ (kind ≠ 3 ∧ s.keyPermitted op = false ∧ code = 1) ∨
          (kind ≠ 3 ∧ s.keyPermitted op = true ∧ (s.slotKey kind.toNat slot.toNat).isSome = true ∧ code = 2) ∨
          (kind ≠ 3 ∧ s.keyPermitted op = true ∧ s.slotKey kind.toNat slot.toNat = none ∧ key = none ∧ code = 3) ∨
          (kind = 0 ∧ s.keyPermitted op = true ∧ s.slotKey 0 slot.toNat = none ∧ (∃ k, key = some k ∧ k.take 32 = k.drop 32) ∧ code = 5) →
        ∃ t, exec c s = .next t ∧ t.get SS_KEY_CMD.STATUS = code ∧ t.flag SS_KEY_CMD.BUSY = false ∧ t.sec = s.sec ∧
          (∀ i < 10, t.word (SS_KEY_BUF.WORD i).off = 0)) ∧
      (∀ k, kind ≠ 3 → s.keyPermitted op = true → s.slotKey kind.toNat slot.toNat = none → key = some k →
        ¬ (kind = 0 ∧ k.take 32 = k.drop 32) → ∃ t, exec c s = .next t ∧ t.get SS_KEY_CMD.STATUS = 0 ∧
          t.flag SS_KEY_CMD.BUSY = false ∧ t.slotKey kind.toNat slot.toNat = some k ∧ (∀ i < 10, t.word (SS_KEY_BUF.WORD i).off = 0) ∧
          (∀ kind' < 3, ∀ slot', (kind' ≠ kind.toNat ∨ (kind' = 0 ∧ slot' ≠ slot.toNat)) →
            t.slotKey kind' slot' = s.slotKey kind' slot'))) ∧
    (kind ≠ 3 → s.keyInUse slot.toNat = false ∨ kind ≠ 0 → ∃ t, exec (.erase kind slot) s = .next t ∧
      t.get SS_KEY_CMD.STATUS = 0 ∧ t.flag SS_KEY_CMD.BUSY = false ∧ t.slotKey kind.toNat slot.toNat = none ∧
      ∀ i < 10, t.word (SS_KEY_BUF.WORD i).off = 0) ∧
    (s.keyInUse slot.toNat = true → ∃ t, exec (.erase 0 slot) s = .next t ∧ t.flag SS_KEY_CMD.BUSY = true ∧
      t.sec.erasing = [(0, slot.toNat)] ∧ t.slotKey 0 slot.toNat = s.slotKey 0 slot.toNat) ∧
    (s.tiers.fills = [] → s.tiers.wbs = [] → ∃ t, exec .eraseAll s = .next t ∧ t.get SS_KEY_CMD.STATUS = 0 ∧
      (∀ i < 10, t.word (SS_KEY_BUF.WORD i).off = 0) ∧ ∀ kind' < 3, ∀ slot', t.slotKey kind' slot' = none) ∧
    (s.sec.erasing = [] → exec .keyEraseRelease s = .next s) ∧
    (s.sec.erasing = [(0, slot.toNat)] → s.keyInUse slot.toNat = true → exec .keyEraseRelease s = .next s) ∧
    (s.sec.erasing = [(0, slot.toNat)] → s.keyInUse slot.toNat = false → ∃ t, exec .keyEraseRelease s = .next t ∧
      t.sec.erasing = [] ∧ t.slotKey 0 slot.toNat = none ∧ t.get SS_KEY_CMD.STATUS = 0 ∧ t.flag SS_KEY_CMD.BUSY = false ∧
      ∀ i < 10, t.word (SS_KEY_BUF.WORD i).off = 0)

/-- R318: no read through the register port or the Treadle port depends on key material: states that differ in the keys of their slots
and in the KIK alone (the same slots hold keys) answer every read alike. -/
def Obligations.ReadsShowNoKeyMaterial : Prop :=
  ∀ (s t : State) (keys xkeys : SMap (List Byte)) (kik : List Byte), keys.map (·.1) = s.sec.keys.map (·.1) →
    xkeys.map (·.1) = s.sec.xkeys.map (·.1) → kik.isEmpty = s.fuses.kik.isEmpty →
    t = { s with sec := { s.sec with keys := keys, xkeys := xkeys }, fuses := { s.fuses with kik := kik } } →
    (∀ off size, ∃ u, exec (.rcRead off size) s = .next u ∧ exec (.rcRead off size) t = .next
      { u with sec := { u.sec with keys := keys, xkeys := xkeys }, fuses := { u.fuses with kik := kik } }) ∧
    (∀ off, ∃ u, exec (.treadleRead off) s = .next u ∧ exec (.treadleRead off) t = .next
      { u with sec := { u.sec with keys := keys, xkeys := xkeys }, fuses := { u.fuses with kik := kik } })

/-- R322, R325, R326, Table 13.3: a region's key register is not written while the region is valid, nor SS_PROV_BUF outside FACTORY and
OPEN_DEV; else both take the value. With no burn running, a burn that the lifecycle allows is pending for the next reset and raises
LIFECYCLE_BURNED: FACTORY to OPEN_DEV; FACTORY or OPEN_DEV to PROVISIONED with a KIK and a key hash staged, which the fuses take as
SS_PROV_BUF clears; PROVISIONED to SECURED with an image hash; to RETIRED, from SECURED with an authorization only, where every key is
erased, the KIK is destroyed and DEBUGGED is set. Every other completes with its code (5, 2, 3, 4 or 1) and burns nothing. Said here of a
state with nothing waiting, in which a closed fabric has nothing to end. -/
def Obligations.LifecycleBurnsFollowTheTable : Prop :=
  ∀ (s : State) (k : Fin 64) (i : Fin 10) (target : BitVec 3) (v : W64), s.boot.stage = .up → s.pm.st = .run →
    (s.flag (TM_REGION.VALID k.val) = true → exec (.regionKeyWrite k v) s = .next { s with resp := .written }) ∧
    (s.flag (TM_REGION.VALID k.val) = false → ∃ t, exec (.regionKeyWrite k v) s = .next t ∧
      rewrites { s with resp := .written } t [(SS_REGION_KEY.ENCRYPT k.val).off] ∧
      t.get (SS_REGION_KEY.ENCRYPT k.val) = bitsOf v.toNat 63 63 ∧ t.get (SS_REGION_KEY.TENANT k.val) = bitsOf v.toNat 11 0) ∧
    (2 ≤ s.fuses.lifecycle → exec (.provBufWrite i v) s = .next { s with resp := .written }) ∧
    (s.fuses.lifecycle < 2 → ∃ t, exec (.provBufWrite i v) s = .next t ∧
      rewrites { s with resp := .written } t [(SS_PROV_BUF.WORD i.val).off] ∧ t.word (SS_PROV_BUF.WORD i.val).off = v) ∧
    (s.flag SS_LIFECYCLE_CMD.BUSY = false → s.atRest →
      let lc := s.fuses.lifecycle
      let kik := s.regBytes (SS_PROV_BUF.WORD 0).off 4
      let hash := s.regBytes (SS_PROV_BUF.WORD 4).off 6
      let staged := kik.all (· == 0) = false ∧ hash.all (· == 0) = false
      let burned := fun (t : State) => t.fuses.lifecycle = lc ∧ t.fuses.pending = target.toNat ∧
        t.get SS_LIFECYCLE_CMD.STATUS = 0 ∧ t.get SS_IRQ_STATUS.LIFECYCLE_BURNED = 1
      let refused := fun (t : State) (code : Nat) => t.fuses = s.fuses ∧ t.sec = s.sec ∧ t.get SS_LIFECYCLE_CMD.STATUS = code ∧
        rewrites { s with resp := .written } t [SS_LIFECYCLE_CMD.GO.off]
      (s.fuses.pending ≠ lc → ∃ t, exec (.lifecycleBurn target) s = .next t ∧ refused t 5) ∧
      (s.fuses.pending = lc →
        (lc = 0 → target = 1 → ∃ t, exec (.lifecycleBurn target) s = .next t ∧ burned t) ∧
        (lc < 2 → target = 2 → ¬ staged → ∃ t, exec (.lifecycleBurn target) s = .next t ∧ refused t 2) ∧
        (lc < 2 → target = 2 → staged → ∃ t, exec (.lifecycleBurn target) s = .next t ∧ burned t ∧ t.fuses.kik = kik ∧
          t.fuses.debugHash = hash ∧ ∀ j < 10, t.word (SS_PROV_BUF.WORD j).off = 0) ∧
        (lc = 2 → target = 3 → s.fuses.imageHash ≠ [] → ∃ t, exec (.lifecycleBurn target) s = .next t ∧ burned t) ∧
        (lc = 2 → target = 3 → s.fuses.imageHash = [] → ∃ t, exec (.lifecycleBurn target) s = .next t ∧ refused t 3) ∧
        (lc < 3 ∨ (lc = 3 ∧ s.sec.retireAuth = true) → target = 4 → ∃ t, exec (.lifecycleBurn target) s = .next t ∧ burned t ∧
          t.sec.keys = [] ∧ t.sec.xkeys = [] ∧ t.sec.debugged = true ∧ t.fuses.kikDestroyed = true) ∧
        (lc = 3 → s.sec.retireAuth = false → target = 4 → ∃ t, exec (.lifecycleBurn target) s = .next t ∧ refused t 4) ∧
        (target.toNat ≤ lc ∨ 4 < target.toNat ∨ (lc < 2 ∧ target = 3) → ∃ t, exec (.lifecycleBurn target) s = .next t ∧ refused t 1)))

/-- R329 to R332, R334, R336: levels and unlocks in RUN. Level 3, and FULL in SECURED without a grant, are denied (1). A level at or below the
present one, OBSERVE, and FULL in FACTORY, OPEN_DEV and RETIRED or after DEBUGGED, are granted at once. FULL in PROVISIONED waits for the
grant procedure, which begins (IN_PROGRESS, 3); a request that waits stands. UNLOCK_NEW of a purpose draws a challenge; UNLOCK_GO spends it: it ends with 4 after
LOCKOUT, 6 outside SECURED, 1 without a challenge, and else verifies key hash and signature. A verification that fails counts, and the
eighth locks the unit out; of RETIRE it authorizes; of FULL_DEBUG it begins the grant, here with an idle exchange. GRANT_ERASE, once no
bolt is in flight, clears the keys, the picks, the row payloads and Beam, here with no write and no fill under way. GRANT_COMPLETE grants
FULL and sets DEBUGGED; a grant that a protection HOLD left unfinished ends with DEBUGGED alone. -/
def Obligations.DebugLevelsAreRequestedAndGranted : Prop :=
  ∀ (s : State) (level : BitVec 2) (p : BitVec 8) (nonce : BitVec 256), s.boot.stage = .up → s.pm.st = .run →
    (s.sec.levelWaits = true → exec (.debugLevelRequest level) s = .next { s with resp := .written }) ∧
    (s.sec.levelWaits = false →
      (level = 3 → ∃ t, exec (.debugLevelRequest level) s = .next t ∧ t.sec = s.sec ∧ t.get SS_DEBUG_CTRL.STATUS = 1 ∧
        t.flag SS_DEBUG_CTRL.GO = false) ∧
      (level ≠ 3 → s.sec.level < level.toNat → level = 1 ∨ s.sec.debugged = true ∨ s.fuses.lifecycle ∈ [0, 1, 4] →
        ∃ t, exec (.debugLevelRequest level) s = .next t ∧ t.sec.level = level.toNat ∧ t.get SS_DEBUG_CTRL.STATUS = 0) ∧
      (level ≠ 3 → level.toNat ≤ s.sec.level → ∃ t, exec (.debugLevelRequest level) s = .next t ∧
        t.sec.level = level.toNat ∧ t.get SS_DEBUG_CTRL.STATUS = 0) ∧
      (level = 2 → s.sec.level < 2 → s.sec.debugged = false → s.fuses.lifecycle = 3 → s.sec.grant = .none →
        ∃ t, exec (.debugLevelRequest level) s = .next t ∧ t.sec.level = s.sec.level ∧ t.get SS_DEBUG_CTRL.STATUS = 1) ∧
      (level = 2 → s.sec.level < 2 → s.sec.debugged = false → s.fuses.lifecycle = 2 → s.sec.grant = .none → exchangeIdle s →
        ∃ t, exec (.debugLevelRequest level) s = .next t ∧ t.sec.level = s.sec.level ∧ t.sec.grant = .draining ∧
          t.sec.levelWaits = true ∧ t.get SS_DEBUG_CTRL.STATUS = 3)) ∧
    (p = 1 ∨ p = 2 → ∃ t, exec (.unlockNew p nonce) s = .next t ∧ t.sec.challenge = some p.toNat ∧
      t.sec.challenges = s.sec.challenges + 1 ∧ t.get SS_UNLOCK_CMD.NEW = 0) ∧
    (p ≠ 1 → p ≠ 2 → ∃ t, exec (.unlockNew p nonce) s = .next t ∧ t.sec = s.sec) ∧
    (s.flag SS_UNLOCK_CMD.BUSY = false →
      (∀ code, (s.sec.lockout = true ∧ code = 4) ∨ (s.sec.lockout = false ∧ s.fuses.lifecycle ≠ 3 ∧ code = 6) ∨
          (s.sec.lockout = false ∧ s.fuses.lifecycle = 3 ∧ s.sec.challenge = none ∧ code = 1) →
        ∃ t, exec .unlockGo s = .next t ∧ t.get SS_UNLOCK_CMD.STATUS = code ∧ t.sec = { s.sec with challenge := none }) ∧
      (∀ q, s.sec.lockout = false → s.fuses.lifecycle = 3 → s.sec.challenge = some q → ∃ t, exec .unlockGo s = .next t ∧
        t.flag SS_UNLOCK_CMD.BUSY = true ∧ t.sec = { s.sec with challenge := none, verifying := some (q, s.unlockResult) })) ∧
    (s.sec.verifying = none → exec .unlockVerifyDone s = .next s) ∧
    (∀ q code, s.sec.verifying = some (q, code) → code ≠ 0 → ∃ t, exec .unlockVerifyDone s = .next t ∧
      t.get SS_UNLOCK_CMD.STATUS = code % 256 ∧ t.get SS_IRQ_STATUS.UNLOCK_FAIL = 1 ∧ t.sec.fails = min (s.sec.fails + 1) 8 ∧
      t.sec.verifying = none ∧ (s.sec.fails = 7 → t.sec.lockout = true) ∧ (s.sec.fails ≠ 7 → t.sec.lockout = s.sec.lockout)) ∧
    (s.sec.verifying = some (2, 0) → ∃ t, exec .unlockVerifyDone s = .next t ∧ t.sec.retireAuth = true ∧
      t.get SS_UNLOCK_CMD.STATUS = 0) ∧
    (s.sec.verifying = some (1, 0) → exchangeIdle s → ∃ t, exec .unlockVerifyDone s = .next t ∧ t.sec.grant = .draining ∧
      t.get SS_DEBUG_CTRL.STATUS = 3) ∧
    (s.sec.grant = .draining → s.boltsInFlight = 0 → s.tiers.writes = [] → s.tiers.fills = [] → ∃ t, exec .grantErase s = .next t ∧
      t.sec.keys = [] ∧ t.sec.xkeys = [] ∧ t.sec.grant = .erasing ∧ t.heddle.picks = [] ∧ t.tiers.beam = [] ∧ t.tiers.wbs = [] ∧
      ∀ b ∈ t.weft.bolts, ∀ r ∈ b.rows, r.payload = []) ∧
    (s.sec.grant ≠ .draining ∨ s.boltsInFlight ≠ 0 → exec .grantErase s = .next s) ∧
    (s.sec.grant = .erasing → ∃ t, exec .grantComplete s = .next t ∧ t.sec.level = 2 ∧ t.sec.debugged = true ∧
      t.sec.grant = .none ∧ t.get SS_DEBUG_CTRL.STATUS = 0 ∧ t.get SS_IRQ_STATUS.GRANTED = 1 ∧
      (∀ off, off ≠ SS_DEBUG_CTRL.GO.off → off ≠ SS_IRQ_STATUS.GRANTED.off → t.word off = s.word off)) ∧
    (s.sec.grant ≠ .erasing → exec .grantComplete s = .next (if s.sec.unfinished then
      { s with sec := { s.sec with unfinished := false, debugged := true } } else s))

/-! ## Faults and repair (chapter 14) -/

/-- R341, R342, Table 14.3: a fault record goes into the entry of its number, HEAD and SEQ advance and RECORDS counts; when 256 records are
unread it overwrites the oldest: TAIL advances, RING_WRAPPED is set and OVERWRITTEN counts. Nothing else changes. -/
def Obligations.FaultRecordsFillTheRing : Prop :=
  ∀ (s : State) (f : FaultInfo),
    let seq := s.get CU_FAULT_PTR.SEQ_NEXT
    let unread := (s.get CU_FAULT_PTR.HEAD + 512 - s.get CU_FAULT_PTR.TAIL) % 512
    let t := s.recordFault f
    rewrites s t ((List.range 4).map (fun i => (CU_FAULT_RING.RECORD (seq % 256) i).off) ++
      [CU_FAULT_PTR.HEAD.off, CU_FAULT_EVENTS.RECORDS.off, CU_STATUS.RING_WRAPPED.off]) ∧
    (∀ i < 4, t.word (CU_FAULT_RING.RECORD (seq % 256) i).off = (faultWords s seq f).getD i 0) ∧
    t.get CU_FAULT_PTR.SEQ_NEXT = (seq + 1) % 2 ^ 32 ∧ t.get CU_FAULT_PTR.HEAD = (s.get CU_FAULT_PTR.HEAD + 1) % 512 ∧
    t.get CU_FAULT_EVENTS.RECORDS = min (s.get CU_FAULT_EVENTS.RECORDS + 1) (2 ^ 32 - 1) ∧
    t.get CU_FAULT_EVENTS.REPLAYS = s.get CU_FAULT_EVENTS.REPLAYS ∧
    (unread < 256 → t.get CU_FAULT_PTR.TAIL = s.get CU_FAULT_PTR.TAIL ∧
      t.get CU_STATUS.RING_WRAPPED = s.get CU_STATUS.RING_WRAPPED ∧ t.get CU_FAULT_EVENTS.OVERWRITTEN = s.get CU_FAULT_EVENTS.OVERWRITTEN) ∧
    (256 ≤ unread → t.get CU_FAULT_PTR.TAIL = (s.get CU_FAULT_PTR.TAIL + 1) % 512 ∧ t.get CU_STATUS.RING_WRAPPED = 1 ∧
      t.get CU_FAULT_EVENTS.OVERWRITTEN = min (s.get CU_FAULT_EVENTS.OVERWRITTEN + 1) (2 ^ 16 - 1))

/-- R338, R352, R356, R365, R368, R434: faults of the units. A parity error of an active core, said here where no pick runs, is recorded
(CORE_PARITY 0x06) and the core takes no further pick; on a core in its proof pick it, and a block past its limit, fails the proof (record
class 0x10) and leaves the core retired; on a core that is neither, nothing happens. A late block of an active core is its fault of class
0x07; a limit of 0, or no block, makes it nothing. An uncorrectable word of a row held in a replay buffer, here with no work formed from
it, spoils the row; of a row copy in the stage, of a row still sound in its buffer, it makes the Harness ask for the row again; each is recorded
(0x0B) and counted. One of a row not held, or of a Bobbin tile not present, is nothing; of a tile present, here with no pick, it is
recorded (0x0A) and counted, the tile is invalid in its slice and its fill is queued. An internal error of a unit of R356 fails the engine,
here with an idle exchange: every bolt becomes INTERNAL, and the record has class 0x30; another unit's number is nothing. -/
def Obligations.UnitFaultsAreActedOn : Prop :=
  ∀ (s : State) (h : Fin 8) (c : Fin 66) (store : Fin 5) (unit : BitVec 6) (sub : BitVec 4), s.serving = true →
    let k := s.core h.val c.val
    let i := if store.val = 2 then unit.toNat / 2 else unit.toNat
    (exec (.coreParityError h c store unit) s =
      .next (s.after (s.coreFault h.val c.val 6 (store.val * 2 ^ 56 + unit.toNat) (some i) 3))) ∧
    (k.service = .active → s.heddle.picks = [] → ∃ t, exec (.coreParityError h c store unit) s = .next t ∧ notesFault s t 6 3 ∧
      (t.core h.val c.val).service = .retirePending ∧ (t.core h.val c.val).withdrawn = true) ∧
    (k.service = .proving → s.get CU_CTRL.BLOCK_LIMIT ≠ 0 → ∃ t, exec (.blockTimeout h c) s = .next t ∧ notesFault s t 0x10 11 ∧
      (t.core h.val c.val).service = .retired ∧ t.get (CU_PROOF_STATUS.RESULT h.val) = 5) ∧
    (k.service = .proving → ∃ t, exec (.coreParityError h c store unit) s = .next t ∧ notesFault s t 0x10 11 ∧
      (t.core h.val c.val).service = .retired ∧ t.get (CU_PROOF_STATUS.RESULT h.val) = 3) ∧
    (k.service ≠ .active → k.service ≠ .retirePending → k.service ≠ .proving →
      exec (.coreParityError h c store unit) s = .next s) ∧
    (s.get CU_CTRL.BLOCK_LIMIT = 0 ∨ (k.blocks = [] ∧ k.service ≠ .proving) → exec (.blockTimeout h c) s = .next s) ∧
    (∀ b p rest j x, s.get CU_CTRL.BLOCK_LIMIT ≠ 0 → k.service = .active → k.blocks = b :: rest → s.pick? b.pick = some p →
      p.segs.head? = some (j, x) → exec (.blockTimeout h c) s = .next (s.after (s.coreFault h.val c.val 7 j (some j) 5))) ∧
    (∀ (bolt : BitVec 32) (row : BitVec 21) (b : Bolt) (r : Row),
      let counts := fun (t : State) => t.get CU_ECC_EVENTS.REPLAY_UNCORRECTED = min (s.get CU_ECC_EVENTS.REPLAY_UNCORRECTED + 1)
        (2 ^ fldWidth CU_ECC_EVENTS.REPLAY_UNCORRECTED - 1)
      s.named bolt.toNat (fun b => (b.row? row.toNat).isSome) = some b →
      b.row? row.toNat = some r →
      (b.remote = none → r.link = h.val → r.held = true → r.spoiled = false →
        s.bolt? b.id = some b → s.heddle.picks = [] → (∀ x ∈ s.heddle.harnesses, x.turns = []) → (∀ x ∈ s.spindles, x.jobs = []) → s.exch.rounds = [] →
        ∃ t y, exec (.replayEccError h bolt row false) s = .next t ∧ notesFault s t 0x0B 0 ∧ counts t ∧
          t.row? b.id row.toNat = some y ∧ y.spoiled = true) ∧
      (b.remote ≠ none ∨ r.held = false ∨ r.spoiled = true ∨ r.link ≠ h.val → exec (.replayEccError h bolt row false) s = .next s) ∧
      ((s.harness h.val).stage.any (fun e => e.bolt == b.id && e.row == r.index && e.kind == .row) = true → r.held = true →
        r.spoiled = false → ∃ t, exec (.replayEccError h bolt row true) s = .next t ∧ notesFault s t 0x0B 2 ∧ counts t ∧
          (t.harness h.val).reqs = (s.harness h.val).reqs ++ [⟨b.id, r.index⟩] ∧
          (t.harness h.val).stage.any (fun e => e.bolt == b.id && e.row == r.index && e.kind == .row) = false)) ∧
    (∀ tile, (s.frameOf h.val tile = none → exec (.bobbinEccError h tile) s = .next s) ∧
      (∀ a f, s.frameOf h.val tile = some (a, f) → f.sectors ≠ [] → s.heddle.picks = [] →
        ∃ t, exec (.bobbinEccError h tile) s = .next t ∧ notesFault s t 0x0A 6 ∧
          t.get CU_ECC_EVENTS.BOBBIN_UNCORRECTED = min (s.get CU_ECC_EVENTS.BOBBIN_UNCORRECTED + 1) (2 ^ 16 - 1) ∧
          (∀ x ∈ t.slice h.val, x.2.tile = tile → x.2.sectors = []) ∧
          ∃ g ∈ t.tiers.fills, g.tile = tile ∧ g.slice = some h.val)) ∧
    (sub.toNat ∈ [1, 2, 7, 8, 9, 11] → exec (.internalError sub) s = .next (s.after
        (s.recordFault { cls := 0x30, source := sub.toNat, action := 4, detail := 2 ^ sub.toNat }).failEngine) ∧
      (exchangeIdle s → ∃ t, exec (.internalError sub) s = .next t ∧ notesFault s t 0x30 sub.toNat ∧
        t.cust.engineFailed = true ∧ t.serving = false ∧ t.weft.bolts.all (·.internal) = true ∧ t.heddle = s.heddle ∧
        t.tiers = s.tiers)) ∧
    (sub.toNat ∉ [1, 2, 7, 8, 9, 11] → exec (.internalError sub) s = .next s)

/-- R51, R343, R352, R353, R361, R362, R364 to R366: a service order, of a unit that is free, that a master of a higher rank defeats completes with ORDER_REJECTED
(0x50) and its winner, and one identical to an order of its cycle with OK alone; RETIRE_CORE of a core that is not active, RETIRE_HARNESS of
a Harness not in service (2), and RETURN_CORE of a core that may not return (2 to 5) complete with their code and change nothing. Else the
order completes with OK (0): the core is to retire at the next boundary and counts in returns; the Harness retires, said here of one with no work, and
its slice is void; the core runs its proof pick. A proof pick that passes lets its core join at the next boundary; one that fails leaves
it retired, with a record of class 0x10. TAIL of the fault ring takes the host's value. The Tally ring moves only while it is empty. A drain
of the Tally goes on while an entry waits and the ring has room; each entry goes out as an engine write to its place in the ring, once the
one before has landed. -/
def Obligations.ServiceOrdersAndTheTallyRun : Prop :=
  ∀ (s : State) (h : Fin 8) (c : Fin 66) (rival : Option Rival) (v : W64) (sig : BitVec 32) (mk pr : Bool),
    s.boot.stage = .up → s.pm.st = .run →
    (s.flag CU_SERVICE_CMD.BUSY = false →
      let done := fun (u : State) (code winner : Nat) => u.get CU_SERVICE_CMD.STATUS = code ∧ u.get CU_SERVICE_CMD.WINNER = winner ∧
        u.flag CU_SERVICE_CMD.GO = false ∧ u.flag CU_SERVICE_CMD.BUSY = false
      let same := fun (u : State) => rewrites { s with resp := .written } u [CU_SERVICE_CMD.GO.off]
      (∀ r, defeatedBy 3 rival = some r → ∀ cmd ∈ [Instr.retireCore h c rival, .returnCore h c rival],
        ∃ t, exec cmd s = .next t ∧ same t ∧ done t 0x50 (rivalCode r)) ∧
      (∀ cmd ∈ [Instr.retireCore h c (some .same), .returnCore h c (some .same)], ∃ t, exec cmd s = .next t ∧ same t ∧ done t 0 0) ∧
      (defeatedBy 3 rival = none → rival ≠ some .same →
        ((s.core h.val c.val).service = .active → ∃ t, exec (.retireCore h c rival) s = .next t ∧ done t 0 0 ∧
          (t.core h.val c.val).service = .retirePending ∧ (t.core h.val c.val).returns = (s.core h.val c.val).returns + 1 ∧
          (∀ h' c', coreKey h' c' ≠ coreKey h.val c.val → t.core h' c' = s.core h' c') ∧
          (∀ off, off ≠ CU_SERVICE_CMD.GO.off → t.word off = s.word off)) ∧
        ((s.core h.val c.val).service ≠ .active → ∃ t, exec (.retireCore h c rival) s = .next t ∧ same t ∧ done t 2 0) ∧
        (s.returnRefusal h.val c.val ≠ 0 → ∃ t, exec (.returnCore h c rival) s = .next t ∧ same t ∧
          done t (s.returnRefusal h.val c.val) 0) ∧
        (s.returnRefusal h.val c.val = 0 → ∃ t, exec (.returnCore h c rival) s = .next t ∧ done t 0 0 ∧
          (t.core h.val c.val).service = .proving ∧ t.cust.proofs = s.cust.proofs ++ [(h.val, c.val)] ∧
          t.get (CU_PROOF_STATUS.CORE h.val) = c.val ∧ t.get (CU_PROOF_STATUS.RESULT h.val) = 0)) ∧
      (s.inService h.val = false → ∃ t, exec (.retireHarness h) s = .next t ∧ same t ∧ done t 2 0) ∧
      (s.inService h.val = true → s.heddle.picks = [] → (s.harness h.val).turns = [] → (s.spindle h.val).jobs = [] → s.heddle.sums = [] →
        s.tiers.fills = [] → exchangeIdle s → ∃ t, exec (.retireHarness h) s = .next t ∧ done t 0 0 ∧
        t.cust.harnessPending = s.cust.harnessPending ||| (1#8 <<< h.val) ∧ t.slice h.val = [])) ∧
    (∀ p, s.cust.proofs.find? (·.1 == h.val) = some p →
      (proofResult sig mk pr = 1 → ∃ t, exec (.proofPickEnd h sig mk pr) s = .next t ∧
        rewrites { s with cust := { s.cust with proofs := s.cust.proofs.filter (· != p), joins := s.cust.joins ++ [coreKey p.1 p.2] } }
          t [(CU_PROOF_STATUS.RESULT h.val).off] ∧ t.get (CU_PROOF_STATUS.RESULT h.val) = 1 ∧
        t.get (CU_PROOF_STATUS.SIGNATURE h.val) = sig.toNat) ∧
      (proofResult sig mk pr ≠ 1 → p.1 = h.val → ∃ t, exec (.proofPickEnd h sig mk pr) s = .next t ∧ notesFault s t 0x10 11 ∧
        (t.core p.1 p.2).service = .retired ∧ t.get (CU_PROOF_STATUS.RESULT h.val) = proofResult sig mk pr)) ∧
    (s.cust.proofs.find? (·.1 == h.val) = none → exec (.proofPickEnd h sig mk pr) s = .next s) ∧
    (∃ t, exec (.faultTailWrite v) s = .next t ∧ rewrites { s with resp := .written } t [CU_FAULT_PTR.TAIL.off] ∧
      t.get CU_FAULT_PTR.TAIL = bitsOf v.toNat 8 0 ∧ t.get CU_FAULT_PTR.HEAD = s.get CU_FAULT_PTR.HEAD ∧
      t.get CU_FAULT_PTR.SEQ_NEXT = s.get CU_FAULT_PTR.SEQ_NEXT) ∧
    (s.get CU_TALLY_PTR.HEAD ≠ s.get CU_TALLY_PTR.TAIL → exec (.tallyRingWrite v) s = .next { s with resp := .written }) ∧
    (s.get CU_TALLY_PTR.HEAD = s.get CU_TALLY_PTR.TAIL → ∃ t, exec (.tallyRingWrite v) s = .next t ∧
      rewrites { s with resp := .written } t [CU_TALLY_RING.VALID.off] ∧ t.get CU_TALLY_RING.BASE = bitsOf v.toNat 51 21) ∧
    (∃ t, exec .tallyDrain s = .next t ∧ t.cust.draining = (s.tallyRoom || s.cust.drainLeft != 0) ∧
      t.flag CU_TALLY_CTRL.DRAIN = (s.tallyRoom || s.cust.drainLeft != 0) ∧
      t.get CU_TALLY_CTRL.AUTO_MARK = s.get CU_TALLY_CTRL.AUTO_MARK ∧ t.cust.tally = s.cust.tally) ∧
    (s.cust.draining = false ∨ s.tiers.writes.any (·.source == 11) = true → exec .tallyEntryWrite s = .next s) ∧
    (s.cust.draining = true → s.tiers.writes.any (·.source == 11) = false → s.tallyRoom = false → s.cust.drainLeft = 0 →
      ∃ t, exec .tallyEntryWrite s = .next t ∧ t.cust.draining = false ∧ t.get CU_TALLY_CTRL.DRAIN = 0 ∧ t.tiers = s.tiers) ∧
    (∀ e rest, s.cust.draining = true → s.tiers.writes.any (·.source == 11) = false → s.tallyRoom = true → s.cust.tally = e :: rest →
      e.words ≠ [] → let n := (s.get CU_TALLY_PTR.HEAD + s.cust.drainLeft) % s.tallySize
      ∃ t, exec .tallyEntryWrite s = .next t ∧ t.cust.tally = rest ∧ t.cust.drainLeft = s.cust.drainLeft + 1 ∧
        t.tiers.writes = s.tiers.writes ++
          [⟨s.get CU_TALLY_RING.BASE * 2 ^ 21 + 32 * n, e.words.flatMap (fun w => toLe 8 w.toNat), 11, none⟩])

/-! ## Power, clocks and reset (chapter 15) -/

/-- R378, R384 to R386, R433: a counted fall of ZQ_RESET_N or of ZQ_PWROK, and the loss of the reference clock, put the engine into reset:
every register takes its reset value, but PM_RESET_CAUSE, which keeps its bits and takes that of the cause. A counted rise lets the
reset end later. A rail that is lost puts the engine into OFF, from which power-up leads to reset with POWER_ON alone. No fuse and no
byte outside the engine changes. -/
def Obligations.ResetsAndRailsClearTheEngine : Prop :=
  ∀ (s : State) (l : Level),
    let cause := fun (n : Nat) => s.word 0x800040 ||| BitVec.ofNat 64 n
    let kept := fun (t : State) => t.fuses = s.fuses ∧ t.tiers.board = s.tiers.board ∧ t.tiers.flash = s.tiers.flash ∧
      t.dbg.tapIr = s.dbg.tapIr ∧ (s.boot.cmd = none → t.boot.nor = s.boot.nor)
    (s.pm.st ≠ .off → l.chatter = 0 →
      (l.high = s.pm.resetN → exec (.zqResetN l) s = .next s) ∧
      (l.high = s.pm.pwrok → exec (.zqPwrok l) s = .next s) ∧
      (l.high = false → s.pm.resetN = true → ∃ t, exec (.zqResetN l) s = .next t ∧ standsReset t (cause 1) ∧ kept t ∧
        t.pm.resetN = false ∧ t.pm.pwrok = s.pm.pwrok ∧ t.pm.st = .run) ∧
      (l.high = true → s.pm.resetN = false → ∃ t, exec (.zqResetN l) s = .next t ∧
        t = { s with pm := { s.pm with resetN := true, lossGate := t.pm.lossGate } } ∧ (s.pm.lossGate = 2 → t.pm.lossGate = 0)) ∧
      (l.high = false → s.pm.pwrok = true → ∃ t, exec (.zqPwrok l) s = .next t ∧ standsReset t (cause 2) ∧ kept t ∧
        t.pm.pwrok = false ∧ t.pm.resetN = s.pm.resetN) ∧
      (l.high = true → s.pm.pwrok = false → exec (.zqPwrok l) s = .next { s with pm := { s.pm with pwrok := true } })) ∧
    (s.pm.st ≠ .off → ∃ t, exec .refclkLoss s = .next t ∧ standsReset t (cause 4) ∧ kept t ∧ t.pm.lossGate = 1) ∧
    (s.pm.st = .off → exec .refclkLoss s = .next s ∧ exec (.zqResetN l) s = .next s ∧ exec (.zqPwrok l) s = .next s) ∧
    (∃ t, exec .railLoss s = .next t ∧ standsReset t 0 ∧ kept t ∧ t.pm.st = .off) ∧
    (s.pm.st ≠ .off → exec .powerUp s = .next s) ∧
    (s.pm.st = .off → ∃ t, exec .powerUp s = .next t ∧ standsReset t 8 ∧ kept t ∧ t.pm.st = .run ∧ t.pm.resetN = false ∧
      t.pm.pwrok = false)

/-- R51, R373 to R376: power orders. In RUN a HOLD order completes with NOT_IDLE (1), BOLTS_IN_FLIGHT (2), WAKE_HIGH (3) or SECURITY_BUSY (4),
in this order, or with ORDER_REJECTED (0x50) and the winner, and changes nothing else, nor does one identical to an order of its cycle,
which completes with OK; else, here with an idle exchange, HOLD entry begins: every grant is withdrawn. HOLD is reached once nothing issued
is left, and counts in HOLD_ENTRIES. A RUN order in RUN completes at once. The exit from HOLD begins when VDD_ZQS is back in its range, and completes
in RUN, here with no stack failed, with the RUN order that asked for it. A rise of ZQ_WAKE starts the exit from a HOLD that is no protection HOLD, and
ends IDLE. IDLE is entered from RUN when all is quiet, and counts in IDLE_ENTRIES. Where its condition does not hold each event changes
nothing. -/
def Obligations.PowerStatesFollowTheirOrders : Prop :=
  ∀ (s : State) (rival : Option Rival) (l : Level) (back : BitVec 4), s.boot.stage = .up →
    (s.pm.st = .run → s.flag PM_POWER_CMD.BUSY = false →
      (s.holdRefusal ≠ 0 → ∃ t, exec (.powerHold rival) s = .next t ∧
        rewrites { s with resp := .written } t [PM_POWER_CMD.GO.off] ∧ t.get PM_POWER_CMD.STATUS = s.holdRefusal ∧
        t.flag PM_POWER_CMD.BUSY = false) ∧
      (∀ r, s.holdRefusal = 0 → defeatedBy 3 rival = some r → ∃ t, exec (.powerHold rival) s = .next t ∧
        rewrites { s with resp := .written } t [PM_POWER_CMD.GO.off] ∧ t.get PM_POWER_CMD.STATUS = 0x50 ∧
        t.get PM_POWER_CMD.WINNER = rivalCode r) ∧
      (s.holdRefusal = 0 → ∃ t, exec (.powerHold (some .same)) s = .next t ∧
        rewrites { s with resp := .written } t [PM_POWER_CMD.GO.off] ∧ t.get PM_POWER_CMD.STATUS = 0 ∧
        t.flag PM_POWER_CMD.BUSY = false) ∧
      (s.holdRefusal = 0 → defeatedBy 3 rival = none → rival ≠ some .same → exchangeIdle s → ∃ t, exec (.powerHold rival) s = .next t ∧
        t.pm.st = .enteringHold ∧ t.flag PM_POWER_CMD.BUSY = true ∧ t.heddle.harnesses.all (fun x => !x.granted) = true ∧
        t.weft = s.weft ∧ t.tiers = s.tiers ∧ ∀ off, off ≠ PM_POWER_CMD.GO.off → t.word off = s.word off) ∧
      (defeatedBy 3 rival = none → ∃ t, exec (.powerRun rival) s = .next t ∧
        rewrites { s with resp := .written } t [PM_POWER_CMD.GO.off] ∧ t.get PM_POWER_CMD.STATUS = 0 ∧
        t.flag PM_POWER_CMD.BUSY = false)) ∧
    (s.pm.st ≠ .enteringHold ∨ s.settled = false → exec .holdReached s = .next s) ∧
    (s.pm.st = .enteringHold → s.settled = true → ∃ t, exec .holdReached s = .next t ∧ t.pm.st = .hold ∧
      t.get PM_EVENTS.HOLD_ENTRIES = min (s.get PM_EVENTS.HOLD_ENTRIES + 1) (2 ^ 16 - 1) ∧ t.irqLevels = s.irqLevels ∧
      rewrites { s with pm := t.pm } t [PM_EVENTS.HOLD_ENTRIES.off, PM_POWER_CMD.GO.off]) ∧
    (s.pm.st = .hold → s.pm.exiting = true → s.pm.reconnecting = false → ∃ t, exec .holdExitBegin s = .next t ∧
      t.pm.reconnecting = true ∧ 720 ≤ t.pm.vddsMv ∧ t.pm.vddsMv ≤ 780 ∧ t.regs = s.regs ∧ t.pm.st = .hold) ∧
    (s.pm.st ≠ .hold ∨ s.pm.exiting = false → exec .holdExitBegin s = .next s) ∧
    (s.pm.st = .hold → s.pm.reconnecting = true → s.pm.holdCmd = false → ∃ t, exec (.holdExitComplete 0) s = .next t ∧
      t.pm.st = .run ∧ t.pm.protect = false ∧ t.pm.exiting = false ∧ t.pm.reconnecting = false ∧
      (s.pm.exitCmd = true → t.get PM_POWER_CMD.STATUS = 0 ∧ t.flag PM_POWER_CMD.BUSY = false)) ∧
    (s.pm.reconnecting = false → exec (.holdExitComplete back) s = .next s) ∧
    (s.pm.st = .run → s.quiet = true → exec .idleEntry s =
      .next { s.bump PM_EVENTS.IDLE_ENTRIES with pm := { s.pm with st := .idle } }) ∧
    (s.pm.st ≠ .run ∨ s.quiet = false → exec .idleEntry s = .next s) ∧
    (s.pm.st ≠ .off → l.chatter = 0 → l.high = true → ∃ t, exec (.zqWake l) s = .next t ∧ t.pm.wake = true ∧ t.regs = s.regs ∧
      (s.pm.st = .hold → s.pm.wake = false → s.pm.protect = false → t.pm.exiting = true ∧ t.pm.st = .hold) ∧
      (s.pm.st = .idle → t.pm.st = .run)) ∧
    (s.pm.st ≠ .off → l.chatter = 0 → l.high = false → exec (.zqWake l) s = .next { s with pm := { s.pm with wake := false } })

/-- R371, R379 to R384, R389, Table 15.4: each window grants Harness h while (w + 2·h) mod 16 < D, with D the least duty of the sources
that are on. ZQ_THROTTLE is such a source; held too long it is recorded (0x25), where LIMIT_MS is not 0. A low rail is recorded (0x27)
and takes every grant until it recovers. Above WATTS the limit throttles, until the estimate has stayed below 95 percent. A sensor that reads out of range has failed: it is
recorded (0x24), and reads THROTTLE from then on. The highest reading sets WARN, THROTTLE and CRIT, each with its hysteresis; WARN, where the
others stand already, is recorded (0x20). A critical temperature that stays puts the engine into a protection HOLD (0x23), here with an idle
exchange, where CRIT_HOLD_MS is not 0. -/
def Obligations.ThrottlingSourcesSetTheDuty : Prop :=
  ∀ (s : State) (l : Level) (rail : Bool) (mv : BitVec 16) (watts : Nat), s.boot.stage = .up →
    let dealt := fun (t : State) => ∀ i x, t.heddle.harnesses[i]? = some x → x.granted = decide ((t.pm.window + 2 * i) % 16 < t.duty)
    (s.pm.st = .run ∨ s.pm.st = .idle → ∃ t, exec .grantWindow s = .next t ∧ t.pm.window = s.pm.window + 1 ∧ dealt t ∧
      t.regs = s.regs ∧ t.weft = s.weft ∧ t.tiers = s.tiers) ∧
    (s.pm.st = .hold → exec .grantWindow s = .next s) ∧
    (s.pm.st ≠ .off → l.chatter = 0 → ∃ t, exec (.zqThrottle l) s = .next t ∧ t.pm.throttle = l.high ∧ dealt t ∧ t.regs = s.regs ∧
      (l.high = true → t.duty ≤ s.get PM_THROTTLE_CTRL.PIN_DUTY) ∧ t.weft = s.weft) ∧
    (s.pm.st ≠ .off → s.pm.throttle = true → s.pm.stuck = false → s.get PM_THROTTLE_MAX.LIMIT_MS ≠ 0 → ∃ t,
      exec .throttleStuck s = .next t ∧ t = { s with regs := t.regs, pm := { s.pm with stuck := true } } ∧ notesFault s t 0x25 12) ∧
    (s.pm.throttle = false ∨ s.pm.stuck = true ∨ s.get PM_THROTTLE_MAX.LIMIT_MS = 0 → exec .throttleStuck s = .next s) ∧
    (s.pm.st = .run ∨ s.pm.st = .idle → ∃ t, exec (.supplyLow rail mv) s = .next t ∧ t.pm.supplyLow = true ∧ dealt t ∧
      t.duty = 0 ∧ notesFault s t 0x27 12 ∧ (rail = true → t.pm.vddsMv = mv.toNat) ∧ (rail = false → t.pm.vddMv = mv.toNat)) ∧
    (s.pm.st ≠ .off → s.pm.supplyLow = true → ∃ t, exec .supplyRecovered s = .next t ∧ t.pm.supplyLow = false ∧ dealt t ∧
      650 ≤ t.pm.vddMv ∧ t.pm.vddMv ≤ 800 ∧ 720 ≤ t.pm.vddsMv ∧ t.pm.vddsMv ≤ 780 ∧ t.regs = s.regs) ∧
    (s.pm.supplyLow = false → exec .supplyRecovered s = .next s) ∧
    (s.pm.st ≠ .off → ∃ t, exec (.powerEstimate watts) s = .next t ∧ dealt t ∧ t.regs = s.regs ∧
      (s.get PM_POWER_LIMIT.WATTS = 0 → t.pm.limit = false) ∧
      (s.get PM_POWER_LIMIT.WATTS ≠ 0 → s.get PM_POWER_LIMIT.WATTS < watts → t.pm.limit = true) ∧
      (s.pm.limit = false → watts ≤ s.get PM_POWER_LIMIT.WATTS → t.pm.limit = false) ∧
      (s.pm.limit = true → 95 * s.get PM_POWER_LIMIT.WATTS ≤ 100 * watts → s.get PM_POWER_LIMIT.WATTS ≠ 0 → t.pm.limit = true)) ∧
    (s.pm.st ≠ .off → s.pm.sensors.length = 16 → ∀ xs, ∃ t, exec (.sensorSample xs) s = .next t ∧ dealt t ∧
      let x := fun i => xs.getD i (BitVec.ofNat 16 (s.pm.sensors.getD i 0))
      let fails := (List.range 16).filter (fun i => outOfRange (x i) && !s.pm.sensorFailed.getLsbD i)
      let follows := fun (was : Bool) (f : Fld) => decide (s.threshold f false ≤ tempOf t.hottest.2) ||
        (was && !decide (tempOf t.hottest.2 < s.threshold f true))
      (∀ i < 16, t.pm.sensorFailed.getLsbD i = (s.pm.sensorFailed.getLsbD i || outOfRange (x i)) ∧
        t.pm.sensors.getD i 0 = if t.pm.sensorFailed.getLsbD i then s.get PM_THERMAL.THROTTLE * 8 else (x i).toNat) ∧
      t.pm.warned = follows s.pm.warned PM_THERMAL.WARN ∧ t.pm.thermal = follows s.pm.thermal PM_THERMAL.THROTTLE ∧
      t.pm.crit = follows s.pm.crit PM_THERMAL.CRIT ∧
      (s.pm.thermal = true → s.pm.crit = true →
        (s.pm.warned = true → fails = [] → t.regs = s.regs) ∧
        (s.pm.warned = true → fails.length = 1 → notesFault s t 0x24 12) ∧
        (s.pm.warned = false → t.pm.warned = true → fails = [] → notesFault s t 0x20 12))) ∧
    (s.get PM_THERMAL.CRIT_HOLD_MS = 0 ∨ s.pm.protect = true → exec .critHoldExpiry s = .next s) ∧
    (s.pm.st = .run ∨ s.pm.st = .idle → exchangeIdle s → s.get PM_THERMAL.CRIT_HOLD_MS ≠ 0 → s.pm.protect = false → s.pm.reconnecting = false →
      s.threshold PM_THERMAL.CRIT false ≤ tempOf s.hottest.2 → ∃ t, exec .critHoldExpiry s = .next t ∧ t.pm.protect = true ∧
      t.pm.st = .enteringHold ∧ notesFault s t 0x23 12)

/-! ## Boot and flash (chapter 16) -/

/-- R385, R400 to R402, R404, R405: reset ends once both inputs are high and no lost clock is unanswered: the burned transition takes
effect, with its debug level, the skew table is ready and the image may be read. An image that fails a check leaves its code and no register
changes; one that passes is applied. After the tests ENGINE_READY rises. Out of its turn each step changes nothing. A flash command of a
booted engine is refused with its code (NO_FLASH 5, BAD_ARG 3, LOCKED 1), and changes nothing; a READ completes at once with the device's
bytes in BD_FLASH_BUF, the rest of which stands; an erase or a program waits, BUSY, until its busy bit has cleared: an erased sector reads
0xFF and the rest stands, and erased bytes take what was programmed; one that the limit cut ends with TIMEOUT (4), an erase leaving the
other sectors alone. -/
def Obligations.BootStepsAndFlashCommandsComplete : Prop :=
  ∀ (s : State) (f : FlashFound) (fails : List Nat) (sf us : BitVec 32), s.pm.st = .run →
    (s.boot.stage = .inReset → s.pm.resetN = true → s.pm.pwrok = true → s.pm.lossGate = 0 → ∃ t, exec (.resetRelease f) s = .next t ∧
      t.boot.stage = .bootRead ∧ t.fuses = { s.fuses with lifecycle := s.fuses.pending } ∧
      t.sec.level = resetLevel s.fuses.pending ∧ t.get SD_STATUS.SKEW_READY = 1 ∧ t.engineReady = false) ∧
    (s.boot.stage ≠ .inReset ∨ s.pm.resetN = false ∨ s.pm.pwrok = false ∨ s.pm.lossGate ≠ 0 → exec (.resetRelease f) s = .next s) ∧
    (s.boot.stage ≠ .bootRead → exec .imageCheck s = .next s) ∧
    (∀ code sect, s.boot.stage = .bootRead → s.imageCode = (code, sect) → code ≠ 0 → ∃ t, exec .imageCheck s = .next t ∧
      t.boot.stage = .bootTest ∧ t.boot.code = code ∧ t.boot.sectionType = sect ∧ t.regs = s.regs ∧ t.skein = s.skein) ∧
    (∀ sect type i, s.boot.stage = .bootRead → s.imageCode = (0, sect) →
      s.applySections (sortBy (fun a b => decide (a.type < b.type)) s.imgDirectory) = .inr (type, i) → ∃ t, exec .imageCheck s = .next t ∧
      t.boot.stage = .bootTest ∧ t.boot.code = 12 ∧ t.boot.sectionType = type ∧ t.boot.record = i ∧ t.regs = s.regs) ∧
    (∀ sect s', s.boot.stage = .bootRead → s.imageCode = (0, sect) →
      s.applySections (sortBy (fun a b => decide (a.type < b.type)) s.imgDirectory) = .inl s' → ∃ t, exec .imageCheck s = .next t ∧
      t.boot.stage = .bootTest ∧ t.boot.code = 0 ∧ t.boot.factory = false ∧ t.boot.imageVersion = bitsOf (s.norWord 8 8) 63 32 ∧
      t.regs = s'.regs) ∧
    (s.boot.stage = .bootTest → ∃ t, exec (.bootComplete fails sf us) s = .next t ∧ t.boot.stage = .up ∧ t.boot.done = true ∧
      t.boot.us = us.toNat ∧ (t.cust.engineFailed = false → t.engineReady = true)) ∧
    (s.boot.stage ≠ .bootTest → exec (.bootComplete fails sf us) s = .next s) ∧
    (s.boot.stage = .up → s.flag BD_FLASH_CMD.BUSY = false → ∀ cmd op, (cmd, op) ∈ [(Instr.flashRead, 0), (.erase4k, 1), (.program, 2)] →
      let u := s.writeFields BD_FLASH_CMD.GO.off
        (cmdWord [(BD_FLASH_CMD.GO, 1), (BD_FLASH_CMD.OP, op), (BD_FLASH_CMD.ADDR, s.get BD_FLASH_CMD.ADDR)])
      (u.flashRefusal ≠ 0 → ∃ t, exec cmd s = .next t ∧ rewrites { s with resp := .written } t [BD_FLASH_CMD.GO.off] ∧
        t.get BD_FLASH_CMD.STATUS = u.flashRefusal ∧ t.flag BD_FLASH_CMD.BUSY = false) ∧
      (u.flashRefusal = 0 → op = 0 → ∃ t, exec cmd s = .next t ∧ t.get BD_FLASH_CMD.STATUS = 0 ∧ t.flag BD_FLASH_CMD.BUSY = false ∧
        t.boot = s.boot ∧ ∀ i < 256, let byte := fun (x : State) => (x.regBytes (BD_FLASH_BUF.WORD 0).off 32).getD i 0
          let a := s.get BD_FLASH_CMD.ADDR + i
          (i < s.get BD_FLASH_LEN.LENGTH → a < s.boot.flash.densityKib * 1024 → byte t = mapGet 0xFF#8 s.boot.nor a) ∧
          (s.get BD_FLASH_LEN.LENGTH ≤ i → byte t = byte s)) ∧
      (u.flashRefusal = 0 → op ≠ 0 → ∃ t, exec cmd s = .next t ∧ t.flag BD_FLASH_CMD.BUSY = true ∧ t.boot.nor = s.boot.nor ∧
        (∃ data, t.boot.cmd = some { op := op, addr := s.get BD_FLASH_CMD.ADDR, data := data } ∧
          (op = 2 → data = (s.regBytes (BD_FLASH_BUF.WORD 0).off 32).take (s.get BD_FLASH_LEN.LENGTH))))) ∧
    (s.boot.cmd = none → ∀ x, exec (.flashCommandDone x) s = .next s) ∧
    (∀ c, s.boot.cmd = some c → (∃ t, exec (.flashCommandDone false) s = .next t ∧ t.get BD_FLASH_CMD.STATUS = 0 ∧
        t.flag BD_FLASH_CMD.BUSY = false ∧ t.boot.cmd = none ∧
        (c.op = 1 → ∀ a, mapGet 0xFF#8 t.boot.nor a = if c.addr ≤ a ∧ a < c.addr + 4096 then 0xFF#8 else mapGet 0xFF#8 s.boot.nor a) ∧
        (c.op = 2 → ∀ i < c.data.length, mapGet 0xFF#8 s.boot.nor (c.addr + i) = 0xFF#8 →
          mapGet 0xFF#8 t.boot.nor (c.addr + i) = c.data.getD i 0)) ∧
      (∃ t, exec (.flashCommandDone true) s = .next t ∧ t.get BD_FLASH_CMD.STATUS = 4 ∧ t.boot.cmd = none ∧
        (c.op = 1 → ∀ a, (a < c.addr / 4096 * 4096 ∨ c.addr / 4096 * 4096 + 4096 ≤ a) →
          mapGet 0xFF#8 t.boot.nor a = mapGet 0xFF#8 s.boot.nor a)))

/-! ## Debug (chapter 17) -/

/-- R327, R334, R408, R409, R411, R412, R414 to R416, R420, R422, R423: the TAP takes its instruction, and no access is made under another than TREADLE. An
access that its level or state does not allow ends with SECURITY_DENIED (0x60), then a misaligned one with 1; a read returns the value and
clears nothing; a write where no register is assigned ends with 0. At FULL: an order for a core position above 65, and a STEP of no core and no
Spindle, completes with 1; HALT waits, BUSY; RESUME releases what its scope covers; STEP of a core that is not halted ends with 3, and of a
halted one with a due pick lets that pick step and shows its fields; of a Spindle that is not stopped it ends with 3. A memory access to a bank of a halted
core reads it or writes it; one to a tier other than LOOM completes in its command, and a LOOM read of bytes in Beam, of a region that is
not encrypted and with nothing waiting, does too. A halt takes hold when its units have come to rest. XTRIG counts each rise, and acts at FULL. -/
def Obligations.TreadleAccessesAndHaltsComplete : Prop :=
  ∀ (s : State) (off : BitVec 26) (v : W64) (h : Fin 8) (c : BitVec 7) (scope : BitVec 2), s.boot.stage = .up → s.pm.st = .run →
    (∀ cmd n, (cmd, n) ∈ [(Instr.idcode, 0), (.bypass, 1), (.treadle, 2)] →
      exec cmd s = .next { s with dbg := { s.dbg with tapIr := n } }) ∧
    exec .treadleNop s = .next s ∧
    (s.dbg.tapIr ≠ 2 → exec (.treadleRead off) s = .next s ∧ exec (.treadleWrite off v) s = .next s) ∧
    (s.dbg.tapIr = 2 →
      let ends := fun code => ({ s with dbg := { s.dbg with tapStatus := code } } : State)
      (s.treadleReads off.toNat = false → exec (.treadleRead off) s = .next (ends 0x60)) ∧
      (s.treadleReads off.toNat = true → off.toNat % 8 ≠ 0 → exec (.treadleRead off) s = .next (ends 1)) ∧
      (s.treadleReads off.toNat = true → off.toNat % 8 = 0 → exec (.treadleRead off) s =
        .next { s with free := s.free + 1, dbg := { s.dbg with tapStatus := 0, tapData := s.treadleWord off.toNat } }) ∧
      (s.treadleWrites off.toNat = false → exec (.treadleWrite off v) s = .next (ends 0x60)) ∧
      (s.treadleWrites off.toNat = true → off.toNat % 8 ≠ 0 → exec (.treadleWrite off v) s = .next (ends 1)) ∧
      (s.treadleWrites off.toNat = true → off.toNat % 8 = 0 → findReg off.toNat = none → exec (.treadleWrite off v) s = .next (ends 0)) ∧
      (s.sec.level ≠ 2 → ∀ cmd ∈ [Instr.halt scope h c, .resume scope h c, .step scope h c, .debugMemRead, .debugMemWrite],
        exec cmd s = .next (ends 0x60)) ∧
      (s.sec.level = 2 →
        let r := haltScope scope.toNat h.val c.toNat
        (∀ cmd ∈ [Instr.halt scope h c, .resume scope h c, .step scope h c], r.scope = 2 → 66 ≤ r.c → ∃ t, exec cmd s = .next t ∧
          t.get BD_DBG_HALT.STATUS = 1 ∧ t.flag BD_DBG_HALT.BUSY = false ∧ t.heddle = s.heddle) ∧
        (¬ (r.scope = 2 ∧ 66 ≤ r.c) → ∃ t, exec (.halt scope h c) s = .next t ∧ t.flag BD_DBG_HALT.BUSY = true ∧
          r ∈ t.dbg.pendingHalts ∧ t.dbg.halts = s.dbg.halts ∧ t.dbg.tapStatus = 0) ∧
        (¬ (r.scope = 2 ∧ 66 ≤ r.c) → ∃ t, exec (.resume scope h c) s = .next t ∧ t.get BD_DBG_HALT.STATUS = 0 ∧
          t.dbg.halts = s.dbg.halts.filter (fun q => !(q.within r)) ∧
          t.dbg.pendingHalts = s.dbg.pendingHalts.filter (fun q => !(q.within r))) ∧
        (r.scope = 2 → r.c < 66 → s.coreHalted r.h r.c = false → ∃ t, exec (.step scope h c) s = .next t ∧
          t.get BD_DBG_HALT.STATUS = 3 ∧ t.heddle = s.heddle) ∧
        (∀ p, r.scope = 2 → r.c < 66 → s.coreHalted r.h r.c = true → s.duePick r.h r.c = some p → ∃ t,
          exec (.step scope h c) s = .next t ∧ t.get BD_DBG_HALT.STATUS = 0 ∧ (t.core r.h r.c).stepping = some p.id ∧ t.dbg.stepPick = p.words) ∧
        (r.scope < 2 → ∃ t, exec (.step scope h c) s = .next t ∧ t.get BD_DBG_HALT.STATUS = 1 ∧ t.heddle = s.heddle) ∧
        (r.scope = 3 → s.spindleStopped r.h = false → ∃ t, exec (.step scope h c) s = .next t ∧ t.get BD_DBG_HALT.STATUS = 3 ∧
          t.spindles = s.spindles) ∧
        (s.flag BD_DBG_MEM_CMD.BUSY = false →
          let a := s.get BD_DBG_MEM_ADDR.ADDR
          let tier := s.get BD_DBG_MEM_CMD.TIER
          let H := s.get BD_DBG_MEM_CMD.HARNESS
          let C := s.get BD_DBG_MEM_CMD.CORE
          let ends := fun (t : State) => t.flag BD_DBG_MEM_CMD.BUSY = false ∧ t.flag BD_DBG_MEM_CMD.GO = false ∧ t.dbg.tapStatus = 0
          (tier ≠ 0 → ∀ cmd ∈ [Instr.debugMemRead, .debugMemWrite], ∃ t, exec cmd s = .next t ∧ ends t) ∧
          (tier = 5 → a % 8 = 0 → a < 270336 → C < 66 → s.coreHalted H C = true →
            (∃ t, exec .debugMemRead s = .next t ∧ ends t ∧ t.get BD_DBG_MEM_CMD.STATUS = 0 ∧ t.heddle = s.heddle ∧
              t.word BD_DBG_MEM_DATA.DATA.off = BitVec.ofNat 64 (leNat (getRun (s.core H C).banks a 8))) ∧
            (∃ t, exec .debugMemWrite s = .next t ∧ ends t ∧ t.get BD_DBG_MEM_CMD.STATUS = 0 ∧ t.core H C =
              { s.core H C with banks := putRun (s.core H C).banks a (wordBytes (s.word BD_DBG_MEM_DATA.DATA.off)) })) ∧
          (∀ q, tier = 0 → a % 8 = 0 → s.atRest → s.inBeam a 8 → s.regionOfPage (a / pageBytes) = some q → s.encrypted q = false →
            ∃ t, exec .debugMemRead s = .next t ∧ ends t ∧ t.get BD_DBG_MEM_CMD.STATUS = 0 ∧
              t.word BD_DBG_MEM_DATA.DATA.off = BitVec.ofNat 64 (leNat (getRun s.tiers.beam a 8)))))) ∧
    (s.dbg.pendingHalts.find? s.haltReady = none → exec .haltTakesHold s = .next s) ∧
    (∀ r, s.dbg.pendingHalts.find? s.haltReady = some r → ∃ t, exec .haltTakesHold s = .next t ∧ r ∈ t.dbg.halts ∧
      t.dbg.pendingHalts = s.dbg.pendingHalts.filter (· != r)) ∧
    (∃ t, exec .xtrigIn s = .next t ∧ t.get BD_DBG_XTRIG.IN_COUNT = min (s.get BD_DBG_XTRIG.IN_COUNT + 1) (2 ^ 16 - 1) ∧
      (s.sec.level ≠ 2 → rewrites s t [BD_DBG_XTRIG.IN_COUNT.off]) ∧
      (s.sec.level = 2 → s.get BD_DBG_XTRIG.IN_ACTION = 1 → ⟨0, 0, 0⟩ ∈ t.dbg.pendingHalts) ∧
      (s.sec.level = 2 → s.get BD_DBG_XTRIG.IN_ACTION = 2 → t.dbg.halts = s.dbg.halts.filter (fun q => !(q.within ⟨0, 0, 0⟩)))) ∧
    exec .xtrigPulseEnd s = .next { s with dbg := { s.dbg with xtrigOut := false } }
end

