-- ==== Sys2Proof/Laws/Maps.lean ====
section
/-! SUPPORT. Laws of the sparse maps: a read after a write, reads elsewhere, and that every operation keeps the canonical form. -/

namespace Sys2Proof.Machine

theorem mapFind_mapIns_self {α : Type} (m : SMap α) (i : Nat) (v : α) : mapFind (mapIns m i v) i = some v := by
  induction m with
  | nil => simp [mapIns, mapFind]
  | cons p t ih =>
    obtain ⟨k, w⟩ := p
    simp only [mapIns]
    split
    · next h => simp [mapFind, h]
    · split
      · simp [mapFind]
      · next h1 h2 => simp [mapFind, h1, h2, ih]

theorem mapFind_mapIns_ne {α : Type} (m : SMap α) {i j : Nat} (v : α) (h : j ≠ i) :
    mapFind (mapIns m i v) j = mapFind m j := by
  induction m with
  | nil => simp [mapIns, mapFind, h]
  | cons p t ih =>
    obtain ⟨k, w⟩ := p
    simp only [mapIns]
    split
    · next e => subst e; simp [mapFind, h]
    · split
      · simp [mapFind, h]
      · simp [mapFind, ih]

theorem mapFind_mapDel_self {α : Type} (m : SMap α) (i : Nat) : mapFind (mapDel m i) i = none := by
  induction m with
  | nil => rfl
  | cons p t ih =>
    obtain ⟨k, w⟩ := p
    unfold mapDel at ih ⊢
    by_cases e : k = i
    · subst e; simpa using ih
    · have e' : ¬ i = k := fun x => e x.symm
      simpa [e, mapFind, e'] using ih

theorem mapFind_mapDel_ne {α : Type} (m : SMap α) {i j : Nat} (h : j ≠ i) : mapFind (mapDel m i) j = mapFind m j := by
  induction m with
  | nil => rfl
  | cons p t ih =>
    obtain ⟨k, w⟩ := p
    unfold mapDel at ih ⊢
    by_cases e : k = i
    · subst e; simpa [mapFind, h] using ih
    · simp [e, mapFind, ih]

/-- A read of the key written gives the value written. -/
theorem mapGet_mapPut_self {α : Type} [DecidableEq α] (d : α) (m : SMap α) (i : Nat) (v : α) :
    mapGet d (mapPut d m i v) i = v := by
  unfold mapGet mapPut
  split
  · next e => rw [mapFind_mapDel_self m]; simp [e]
  · rw [mapFind_mapIns_self]; rfl

/-- A write leaves every other key as it was. -/
theorem mapGet_mapPut_ne {α : Type} [DecidableEq α] (d : α) (m : SMap α) {i j : Nat} (v : α)
    (hj : j ≠ i) : mapGet d (mapPut d m i v) j = mapGet d m j := by
  unfold mapGet mapPut
  split
  · rw [mapFind_mapDel_ne m hj]
  · rw [mapFind_mapIns_ne m v hj]

theorem mapWfFrom_weaken {α : Type} [DecidableEq α] (d : Nat → α) (m : SMap α) {lo lo' : Nat} (hl : lo' ≤ lo)
    (h : mapWfFrom d lo m = true) : mapWfFrom d lo' m = true := by
  cases m with
  | nil => rfl
  | cons p t =>
    obtain ⟨k, w⟩ := p
    simp only [mapWfFrom, Bool.and_eq_true, decide_eq_true_eq] at h ⊢
    exact ⟨⟨by omega, h.1.2⟩, h.2⟩

theorem mapIns_wfFrom {α : Type} [DecidableEq α] (d : Nat → α) (m : SMap α) {lo i : Nat} {v : α}
    (h : mapWfFrom d lo m = true) (hi : lo ≤ i) (hv : v ≠ d i) : mapWfFrom d lo (mapIns m i v) = true := by
  induction m generalizing lo with
  | nil => simp [mapIns, mapWfFrom, hi, hv]
  | cons p t ih =>
    obtain ⟨k, w⟩ := p
    simp only [mapWfFrom, Bool.and_eq_true, decide_eq_true_eq, Bool.not_eq_true', decide_eq_false_iff_not] at h
    simp only [mapIns]
    split
    · next e => subst e; simp [mapWfFrom, hi, hv, h.2]
    · split
      · next e1 e2 =>
        simp only [mapWfFrom, Bool.and_eq_true, decide_eq_true_eq, Bool.not_eq_true', decide_eq_false_iff_not]
        exact ⟨⟨hi, hv⟩, ⟨⟨by omega, h.1.2⟩, h.2⟩⟩
      · next e1 e2 =>
        simp only [mapWfFrom, Bool.and_eq_true, decide_eq_true_eq, Bool.not_eq_true', decide_eq_false_iff_not]
        exact ⟨h.1, ih h.2 (by omega)⟩

/-- Listing a value that is not the default keeps the canonical form. -/
theorem mapIns_wf {α : Type} [DecidableEq α] (d : Nat → α) (m : SMap α) {i : Nat} {v : α} (h : mapWf d m = true)
    (hv : v ≠ d i) : mapWf d (mapIns m i v) = true := mapIns_wfFrom d m h (Nat.zero_le i) hv

theorem mapFilter_wfFrom {α : Type} [DecidableEq α] (d : Nat → α) (p : Nat × α → Bool) (m : SMap α) {lo : Nat}
    (h : mapWfFrom d lo m = true) : mapWfFrom d lo (m.filter p) = true := by
  induction m generalizing lo with
  | nil => rfl
  | cons q t ih =>
    obtain ⟨k, w⟩ := q
    simp only [mapWfFrom, Bool.and_eq_true, decide_eq_true_eq] at h
    rw [List.filter_cons]
    split
    · simp only [mapWfFrom, Bool.and_eq_true, decide_eq_true_eq]; exact ⟨h.1, ih h.2⟩
    · exact mapWfFrom_weaken d _ (by omega) (ih h.2)

/-- Removing a key keeps the canonical form. -/
theorem mapDel_wf {α : Type} [DecidableEq α] (d : Nat → α) (m : SMap α) (i : Nat) (h : mapWf d m = true) :
    mapWf d (mapDel m i) = true := mapFilter_wfFrom d _ m h

/-- A write keeps the canonical form. -/
theorem mapPut_wf {α : Type} [DecidableEq α] (d : Nat → α) (m : SMap α) (i : Nat) (v : α) (h : mapWf d m = true) :
    mapWf d (mapPut (d i) m i v) = true := by
  unfold mapPut
  split
  · exact mapDel_wf d m i h
  · next e => exact mapIns_wf d m h e

/-- Writing a run of values keeps the canonical form. -/
theorem mapPutRun_wf {α : Type} [DecidableEq α] (d : α) (l : List α) (m : SMap α) (i : Nat)
    (h : mapWf (fun _ => d) m = true) : mapWf (fun _ => d) (mapPutRun d m i l) = true := by
  induction l generalizing m i with
  | nil => exact h
  | cons v t ih => exact ih _ _ (mapPut_wf (fun _ => d) m i v h)

/-- Dropping a range of keys keeps the canonical form. -/
theorem mapDelRange_wf {α : Type} [DecidableEq α] (d : Nat → α) (m : SMap α) (lo n : Nat) (h : mapWf d m = true) :
    mapWf d (mapDelRange m lo n) = true := mapFilter_wfFrom d _ m h

end Sys2Proof.Machine
end

