-- ==== Sys2Proof/Laws/Regs.lean ====
section
/-! SUPPORT. Laws of the register file: bits of a word after a field is replaced, words and fields after a write. -/

namespace Sys2Proof.Machine

/-! ## Bits -/

theorem testBit_bitsOf (x hi lo i : Nat) : (bitsOf x hi lo).testBit i = (decide (i < hi + 1 - lo) && x.testBit (lo + i)) := by
  rw [bitsOf, Nat.testBit_mod_two_pow, Nat.testBit_div_two_pow, Nat.add_comm i lo]

theorem testBit_mask (hi lo i : Nat) (h : lo ≤ hi + 1) :
    (2 ^ (hi + 1) - 2 ^ lo).testBit i = (decide (lo ≤ i) && decide (i < hi + 1)) := by
  have e : 2 ^ (hi + 1) - 2 ^ lo = (2 ^ (hi + 1 - lo) - 1) * 2 ^ lo := by
    rw [Nat.sub_mul, ← pow_add, one_mul]; congr 2; omega
  rw [e, Nat.testBit_mul_two_pow, Nat.testBit_two_pow_sub_one]
  by_cases h1 : lo ≤ i <;> simp [h1] <;> omega

/-- A bit of a word with bits [hi:lo] replaced. -/
theorem testBit_putBits (w : W64) (hi lo v i : Nat) (h : lo ≤ hi + 1) (hi64 : hi < 64) :
    (putBits w hi lo v).toNat.testBit i = if lo ≤ i ∧ i ≤ hi then v.testBit (i - lo) else w.toNat.testBit i := by
  by_cases hi' : i < 64
  · have hw : ∀ z : W64, z.toNat.testBit i = z.getLsbD i := fun z => rfl
    rw [hw, hw, putBits]
    simp only [BitVec.getLsbD_or, BitVec.getLsbD_and, BitVec.getLsbD_not, BitVec.getLsbD_ofNat, hi', decide_true,
      Bool.true_and, testBit_mask hi lo i h, Nat.testBit_mul_two_pow, Nat.testBit_mod_two_pow]
    by_cases h1 : lo ≤ i <;> by_cases h2 : i ≤ hi
    · have h3 : i < hi + 1 := by omega
      have h4 : i - lo < hi + 1 - lo := by omega
      simp [h1, h2, h3, h4]
    · have h3 : ¬ i < hi + 1 := by omega
      have h4 : ¬ i - lo < hi + 1 - lo := by omega
      simp [h1, h2, h3, h4]
    · simp [h1]
    · simp [h1]
  · have h2 : ¬ i ≤ hi := by omega
    have hz : ∀ z : W64, z.toNat.testBit i = false := fun z =>
      Nat.testBit_lt_two_pow (lt_of_lt_of_le z.isLt (Nat.pow_le_pow_right (by omega) (by omega)))
    simp [hz, h2]

/-- The bits replaced hold the new value. -/
@[simp] theorem bitsOf_putBits_self (w : W64) (hi lo v : Nat) (h : lo ≤ hi + 1) (hi64 : hi < 64) :
    bitsOf (putBits w hi lo v).toNat hi lo = v % 2 ^ (hi + 1 - lo) := by
  apply Nat.eq_of_testBit_eq
  intro i
  rw [testBit_bitsOf, testBit_putBits w hi lo v _ h hi64, Nat.testBit_mod_two_pow]
  by_cases h1 : i < hi + 1 - lo
  · have h2 : lo + i ≤ hi := by omega
    simp [h1, h2]
  · simp [h1]

/-- Bits apart from those replaced are unchanged. -/
theorem bitsOf_putBits_apart (w : W64) (hi lo v hi' lo' : Nat) (h : lo ≤ hi + 1) (hi64 : hi < 64) (ha : hi' < lo ∨ hi < lo') :
    bitsOf (putBits w hi lo v).toNat hi' lo' = bitsOf w.toNat hi' lo' := by
  apply Nat.eq_of_testBit_eq
  intro i
  rw [testBit_bitsOf, testBit_bitsOf, testBit_putBits w hi lo v _ h hi64]
  by_cases h1 : i < hi' + 1 - lo'
  · have h2 : ¬ (lo ≤ lo' + i ∧ lo' + i ≤ hi) := by omega
    simp [h1, h2]
  · simp [h1]

/-- A bit as a field of one bit. -/
theorem bitOf_eq_bitsOf (x n : Nat) : bitOf x n = (bitsOf x n n != 0) := by
  have h : n + 1 - n = 1 := by omega
  simp only [bitOf, bitsOf, h, pow_one]
  have : x / 2 ^ n % 2 = 0 ∨ x / 2 ^ n % 2 = 1 := by omega
  rcases this with e | e <;> simp [e]

theorem bitsOf_lt (x hi lo : Nat) : bitsOf x hi lo < 2 ^ (hi + 1 - lo) := Nat.mod_lt _ (by positivity)

/-! ## Words and fields -/

/-- A word after a write at its offset. -/
@[simp] theorem State.word_setWord_self (s : State) (off : Nat) (v : W64) :
    (s.setWord off v).word off = v := by
  unfold State.word State.setWord mapPut
  by_cases e : v = resetWord off
  · simp only [e, ↓reduceIte, mapFind_mapDel_self s.regs]
  · simp only [e, ↓reduceIte, mapFind_mapIns_self]

/-- Every other word after a write. -/
theorem State.word_setWord_ne (s : State) {off off' : Nat} (v : W64) (ho : off' ≠ off) :
    (s.setWord off v).word off' = s.word off' := by
  unfold State.word State.setWord mapPut
  by_cases e : v = resetWord off
  · simp only [e, ↓reduceIte, mapFind_mapDel_ne s.regs ho]
  · simp only [e, ↓reduceIte, mapFind_mapIns_ne s.regs v ho]

/-- A write of a word keeps the canonical form of the register window. -/
theorem State.setWord_regsWf (s : State) (off : Nat) (v : W64) (h : mapWf resetWord s.regs = true) :
    mapWf resetWord (s.setWord off v).regs = true := mapPut_wf resetWord s.regs off v h

/-- A field after it is set. -/
theorem State.get_set_self (s : State) (f : Fld) (v : Nat) (hl : f.lo ≤ f.hi + 1)
    (hh : f.hi < 64) : (s.set f v).get f = v % 2 ^ fldWidth f := by
  rw [State.get, State.set, State.word_setWord_self s _ _]
  exact bitsOf_putBits_self _ _ _ _ hl hh

/-- A field of another register, or of other bits of the same, after a set. -/
theorem State.get_set_apart (s : State) (f g : Fld) (v : Nat) (hl : f.lo ≤ f.hi + 1)
    (hh : f.hi < 64) (ha : g.off ≠ f.off ∨ g.hi < f.lo ∨ f.hi < g.lo) : (s.set f v).get g = s.get g := by
  unfold State.get State.set
  by_cases ho : g.off = f.off
  · rw [ho, State.word_setWord_self s _ _]
    exact bitsOf_putBits_apart _ _ _ _ _ _ hl hh (by omega)
  · rw [State.word_setWord_ne s _ ho]

/-- A word of another register after a set. -/
theorem State.word_set_ne (s : State) (f : Fld) (v off : Nat) (ho : off ≠ f.off) :
    (s.set f v).word off = s.word off := State.word_setWord_ne s _ ho

/-- A set keeps the canonical form of the register window. -/
theorem State.set_regsWf (s : State) (f : Fld) (v : Nat) (h : mapWf resetWord s.regs = true) :
    mapWf resetWord (s.set f v).regs = true := State.setWord_regsWf s _ _ h

/-- A field's value fits its bits. -/
theorem State.get_lt (s : State) (f : Fld) : s.get f < 2 ^ fldWidth f := bitsOf_lt _ _ _

/-- A counter after it counts: it saturates at its largest value. -/
theorem State.get_bump_self (s : State) (f : Fld) (n : Nat) (hl : f.lo ≤ f.hi + 1)
    (hh : f.hi < 64) : (s.bump f n).get f = min (s.get f + n) (2 ^ fldWidth f - 1) := by
  rw [State.bump, State.get_set_self s f _ hl hh]
  exact Nat.mod_eq_of_lt (lt_of_le_of_lt (min_le_right _ _) (Nat.sub_lt (by positivity) Nat.one_pos))

/-- A field beside a counter. -/
theorem State.get_bump_apart (s : State) (f g : Fld) (n : Nat) (hl : f.lo ≤ f.hi + 1)
    (hh : f.hi < 64) (ha : g.off ≠ f.off ∨ g.hi < f.lo ∨ f.hi < g.lo) : (s.bump f n).get g = s.get g :=
  State.get_set_apart s f g _ hl hh ha

/-- A word of another register after a count. -/
theorem State.word_bump_ne (s : State) (f : Fld) (n off : Nat) (ho : off ≠ f.off) :
    (s.bump f n).word off = s.word off := State.word_setWord_ne s _ ho

/-- A count keeps the canonical form of the register window. -/
theorem State.bump_regsWf (s : State) (f : Fld) (n : Nat) (h : mapWf resetWord s.regs = true) :
    mapWf resetWord (s.bump f n).regs = true := State.setWord_regsWf s _ _ h

end Sys2Proof.Machine
end

