-- ==== Sys2Proof/Laws/State.lean ====
section
/-! SUPPORT. What each basic operation on the state leaves unchanged: one lemma per field per operation, so that no later proof
unfolds a record update. -/

namespace Sys2Proof.Machine

/-! ## The seal of a command -/

@[simp] theorem State.after_pending (s t : State) : (s.after t).pending = s.pending := rfl
@[simp] theorem State.after_regs (s t : State) : (s.after t).regs = t.regs := rfl
@[simp] theorem State.after_locked (s t : State) : (s.after t).locked = t.locked := rfl
@[simp] theorem State.after_resp (s t : State) : (s.after t).resp = t.resp := rfl
@[simp] theorem State.after_loom (s t : State) : (s.after t).loom = t.loom := rfl
@[simp] theorem State.after_weft (s t : State) : (s.after t).weft = t.weft := rfl
@[simp] theorem State.after_heddle (s t : State) : (s.after t).heddle = t.heddle := rfl
@[simp] theorem State.after_spindles (s t : State) : (s.after t).spindles = t.spindles := rfl
@[simp] theorem State.after_skein (s t : State) : (s.after t).skein = t.skein := rfl
@[simp] theorem State.after_tiers (s t : State) : (s.after t).tiers = t.tiers := rfl
@[simp] theorem State.after_exch (s t : State) : (s.after t).exch = t.exch := rfl
@[simp] theorem State.after_sec (s t : State) : (s.after t).sec = t.sec := rfl
@[simp] theorem State.after_cust (s t : State) : (s.after t).cust = t.cust := rfl
@[simp] theorem State.after_pm (s t : State) : (s.after t).pm = t.pm := rfl
@[simp] theorem State.after_fuses (s t : State) : (s.after t).fuses = s.fuses := rfl
@[simp] theorem State.after_boot (s t : State) : (s.after t).boot = t.boot := rfl
@[simp] theorem State.after_dbg (s t : State) : (s.after t).dbg = t.dbg := rfl
@[simp] theorem State.after_free (s t : State) : (s.after t).free = t.free := rfl
@[simp] theorem State.after_word (s t : State) (off : Nat) : (s.after t).word off = t.word off := rfl
@[simp] theorem State.after_get (s t : State) (f : Fld) : (s.after t).get f = t.get f := rfl
@[simp] theorem State.after_flag (s t : State) (f : Fld) : (s.after t).flag f = t.flag f := rfl
@[simp] theorem State.after_self (s : State) : s.after s = s := rfl

/-- A state that keeps queue and fuses passes the seal as it is. -/
theorem State.after_eq (s t : State) (hp : t.pending = s.pending) (hf : t.fuses = s.fuses) : s.after t = t := by
  cases t; cases s; simp_all [State.after]

/-! ## setWord -/

@[simp] theorem State.setWord_pending (s : State) (off : Nat) (v : W64) : (s.setWord off v).pending = s.pending := rfl
@[simp] theorem State.setWord_locked (s : State) (off : Nat) (v : W64) : (s.setWord off v).locked = s.locked := rfl
@[simp] theorem State.setWord_resp (s : State) (off : Nat) (v : W64) : (s.setWord off v).resp = s.resp := rfl
@[simp] theorem State.setWord_loom (s : State) (off : Nat) (v : W64) : (s.setWord off v).loom = s.loom := rfl
@[simp] theorem State.setWord_weft (s : State) (off : Nat) (v : W64) : (s.setWord off v).weft = s.weft := rfl
@[simp] theorem State.setWord_heddle (s : State) (off : Nat) (v : W64) : (s.setWord off v).heddle = s.heddle := rfl
@[simp] theorem State.setWord_spindles (s : State) (off : Nat) (v : W64) : (s.setWord off v).spindles = s.spindles := rfl
@[simp] theorem State.setWord_skein (s : State) (off : Nat) (v : W64) : (s.setWord off v).skein = s.skein := rfl
@[simp] theorem State.setWord_tiers (s : State) (off : Nat) (v : W64) : (s.setWord off v).tiers = s.tiers := rfl
@[simp] theorem State.setWord_exch (s : State) (off : Nat) (v : W64) : (s.setWord off v).exch = s.exch := rfl
@[simp] theorem State.setWord_sec (s : State) (off : Nat) (v : W64) : (s.setWord off v).sec = s.sec := rfl
@[simp] theorem State.setWord_cust (s : State) (off : Nat) (v : W64) : (s.setWord off v).cust = s.cust := rfl
@[simp] theorem State.setWord_pm (s : State) (off : Nat) (v : W64) : (s.setWord off v).pm = s.pm := rfl
@[simp] theorem State.setWord_fuses (s : State) (off : Nat) (v : W64) : (s.setWord off v).fuses = s.fuses := rfl
@[simp] theorem State.setWord_boot (s : State) (off : Nat) (v : W64) : (s.setWord off v).boot = s.boot := rfl
@[simp] theorem State.setWord_dbg (s : State) (off : Nat) (v : W64) : (s.setWord off v).dbg = s.dbg := rfl
@[simp] theorem State.setWord_free (s : State) (off : Nat) (v : W64) : (s.setWord off v).free = s.free := rfl

/-! ## set -/

@[simp] theorem State.set_pending (s : State) (f : Fld) (v : Nat) : (s.set f v).pending = s.pending := rfl
@[simp] theorem State.set_locked (s : State) (f : Fld) (v : Nat) : (s.set f v).locked = s.locked := rfl
@[simp] theorem State.set_resp (s : State) (f : Fld) (v : Nat) : (s.set f v).resp = s.resp := rfl
@[simp] theorem State.set_loom (s : State) (f : Fld) (v : Nat) : (s.set f v).loom = s.loom := rfl
@[simp] theorem State.set_weft (s : State) (f : Fld) (v : Nat) : (s.set f v).weft = s.weft := rfl
@[simp] theorem State.set_heddle (s : State) (f : Fld) (v : Nat) : (s.set f v).heddle = s.heddle := rfl
@[simp] theorem State.set_spindles (s : State) (f : Fld) (v : Nat) : (s.set f v).spindles = s.spindles := rfl
@[simp] theorem State.set_skein (s : State) (f : Fld) (v : Nat) : (s.set f v).skein = s.skein := rfl
@[simp] theorem State.set_tiers (s : State) (f : Fld) (v : Nat) : (s.set f v).tiers = s.tiers := rfl
@[simp] theorem State.set_exch (s : State) (f : Fld) (v : Nat) : (s.set f v).exch = s.exch := rfl
@[simp] theorem State.set_sec (s : State) (f : Fld) (v : Nat) : (s.set f v).sec = s.sec := rfl
@[simp] theorem State.set_cust (s : State) (f : Fld) (v : Nat) : (s.set f v).cust = s.cust := rfl
@[simp] theorem State.set_pm (s : State) (f : Fld) (v : Nat) : (s.set f v).pm = s.pm := rfl
@[simp] theorem State.set_fuses (s : State) (f : Fld) (v : Nat) : (s.set f v).fuses = s.fuses := rfl
@[simp] theorem State.set_boot (s : State) (f : Fld) (v : Nat) : (s.set f v).boot = s.boot := rfl
@[simp] theorem State.set_dbg (s : State) (f : Fld) (v : Nat) : (s.set f v).dbg = s.dbg := rfl
@[simp] theorem State.set_free (s : State) (f : Fld) (v : Nat) : (s.set f v).free = s.free := rfl

/-! ## setFlag -/

@[simp] theorem State.setFlag_pending (s : State) (f : Fld) (b : Bool) : (s.setFlag f b).pending = s.pending := rfl
@[simp] theorem State.setFlag_locked (s : State) (f : Fld) (b : Bool) : (s.setFlag f b).locked = s.locked := rfl
@[simp] theorem State.setFlag_resp (s : State) (f : Fld) (b : Bool) : (s.setFlag f b).resp = s.resp := rfl
@[simp] theorem State.setFlag_loom (s : State) (f : Fld) (b : Bool) : (s.setFlag f b).loom = s.loom := rfl
@[simp] theorem State.setFlag_weft (s : State) (f : Fld) (b : Bool) : (s.setFlag f b).weft = s.weft := rfl
@[simp] theorem State.setFlag_heddle (s : State) (f : Fld) (b : Bool) : (s.setFlag f b).heddle = s.heddle := rfl
@[simp] theorem State.setFlag_spindles (s : State) (f : Fld) (b : Bool) : (s.setFlag f b).spindles = s.spindles := rfl
@[simp] theorem State.setFlag_skein (s : State) (f : Fld) (b : Bool) : (s.setFlag f b).skein = s.skein := rfl
@[simp] theorem State.setFlag_tiers (s : State) (f : Fld) (b : Bool) : (s.setFlag f b).tiers = s.tiers := rfl
@[simp] theorem State.setFlag_exch (s : State) (f : Fld) (b : Bool) : (s.setFlag f b).exch = s.exch := rfl
@[simp] theorem State.setFlag_sec (s : State) (f : Fld) (b : Bool) : (s.setFlag f b).sec = s.sec := rfl
@[simp] theorem State.setFlag_cust (s : State) (f : Fld) (b : Bool) : (s.setFlag f b).cust = s.cust := rfl
@[simp] theorem State.setFlag_pm (s : State) (f : Fld) (b : Bool) : (s.setFlag f b).pm = s.pm := rfl
@[simp] theorem State.setFlag_fuses (s : State) (f : Fld) (b : Bool) : (s.setFlag f b).fuses = s.fuses := rfl
@[simp] theorem State.setFlag_boot (s : State) (f : Fld) (b : Bool) : (s.setFlag f b).boot = s.boot := rfl
@[simp] theorem State.setFlag_dbg (s : State) (f : Fld) (b : Bool) : (s.setFlag f b).dbg = s.dbg := rfl
@[simp] theorem State.setFlag_free (s : State) (f : Fld) (b : Bool) : (s.setFlag f b).free = s.free := rfl

/-! ## bump -/

@[simp] theorem State.bump_pending (s : State) (f : Fld) (n : Nat) : (s.bump f n).pending = s.pending := rfl
@[simp] theorem State.bump_locked (s : State) (f : Fld) (n : Nat) : (s.bump f n).locked = s.locked := rfl
@[simp] theorem State.bump_resp (s : State) (f : Fld) (n : Nat) : (s.bump f n).resp = s.resp := rfl
@[simp] theorem State.bump_loom (s : State) (f : Fld) (n : Nat) : (s.bump f n).loom = s.loom := rfl
@[simp] theorem State.bump_weft (s : State) (f : Fld) (n : Nat) : (s.bump f n).weft = s.weft := rfl
@[simp] theorem State.bump_heddle (s : State) (f : Fld) (n : Nat) : (s.bump f n).heddle = s.heddle := rfl
@[simp] theorem State.bump_spindles (s : State) (f : Fld) (n : Nat) : (s.bump f n).spindles = s.spindles := rfl
@[simp] theorem State.bump_skein (s : State) (f : Fld) (n : Nat) : (s.bump f n).skein = s.skein := rfl
@[simp] theorem State.bump_tiers (s : State) (f : Fld) (n : Nat) : (s.bump f n).tiers = s.tiers := rfl
@[simp] theorem State.bump_exch (s : State) (f : Fld) (n : Nat) : (s.bump f n).exch = s.exch := rfl
@[simp] theorem State.bump_sec (s : State) (f : Fld) (n : Nat) : (s.bump f n).sec = s.sec := rfl
@[simp] theorem State.bump_cust (s : State) (f : Fld) (n : Nat) : (s.bump f n).cust = s.cust := rfl
@[simp] theorem State.bump_pm (s : State) (f : Fld) (n : Nat) : (s.bump f n).pm = s.pm := rfl
@[simp] theorem State.bump_fuses (s : State) (f : Fld) (n : Nat) : (s.bump f n).fuses = s.fuses := rfl
@[simp] theorem State.bump_boot (s : State) (f : Fld) (n : Nat) : (s.bump f n).boot = s.boot := rfl
@[simp] theorem State.bump_dbg (s : State) (f : Fld) (n : Nat) : (s.bump f n).dbg = s.dbg := rfl
@[simp] theorem State.bump_free (s : State) (f : Fld) (n : Nat) : (s.bump f n).free = s.free := rfl

/-! ## complete -/

@[simp] theorem State.complete_pending (s : State) (go busy status : Fld) (code : Nat) : (s.complete go busy status code).pending = s.pending := rfl
@[simp] theorem State.complete_locked (s : State) (go busy status : Fld) (code : Nat) : (s.complete go busy status code).locked = s.locked := rfl
@[simp] theorem State.complete_resp (s : State) (go busy status : Fld) (code : Nat) : (s.complete go busy status code).resp = s.resp := rfl
@[simp] theorem State.complete_loom (s : State) (go busy status : Fld) (code : Nat) : (s.complete go busy status code).loom = s.loom := rfl
@[simp] theorem State.complete_weft (s : State) (go busy status : Fld) (code : Nat) : (s.complete go busy status code).weft = s.weft := rfl
@[simp] theorem State.complete_heddle (s : State) (go busy status : Fld) (code : Nat) : (s.complete go busy status code).heddle = s.heddle := rfl
@[simp] theorem State.complete_spindles (s : State) (go busy status : Fld) (code : Nat) : (s.complete go busy status code).spindles = s.spindles := rfl
@[simp] theorem State.complete_skein (s : State) (go busy status : Fld) (code : Nat) : (s.complete go busy status code).skein = s.skein := rfl
@[simp] theorem State.complete_tiers (s : State) (go busy status : Fld) (code : Nat) : (s.complete go busy status code).tiers = s.tiers := rfl
@[simp] theorem State.complete_exch (s : State) (go busy status : Fld) (code : Nat) : (s.complete go busy status code).exch = s.exch := rfl
@[simp] theorem State.complete_sec (s : State) (go busy status : Fld) (code : Nat) : (s.complete go busy status code).sec = s.sec := rfl
@[simp] theorem State.complete_cust (s : State) (go busy status : Fld) (code : Nat) : (s.complete go busy status code).cust = s.cust := rfl
@[simp] theorem State.complete_pm (s : State) (go busy status : Fld) (code : Nat) : (s.complete go busy status code).pm = s.pm := rfl
@[simp] theorem State.complete_fuses (s : State) (go busy status : Fld) (code : Nat) : (s.complete go busy status code).fuses = s.fuses := rfl
@[simp] theorem State.complete_boot (s : State) (go busy status : Fld) (code : Nat) : (s.complete go busy status code).boot = s.boot := rfl
@[simp] theorem State.complete_dbg (s : State) (go busy status : Fld) (code : Nat) : (s.complete go busy status code).dbg = s.dbg := rfl
@[simp] theorem State.complete_free (s : State) (go busy status : Fld) (code : Nat) : (s.complete go busy status code).free = s.free := rfl

/-! ## modCore -/

@[simp] theorem State.modCore_pending (s : State) (h c : Nat) (f : Core → Core) : (s.modCore h c f).pending = s.pending := rfl
@[simp] theorem State.modCore_regs (s : State) (h c : Nat) (f : Core → Core) : (s.modCore h c f).regs = s.regs := rfl
@[simp] theorem State.modCore_locked (s : State) (h c : Nat) (f : Core → Core) : (s.modCore h c f).locked = s.locked := rfl
@[simp] theorem State.modCore_resp (s : State) (h c : Nat) (f : Core → Core) : (s.modCore h c f).resp = s.resp := rfl
@[simp] theorem State.modCore_loom (s : State) (h c : Nat) (f : Core → Core) : (s.modCore h c f).loom = s.loom := rfl
@[simp] theorem State.modCore_weft (s : State) (h c : Nat) (f : Core → Core) : (s.modCore h c f).weft = s.weft := rfl
@[simp] theorem State.modCore_spindles (s : State) (h c : Nat) (f : Core → Core) : (s.modCore h c f).spindles = s.spindles := rfl
@[simp] theorem State.modCore_skein (s : State) (h c : Nat) (f : Core → Core) : (s.modCore h c f).skein = s.skein := rfl
@[simp] theorem State.modCore_tiers (s : State) (h c : Nat) (f : Core → Core) : (s.modCore h c f).tiers = s.tiers := rfl
@[simp] theorem State.modCore_exch (s : State) (h c : Nat) (f : Core → Core) : (s.modCore h c f).exch = s.exch := rfl
@[simp] theorem State.modCore_sec (s : State) (h c : Nat) (f : Core → Core) : (s.modCore h c f).sec = s.sec := rfl
@[simp] theorem State.modCore_cust (s : State) (h c : Nat) (f : Core → Core) : (s.modCore h c f).cust = s.cust := rfl
@[simp] theorem State.modCore_pm (s : State) (h c : Nat) (f : Core → Core) : (s.modCore h c f).pm = s.pm := rfl
@[simp] theorem State.modCore_fuses (s : State) (h c : Nat) (f : Core → Core) : (s.modCore h c f).fuses = s.fuses := rfl
@[simp] theorem State.modCore_boot (s : State) (h c : Nat) (f : Core → Core) : (s.modCore h c f).boot = s.boot := rfl
@[simp] theorem State.modCore_dbg (s : State) (h c : Nat) (f : Core → Core) : (s.modCore h c f).dbg = s.dbg := rfl
@[simp] theorem State.modCore_free (s : State) (h c : Nat) (f : Core → Core) : (s.modCore h c f).free = s.free := rfl
@[simp] theorem State.modCore_word (s : State) (h c : Nat) (f : Core → Core) (off : Nat) : (s.modCore h c f).word off = s.word off := rfl
@[simp] theorem State.modCore_get (s : State) (h c : Nat) (f : Core → Core) (g : Fld) : (s.modCore h c f).get g = s.get g := rfl
@[simp] theorem State.modCore_flag (s : State) (h c : Nat) (f : Core → Core) (g : Fld) : (s.modCore h c f).flag g = s.flag g := rfl

/-! ## modHarness -/

@[simp] theorem State.modHarness_pending (s : State) (h : Nat) (f : Harness → Harness) : (s.modHarness h f).pending = s.pending := rfl
@[simp] theorem State.modHarness_regs (s : State) (h : Nat) (f : Harness → Harness) : (s.modHarness h f).regs = s.regs := rfl
@[simp] theorem State.modHarness_locked (s : State) (h : Nat) (f : Harness → Harness) : (s.modHarness h f).locked = s.locked := rfl
@[simp] theorem State.modHarness_resp (s : State) (h : Nat) (f : Harness → Harness) : (s.modHarness h f).resp = s.resp := rfl
@[simp] theorem State.modHarness_loom (s : State) (h : Nat) (f : Harness → Harness) : (s.modHarness h f).loom = s.loom := rfl
@[simp] theorem State.modHarness_weft (s : State) (h : Nat) (f : Harness → Harness) : (s.modHarness h f).weft = s.weft := rfl
@[simp] theorem State.modHarness_spindles (s : State) (h : Nat) (f : Harness → Harness) : (s.modHarness h f).spindles = s.spindles := rfl
@[simp] theorem State.modHarness_skein (s : State) (h : Nat) (f : Harness → Harness) : (s.modHarness h f).skein = s.skein := rfl
@[simp] theorem State.modHarness_tiers (s : State) (h : Nat) (f : Harness → Harness) : (s.modHarness h f).tiers = s.tiers := rfl
@[simp] theorem State.modHarness_exch (s : State) (h : Nat) (f : Harness → Harness) : (s.modHarness h f).exch = s.exch := rfl
@[simp] theorem State.modHarness_sec (s : State) (h : Nat) (f : Harness → Harness) : (s.modHarness h f).sec = s.sec := rfl
@[simp] theorem State.modHarness_cust (s : State) (h : Nat) (f : Harness → Harness) : (s.modHarness h f).cust = s.cust := rfl
@[simp] theorem State.modHarness_pm (s : State) (h : Nat) (f : Harness → Harness) : (s.modHarness h f).pm = s.pm := rfl
@[simp] theorem State.modHarness_fuses (s : State) (h : Nat) (f : Harness → Harness) : (s.modHarness h f).fuses = s.fuses := rfl
@[simp] theorem State.modHarness_boot (s : State) (h : Nat) (f : Harness → Harness) : (s.modHarness h f).boot = s.boot := rfl
@[simp] theorem State.modHarness_dbg (s : State) (h : Nat) (f : Harness → Harness) : (s.modHarness h f).dbg = s.dbg := rfl
@[simp] theorem State.modHarness_free (s : State) (h : Nat) (f : Harness → Harness) : (s.modHarness h f).free = s.free := rfl
@[simp] theorem State.modHarness_word (s : State) (h : Nat) (f : Harness → Harness) (off : Nat) : (s.modHarness h f).word off = s.word off := rfl
@[simp] theorem State.modHarness_get (s : State) (h : Nat) (f : Harness → Harness) (g : Fld) : (s.modHarness h f).get g = s.get g := rfl
@[simp] theorem State.modHarness_flag (s : State) (h : Nat) (f : Harness → Harness) (g : Fld) : (s.modHarness h f).flag g = s.flag g := rfl

/-! ## modPick -/

@[simp] theorem State.modPick_pending (s : State) (id : Nat) (f : Pick → Pick) : (s.modPick id f).pending = s.pending := rfl
@[simp] theorem State.modPick_regs (s : State) (id : Nat) (f : Pick → Pick) : (s.modPick id f).regs = s.regs := rfl
@[simp] theorem State.modPick_locked (s : State) (id : Nat) (f : Pick → Pick) : (s.modPick id f).locked = s.locked := rfl
@[simp] theorem State.modPick_resp (s : State) (id : Nat) (f : Pick → Pick) : (s.modPick id f).resp = s.resp := rfl
@[simp] theorem State.modPick_loom (s : State) (id : Nat) (f : Pick → Pick) : (s.modPick id f).loom = s.loom := rfl
@[simp] theorem State.modPick_weft (s : State) (id : Nat) (f : Pick → Pick) : (s.modPick id f).weft = s.weft := rfl
@[simp] theorem State.modPick_spindles (s : State) (id : Nat) (f : Pick → Pick) : (s.modPick id f).spindles = s.spindles := rfl
@[simp] theorem State.modPick_skein (s : State) (id : Nat) (f : Pick → Pick) : (s.modPick id f).skein = s.skein := rfl
@[simp] theorem State.modPick_tiers (s : State) (id : Nat) (f : Pick → Pick) : (s.modPick id f).tiers = s.tiers := rfl
@[simp] theorem State.modPick_exch (s : State) (id : Nat) (f : Pick → Pick) : (s.modPick id f).exch = s.exch := rfl
@[simp] theorem State.modPick_sec (s : State) (id : Nat) (f : Pick → Pick) : (s.modPick id f).sec = s.sec := rfl
@[simp] theorem State.modPick_cust (s : State) (id : Nat) (f : Pick → Pick) : (s.modPick id f).cust = s.cust := rfl
@[simp] theorem State.modPick_pm (s : State) (id : Nat) (f : Pick → Pick) : (s.modPick id f).pm = s.pm := rfl
@[simp] theorem State.modPick_fuses (s : State) (id : Nat) (f : Pick → Pick) : (s.modPick id f).fuses = s.fuses := rfl
@[simp] theorem State.modPick_boot (s : State) (id : Nat) (f : Pick → Pick) : (s.modPick id f).boot = s.boot := rfl
@[simp] theorem State.modPick_dbg (s : State) (id : Nat) (f : Pick → Pick) : (s.modPick id f).dbg = s.dbg := rfl
@[simp] theorem State.modPick_free (s : State) (id : Nat) (f : Pick → Pick) : (s.modPick id f).free = s.free := rfl
@[simp] theorem State.modPick_word (s : State) (id : Nat) (f : Pick → Pick) (off : Nat) : (s.modPick id f).word off = s.word off := rfl
@[simp] theorem State.modPick_get (s : State) (id : Nat) (f : Pick → Pick) (g : Fld) : (s.modPick id f).get g = s.get g := rfl
@[simp] theorem State.modPick_flag (s : State) (id : Nat) (f : Pick → Pick) (g : Fld) : (s.modPick id f).flag g = s.flag g := rfl

/-! ## modSpindle -/

@[simp] theorem State.modSpindle_pending (s : State) (h : Nat) (f : Spindle → Spindle) : (s.modSpindle h f).pending = s.pending := rfl
@[simp] theorem State.modSpindle_regs (s : State) (h : Nat) (f : Spindle → Spindle) : (s.modSpindle h f).regs = s.regs := rfl
@[simp] theorem State.modSpindle_locked (s : State) (h : Nat) (f : Spindle → Spindle) : (s.modSpindle h f).locked = s.locked := rfl
@[simp] theorem State.modSpindle_resp (s : State) (h : Nat) (f : Spindle → Spindle) : (s.modSpindle h f).resp = s.resp := rfl
@[simp] theorem State.modSpindle_loom (s : State) (h : Nat) (f : Spindle → Spindle) : (s.modSpindle h f).loom = s.loom := rfl
@[simp] theorem State.modSpindle_weft (s : State) (h : Nat) (f : Spindle → Spindle) : (s.modSpindle h f).weft = s.weft := rfl
@[simp] theorem State.modSpindle_heddle (s : State) (h : Nat) (f : Spindle → Spindle) : (s.modSpindle h f).heddle = s.heddle := rfl
@[simp] theorem State.modSpindle_skein (s : State) (h : Nat) (f : Spindle → Spindle) : (s.modSpindle h f).skein = s.skein := rfl
@[simp] theorem State.modSpindle_tiers (s : State) (h : Nat) (f : Spindle → Spindle) : (s.modSpindle h f).tiers = s.tiers := rfl
@[simp] theorem State.modSpindle_exch (s : State) (h : Nat) (f : Spindle → Spindle) : (s.modSpindle h f).exch = s.exch := rfl
@[simp] theorem State.modSpindle_sec (s : State) (h : Nat) (f : Spindle → Spindle) : (s.modSpindle h f).sec = s.sec := rfl
@[simp] theorem State.modSpindle_cust (s : State) (h : Nat) (f : Spindle → Spindle) : (s.modSpindle h f).cust = s.cust := rfl
@[simp] theorem State.modSpindle_pm (s : State) (h : Nat) (f : Spindle → Spindle) : (s.modSpindle h f).pm = s.pm := rfl
@[simp] theorem State.modSpindle_fuses (s : State) (h : Nat) (f : Spindle → Spindle) : (s.modSpindle h f).fuses = s.fuses := rfl
@[simp] theorem State.modSpindle_boot (s : State) (h : Nat) (f : Spindle → Spindle) : (s.modSpindle h f).boot = s.boot := rfl
@[simp] theorem State.modSpindle_dbg (s : State) (h : Nat) (f : Spindle → Spindle) : (s.modSpindle h f).dbg = s.dbg := rfl
@[simp] theorem State.modSpindle_free (s : State) (h : Nat) (f : Spindle → Spindle) : (s.modSpindle h f).free = s.free := rfl
@[simp] theorem State.modSpindle_word (s : State) (h : Nat) (f : Spindle → Spindle) (off : Nat) : (s.modSpindle h f).word off = s.word off := rfl
@[simp] theorem State.modSpindle_get (s : State) (h : Nat) (f : Spindle → Spindle) (g : Fld) : (s.modSpindle h f).get g = s.get g := rfl
@[simp] theorem State.modSpindle_flag (s : State) (h : Nat) (f : Spindle → Spindle) (g : Fld) : (s.modSpindle h f).flag g = s.flag g := rfl

/-! ## modLink -/

@[simp] theorem State.modLink_pending (s : State) (h : Nat) (f : Link → Link) : (s.modLink h f).pending = s.pending := rfl
@[simp] theorem State.modLink_regs (s : State) (h : Nat) (f : Link → Link) : (s.modLink h f).regs = s.regs := rfl
@[simp] theorem State.modLink_locked (s : State) (h : Nat) (f : Link → Link) : (s.modLink h f).locked = s.locked := rfl
@[simp] theorem State.modLink_resp (s : State) (h : Nat) (f : Link → Link) : (s.modLink h f).resp = s.resp := rfl
@[simp] theorem State.modLink_loom (s : State) (h : Nat) (f : Link → Link) : (s.modLink h f).loom = s.loom := rfl
@[simp] theorem State.modLink_heddle (s : State) (h : Nat) (f : Link → Link) : (s.modLink h f).heddle = s.heddle := rfl
@[simp] theorem State.modLink_spindles (s : State) (h : Nat) (f : Link → Link) : (s.modLink h f).spindles = s.spindles := rfl
@[simp] theorem State.modLink_skein (s : State) (h : Nat) (f : Link → Link) : (s.modLink h f).skein = s.skein := rfl
@[simp] theorem State.modLink_tiers (s : State) (h : Nat) (f : Link → Link) : (s.modLink h f).tiers = s.tiers := rfl
@[simp] theorem State.modLink_exch (s : State) (h : Nat) (f : Link → Link) : (s.modLink h f).exch = s.exch := rfl
@[simp] theorem State.modLink_sec (s : State) (h : Nat) (f : Link → Link) : (s.modLink h f).sec = s.sec := rfl
@[simp] theorem State.modLink_cust (s : State) (h : Nat) (f : Link → Link) : (s.modLink h f).cust = s.cust := rfl
@[simp] theorem State.modLink_pm (s : State) (h : Nat) (f : Link → Link) : (s.modLink h f).pm = s.pm := rfl
@[simp] theorem State.modLink_fuses (s : State) (h : Nat) (f : Link → Link) : (s.modLink h f).fuses = s.fuses := rfl
@[simp] theorem State.modLink_boot (s : State) (h : Nat) (f : Link → Link) : (s.modLink h f).boot = s.boot := rfl
@[simp] theorem State.modLink_dbg (s : State) (h : Nat) (f : Link → Link) : (s.modLink h f).dbg = s.dbg := rfl
@[simp] theorem State.modLink_free (s : State) (h : Nat) (f : Link → Link) : (s.modLink h f).free = s.free := rfl
@[simp] theorem State.modLink_word (s : State) (h : Nat) (f : Link → Link) (off : Nat) : (s.modLink h f).word off = s.word off := rfl
@[simp] theorem State.modLink_get (s : State) (h : Nat) (f : Link → Link) (g : Fld) : (s.modLink h f).get g = s.get g := rfl
@[simp] theorem State.modLink_flag (s : State) (h : Nat) (f : Link → Link) (g : Fld) : (s.modLink h f).flag g = s.flag g := rfl

/-! ## modBolt -/

@[simp] theorem State.modBolt_pending (s : State) (id : Nat) (f : Bolt → Bolt) : (s.modBolt id f).pending = s.pending := rfl
@[simp] theorem State.modBolt_regs (s : State) (id : Nat) (f : Bolt → Bolt) : (s.modBolt id f).regs = s.regs := rfl
@[simp] theorem State.modBolt_locked (s : State) (id : Nat) (f : Bolt → Bolt) : (s.modBolt id f).locked = s.locked := rfl
@[simp] theorem State.modBolt_resp (s : State) (id : Nat) (f : Bolt → Bolt) : (s.modBolt id f).resp = s.resp := rfl
@[simp] theorem State.modBolt_loom (s : State) (id : Nat) (f : Bolt → Bolt) : (s.modBolt id f).loom = s.loom := rfl
@[simp] theorem State.modBolt_heddle (s : State) (id : Nat) (f : Bolt → Bolt) : (s.modBolt id f).heddle = s.heddle := rfl
@[simp] theorem State.modBolt_spindles (s : State) (id : Nat) (f : Bolt → Bolt) : (s.modBolt id f).spindles = s.spindles := rfl
@[simp] theorem State.modBolt_skein (s : State) (id : Nat) (f : Bolt → Bolt) : (s.modBolt id f).skein = s.skein := rfl
@[simp] theorem State.modBolt_tiers (s : State) (id : Nat) (f : Bolt → Bolt) : (s.modBolt id f).tiers = s.tiers := rfl
@[simp] theorem State.modBolt_exch (s : State) (id : Nat) (f : Bolt → Bolt) : (s.modBolt id f).exch = s.exch := rfl
@[simp] theorem State.modBolt_sec (s : State) (id : Nat) (f : Bolt → Bolt) : (s.modBolt id f).sec = s.sec := rfl
@[simp] theorem State.modBolt_cust (s : State) (id : Nat) (f : Bolt → Bolt) : (s.modBolt id f).cust = s.cust := rfl
@[simp] theorem State.modBolt_pm (s : State) (id : Nat) (f : Bolt → Bolt) : (s.modBolt id f).pm = s.pm := rfl
@[simp] theorem State.modBolt_fuses (s : State) (id : Nat) (f : Bolt → Bolt) : (s.modBolt id f).fuses = s.fuses := rfl
@[simp] theorem State.modBolt_boot (s : State) (id : Nat) (f : Bolt → Bolt) : (s.modBolt id f).boot = s.boot := rfl
@[simp] theorem State.modBolt_dbg (s : State) (id : Nat) (f : Bolt → Bolt) : (s.modBolt id f).dbg = s.dbg := rfl
@[simp] theorem State.modBolt_free (s : State) (id : Nat) (f : Bolt → Bolt) : (s.modBolt id f).free = s.free := rfl
@[simp] theorem State.modBolt_word (s : State) (id : Nat) (f : Bolt → Bolt) (off : Nat) : (s.modBolt id f).word off = s.word off := rfl
@[simp] theorem State.modBolt_get (s : State) (id : Nat) (f : Bolt → Bolt) (g : Fld) : (s.modBolt id f).get g = s.get g := rfl
@[simp] theorem State.modBolt_flag (s : State) (id : Nat) (f : Bolt → Bolt) (g : Fld) : (s.modBolt id f).flag g = s.flag g := rfl

/-! ## tickCycles -/

@[simp] theorem State.tickCycles_pending (s : State) (n : Nat) : (s.tickCycles n).pending = s.pending := rfl
@[simp] theorem State.tickCycles_regs (s : State) (n : Nat) : (s.tickCycles n).regs = s.regs := rfl
@[simp] theorem State.tickCycles_locked (s : State) (n : Nat) : (s.tickCycles n).locked = s.locked := rfl
@[simp] theorem State.tickCycles_resp (s : State) (n : Nat) : (s.tickCycles n).resp = s.resp := rfl
@[simp] theorem State.tickCycles_loom (s : State) (n : Nat) : (s.tickCycles n).loom = s.loom := rfl
@[simp] theorem State.tickCycles_weft (s : State) (n : Nat) : (s.tickCycles n).weft = s.weft := rfl
@[simp] theorem State.tickCycles_heddle (s : State) (n : Nat) : (s.tickCycles n).heddle = s.heddle := rfl
@[simp] theorem State.tickCycles_spindles (s : State) (n : Nat) : (s.tickCycles n).spindles = s.spindles := rfl
@[simp] theorem State.tickCycles_skein (s : State) (n : Nat) : (s.tickCycles n).skein = s.skein := rfl
@[simp] theorem State.tickCycles_tiers (s : State) (n : Nat) : (s.tickCycles n).tiers = s.tiers := rfl
@[simp] theorem State.tickCycles_exch (s : State) (n : Nat) : (s.tickCycles n).exch = s.exch := rfl
@[simp] theorem State.tickCycles_sec (s : State) (n : Nat) : (s.tickCycles n).sec = s.sec := rfl
@[simp] theorem State.tickCycles_pm (s : State) (n : Nat) : (s.tickCycles n).pm = s.pm := rfl
@[simp] theorem State.tickCycles_fuses (s : State) (n : Nat) : (s.tickCycles n).fuses = s.fuses := rfl
@[simp] theorem State.tickCycles_boot (s : State) (n : Nat) : (s.tickCycles n).boot = s.boot := rfl
@[simp] theorem State.tickCycles_dbg (s : State) (n : Nat) : (s.tickCycles n).dbg = s.dbg := rfl
@[simp] theorem State.tickCycles_free (s : State) (n : Nat) : (s.tickCycles n).free = s.free := rfl
@[simp] theorem State.tickCycles_word (s : State) (n : Nat) (off : Nat) : (s.tickCycles n).word off = s.word off := rfl
@[simp] theorem State.tickCycles_get (s : State) (n : Nat) (g : Fld) : (s.tickCycles n).get g = s.get g := rfl
@[simp] theorem State.tickCycles_flag (s : State) (n : Nat) (g : Fld) : (s.tickCycles n).flag g = s.flag g := rfl

/-! ## Record updates beside the register window -/

/-- The word of a state whose window is another state's. -/
theorem State.word_of_regs {s t : State} (h : t.regs = s.regs) (off : Nat) : t.word off = s.word off := by
  simp only [State.word, h]

/-- A field of a state whose window is another state's. -/
theorem State.get_of_regs {s t : State} (h : t.regs = s.regs) (f : Fld) : t.get f = s.get f := by
  simp only [State.get, State.word_of_regs h]

end Sys2Proof.Machine
end

