-- ==== Sys2Proof/Laws/Ops.lean ====
section
/-! SUPPORT. What the shared operations can do, each said once: the register port, commands and their completion, fault
records. -/

namespace Sys2Proof.Machine

/-! ## The register port (Table 15.8, R375, R404) -/

theorem State.atPort_closed {s : State} {off : Nat} (f : State → State) (h : s.writeGate off = .closed) :
    s.atPort off f = s := by simp [State.atPort, h]

theorem State.atPort_early {s : State} {off : Nat} (f : State → State) (h : s.writeGate off = .early) :
    s.atPort off f = { s with resp := .written, boot := { s.boot with earlyWrites := min (s.boot.earlyWrites + 1) 255 } } := by
  simp [State.atPort, h]

theorem State.atPort_error {s : State} {off : Nat} (f : State → State) (h : s.writeGate off = .error) :
    s.atPort off f = { s with resp := .error } := by simp [State.atPort, h]

theorem State.atPort_made {s : State} {off : Nat} (f : State → State) (h : s.writeGate off = .made) :
    s.atPort off f = { f s with resp := .written } := by simp [State.atPort, h]

/-! ## Operations that write registers alone -/

/-- A state that differs from another in its register window at most. -/
def onlyRegs (s t : State) : Prop := t = { s with regs := t.regs }

theorem onlyRegs_refl (s : State) : onlyRegs s s := rfl

theorem onlyRegs_trans {s t u : State} (a : onlyRegs s t) (b : onlyRegs t u) : onlyRegs s u := by
  unfold onlyRegs at *; rw [b, a]

theorem onlyRegs_setWord (s : State) (off : Nat) (v : W64) : onlyRegs s (s.setWord off v) := rfl
theorem onlyRegs_set (s : State) (f : Fld) (v : Nat) : onlyRegs s (s.set f v) := rfl
theorem onlyRegs_bump (s : State) (f : Fld) (n : Nat) : onlyRegs s (s.bump f n) := rfl
theorem onlyRegs_complete (s : State) (g b c : Fld) (n : Nat) : onlyRegs s (s.complete g b c n) := rfl

/-- Writes of a list of words, one after another, touch the window alone. -/
theorem onlyRegs_foldl {α : Type} (f : State → α → State) (hf : ∀ s a, onlyRegs s (f s a)) (l : List α) (s : State) :
    onlyRegs s (l.foldl f s) := by
  induction l generalizing s with
  | nil => rfl
  | cons a l ih => exact onlyRegs_trans (hf s a) (ih _)

/-- R341: the words of a record touch the window alone. -/
theorem onlyRegs_recordWords (l : List Nat) (ws : List W64) (q : Nat) (s : State) :
    onlyRegs s (l.foldl (fun s i => s.setWord (CU_FAULT_RING.RECORD q i).off (ws.getD i 0)) s) :=
  onlyRegs_foldl _ (fun s i => onlyRegs_setWord s _ _) l s

/-- R341: a fault record touches the window alone. -/
theorem onlyRegs_recordFault (s : State) (f : FaultInfo) : onlyRegs s (s.recordFault f) := by
  have h := onlyRegs_trans (onlyRegs_trans (onlyRegs_trans
    (onlyRegs_recordWords (List.range 4) (faultWords s (s.get CU_FAULT_PTR.SEQ_NEXT) f) (s.get CU_FAULT_PTR.SEQ_NEXT % 256) s)
    (onlyRegs_set _ CU_FAULT_PTR.SEQ_NEXT (s.get CU_FAULT_PTR.SEQ_NEXT + 1)))
    (onlyRegs_set _ CU_FAULT_PTR.HEAD (s.get CU_FAULT_PTR.HEAD + 1))) (onlyRegs_bump _ CU_FAULT_EVENTS.RECORDS 1)
  unfold State.recordFault
  dsimp only
  split
  · exact onlyRegs_trans h (onlyRegs_trans (onlyRegs_trans (onlyRegs_set _ _ _) (onlyRegs_set _ _ _)) (onlyRegs_bump _ _ _))
  · exact h

/-- R341: a fault record keeps the canonical form of the window. -/
theorem State.recordFault_regsWf (s : State) (f : FaultInfo) (h : mapWf resetWord s.regs = true) :
    mapWf resetWord (s.recordFault f).regs = true := by
  unfold State.recordFault
  have hf : ∀ (l : List Nat) (ws : List W64) (q : Nat) (u : State), mapWf resetWord u.regs = true →
      mapWf resetWord (l.foldl (fun s i => s.setWord (CU_FAULT_RING.RECORD q i).off (ws.getD i 0)) u).regs = true := by
    intro l
    induction l with
    | nil => intro _ _ u hu; exact hu
    | cons a l ih => intro ws q u hu; exact ih ws q _ (State.setWord_regsWf u _ _ hu)
  have h1 := hf (List.range 4) (faultWords s (s.get CU_FAULT_PTR.SEQ_NEXT) f) (s.get CU_FAULT_PTR.SEQ_NEXT % 256) s h
  dsimp only
  split
  · exact State.bump_regsWf _ _ _ (State.set_regsWf _ _ _ (State.set_regsWf _ _ _ (State.bump_regsWf _ _ _
      (State.set_regsWf _ _ _ (State.set_regsWf _ _ _ h1)))))
  · exact State.bump_regsWf _ _ _ (State.set_regsWf _ _ _ (State.set_regsWf _ _ _ h1))

end Sys2Proof.Machine
end

