-- ==== Sys2Proof/Laws/Ports.lean ====
section
/-! SUPPORT. Register writes by access code (R12): what `writeFields` does to the fields of a word, and that the fields of every
register of the table lie apart. -/

namespace Sys2Proof.Machine

/-! ## The table (R427) -/

/-- The fields of a word lie apart, each within 64 bits. -/
def fieldsApart : List FieldDesc → Bool
  | [] => true
  | f :: t => decide (f.lo ≤ f.hi) && decide (f.hi < 64) && t.all (fun g => decide (g.hi < f.lo) || decide (f.hi < g.lo)) &&
      fieldsApart t

/-- The tables of the blocks and of the Harness ranges. -/
def allBlocks : List (List RegWord) :=
  [regsCU, regsPM, regsBD, regsSS, regsWP, regsLS, regsSD, regsST, regsTM, regsSX, regsBC, regsRN, regsHA]

/-- Every register has its fields apart. -/
theorem allBlocks_apart : allBlocks.all (fun l => l.all (fun r => fieldsApart r.fields)) = true := by decide +kernel

theorem blockRegs_apart (l : List RegWord) (h : l ∈ allBlocks) : l.all (fun r => fieldsApart r.fields) = true :=
  List.all_eq_true.mp allBlocks_apart l h

theorem findReg_apart {off : Nat} {r : RegWord} (h : findReg off = some r) : fieldsApart r.fields = true := by
  unfold findReg at h
  split at h
  · have hm := List.mem_of_find?_eq_some h
    have hb : ∀ l : List RegWord, r ∈ l → l.all (fun r => fieldsApart r.fields) = true → fieldsApart r.fields = true :=
      fun l hr hl => List.all_eq_true.mp hl r hr
    unfold blockRegs at hm
    split at hm <;> exact hb _ hm (blockRegs_apart _ (by simp [allBlocks]))
  · exact absurd h (by simp)

theorem fieldsApart_bounds {l : List FieldDesc} (h : fieldsApart l = true) : ∀ f ∈ l, f.lo ≤ f.hi ∧ f.hi < 64 := by
  induction l with
  | nil => simp
  | cons a t ih =>
    simp only [fieldsApart, Bool.and_eq_true, decide_eq_true_eq] at h
    intro f hf
    rcases List.mem_cons.mp hf with rfl | hf
    · exact ⟨h.1.1.1, h.1.1.2⟩
    · exact ih h.2 f hf

/-! ## One field of a write -/

/-- Table 0.5: the value that a field takes when `new` is written over `old`. -/
def fieldAfter (acc : Acc) (width : Nat) (locked : Bool) (old new : Nat) : Nat :=
  match acc with
  | .rw => new
  | .w1c => old &&& (2 ^ width - 1 - new)
  | .w1s => old ||| new
  | .wl => if locked then old else new
  | .ro | .rc => old

theorem bitsOf_writeField_self (v w : W64) (lk : Nat → Bool) (f : FieldDesc) (hl : f.lo ≤ f.hi) (hh : f.hi < 64) :
    bitsOf (writeField v lk w f).toNat f.hi f.lo =
      fieldAfter f.acc (f.hi + 1 - f.lo) (lk f.lo) (bitsOf w.toNat f.hi f.lo) (bitsOf v.toNat f.hi f.lo) := by
  have h1 : f.lo ≤ f.hi + 1 := by omega
  have ho := bitsOf_lt w.toNat f.hi f.lo
  have hn := bitsOf_lt v.toNat f.hi f.lo
  unfold writeField fieldAfter
  cases f.acc <;> simp only
  · rw [bitsOf_putBits_self _ _ _ _ h1 hh, Nat.mod_eq_of_lt hn]
  · rw [bitsOf_putBits_self _ _ _ _ h1 hh, Nat.mod_eq_of_lt (lt_of_le_of_lt Nat.and_le_left ho)]
  · rw [bitsOf_putBits_self _ _ _ _ h1 hh, Nat.mod_eq_of_lt (Nat.or_lt_two_pow ho hn)]
  · split
    · rfl
    · rw [bitsOf_putBits_self _ _ _ _ h1 hh, Nat.mod_eq_of_lt hn]

theorem bitsOf_writeField_apart (v w : W64) (lk : Nat → Bool) (f : FieldDesc) (hi lo : Nat) (hl : f.lo ≤ f.hi) (hh : f.hi < 64)
    (ha : hi < f.lo ∨ f.hi < lo) : bitsOf (writeField v lk w f).toNat hi lo = bitsOf w.toNat hi lo := by
  have h1 : f.lo ≤ f.hi + 1 := by omega
  unfold writeField
  cases f.acc <;> simp only
  · exact bitsOf_putBits_apart _ _ _ _ _ _ h1 hh ha
  · exact bitsOf_putBits_apart _ _ _ _ _ _ h1 hh ha
  · exact bitsOf_putBits_apart _ _ _ _ _ _ h1 hh ha
  · split
    · rfl
    · exact bitsOf_putBits_apart _ _ _ _ _ _ h1 hh ha

theorem bitsOf_foldl_apart (v : W64) (lk : Nat → Bool) (hi lo : Nat) (l : List FieldDesc) (w : W64)
    (hb : ∀ f ∈ l, f.lo ≤ f.hi ∧ f.hi < 64) (ha : ∀ f ∈ l, hi < f.lo ∨ f.hi < lo) :
    bitsOf (l.foldl (writeField v lk) w).toNat hi lo = bitsOf w.toNat hi lo := by
  induction l generalizing w with
  | nil => rfl
  | cons a t ih =>
    rw [List.foldl_cons, ih _ (fun f hf => hb f (List.mem_cons_of_mem _ hf)) (fun f hf => ha f (List.mem_cons_of_mem _ hf))]
    exact bitsOf_writeField_apart v w lk a hi lo (hb a List.mem_cons_self).1 (hb a List.mem_cons_self).2 (ha a List.mem_cons_self)

/-- R12: each field of a word after a write, by its access code. -/
theorem bitsOf_foldl_writeField (v : W64) (lk : Nat → Bool) (l : List FieldDesc) (w : W64) (h : fieldsApart l = true) :
    ∀ f ∈ l, bitsOf (l.foldl (writeField v lk) w).toNat f.hi f.lo =
      fieldAfter f.acc (f.hi + 1 - f.lo) (lk f.lo) (bitsOf w.toNat f.hi f.lo) (bitsOf v.toNat f.hi f.lo) := by
  induction l generalizing w with
  | nil => simp
  | cons a t ih =>
    have hb := fieldsApart_bounds h
    simp only [fieldsApart, Bool.and_eq_true, decide_eq_true_eq, List.all_eq_true, Bool.or_eq_true] at h
    intro f hf
    rw [List.foldl_cons]
    rcases List.mem_cons.mp hf with rfl | hf
    · rw [bitsOf_foldl_apart v lk f.hi f.lo t _ (fun g hg => hb g (List.mem_cons_of_mem _ hg))
        (fun g hg => (h.1.2 g hg).symm)]
      exact bitsOf_writeField_self v w lk f h.1.1.1 h.1.1.2
    · rw [ih _ h.2 f hf, bitsOf_writeField_apart v w lk a f.hi f.lo h.1.1.1 h.1.1.2 (h.1.2 f hf)]

/-! ## A write of a register -/

/-- A write of a register without WL fields is a write of its word. -/
theorem State.writeFields_eq {s : State} {off : Nat} {v : W64} {r : RegWord} (h : findReg off = some r)
    (hn : r.fields.all (fun f => f.acc != .wl) = true) :
    s.writeFields off v = s.setWord off (r.fields.foldl (writeField v (fun lo => s.locked.contains (off * 64 + lo))) (s.word off)) := by
  have he : r.fields.filter (fun f => f.acc == .wl && !s.locked.contains (off * 64 + f.lo)) = [] := by
    rw [List.filter_eq_nil_iff]
    intro f hf
    have := List.all_eq_true.mp hn f hf
    simp_all
  simp only [State.writeFields, h, he, List.map_nil, List.foldl_nil]

/-- R12: a field of a register without WL fields, after a write of the register. -/
theorem State.get_writeFields {s : State} {v : W64} {r : RegWord} {f : FieldDesc} {g : Fld}
    (h : findReg g.off = some r) (hn : r.fields.all (fun f => f.acc != .wl) = true) (hf : f ∈ r.fields)
    (he : f.hi = g.hi ∧ f.lo = g.lo) :
    (s.writeFields g.off v).get g = fieldAfter f.acc (fldWidth g) false (s.get g) (bitsOf v.toNat g.hi g.lo) := by
  have hx := bitsOf_foldl_writeField v (fun lo => s.locked.contains (g.off * 64 + lo)) r.fields (s.word g.off) (findReg_apart h) f hf
  have hnl : f.acc ≠ .wl := by have := List.all_eq_true.mp hn f hf; simpa using this
  rw [State.writeFields_eq h hn, State.get, State.word_setWord_self s _ _]
  rw [he.1, he.2] at hx
  rw [hx]
  unfold State.get fldWidth fieldAfter
  cases hacc : f.acc <;> simp_all

/-- Every other word after a write of a register without WL fields. -/
theorem State.word_writeFields_ne {s : State} {off off' : Nat} {v : W64} {r : RegWord}
    (h : findReg off = some r) (hn : r.fields.all (fun f => f.acc != .wl) = true) (ho : off' ≠ off) :
    (s.writeFields off v).word off' = s.word off' := by
  rw [State.writeFields_eq h hn, State.word_setWord_ne s _ ho]

/-- The access code that the table gives a field, where its register has no WL field. -/
def plainAcc (g : Fld) : Option Acc :=
  (findReg g.off).bind (fun r => if r.fields.all (fun f => f.acc != .wl) then
    (r.fields.find? (fun f => f.hi == g.hi && f.lo == g.lo)).map (·.acc) else none)

/-- R12: a field of a register without WL fields, after a write of the register, by its access code alone. -/
theorem State.get_writeFields_acc {s : State} {v : W64} {g : Fld} {a : Acc} (h : plainAcc g = some a) :
    (s.writeFields g.off v).get g = fieldAfter a (fldWidth g) false (s.get g) (bitsOf v.toNat g.hi g.lo) := by
  unfold plainAcc at h
  rw [Option.bind_eq_some_iff] at h
  obtain ⟨r, hr, h⟩ := h
  split at h
  · next hn =>
    rw [Option.map_eq_some_iff] at h
    obtain ⟨f, hf, rfl⟩ := h
    have h1 := List.find?_some hf
    simp only [Bool.and_eq_true, beq_iff_eq] at h1
    exact State.get_writeFields hr hn (List.mem_of_find?_eq_some hf) h1
  · cases h

/-- A register without WL fields, by the table. -/
def plainReg (off : Nat) : Bool := (findReg off).any (fun r => r.fields.all (fun f => f.acc != .wl))

/-- R12: a write of a register without WL fields touches its own word alone, and nothing beside the window. -/
theorem rewrites_writeFields {s : State} {off : Nat} {v : W64} (h : plainReg off = true) : rewrites s (s.writeFields off v) [off] := by
  unfold plainReg at h
  obtain ⟨r, hr, hn⟩ := (Option.any_eq_true _ _).mp h
  rw [State.writeFields_eq hr hn]
  exact ⟨rfl, fun o ho => State.word_setWord_ne s _ (by simpa using ho)⟩

/-- A write of a register without WL fields touches the window alone. -/
theorem onlyRegs_writeFields {s : State} {off : Nat} {v : W64} {r : RegWord} (h : findReg off = some r)
    (hn : r.fields.all (fun f => f.acc != .wl) = true) : onlyRegs s (s.writeFields off v) := by
  rw [State.writeFields_eq h hn]; exact onlyRegs_setWord s _ _

/-- A write of a register keeps the canonical form of the window. -/
theorem State.writeFields_regsWf (s : State) (off : Nat) (v : W64) (h : mapWf resetWord s.regs = true) :
    mapWf resetWord (s.writeFields off v).regs = true := by
  unfold State.writeFields
  split
  · exact h
  · exact State.setWord_regsWf s _ _ h

end Sys2Proof.Machine
end

