-- ==== Sys2Proof/Laws/Faults.lean ====
section
/-! SUPPORT. What a fault record does, said once: its words in the ring, the words it leaves alone, and what it counts. -/

namespace Sys2Proof.Machine

/-- Equal words show equal fields. -/
theorem State.get_of_word {s t : State} {f : Fld} (h : s.word f.off = t.word f.off) : s.get f = t.get f := by
  unfold State.get; rw [h]

/-- A field of one bit, as a flag. -/
theorem State.flag_of_word {s t : State} {f : Fld} (h : s.word f.off = t.word f.off) : s.flag f = t.flag f := by
  unfold State.flag; rw [State.get_of_word h]

/-- R341: the words of the ring after those of an entry are written. -/
theorem State.word_recordWords (s : State) (q : Nat) (ws : List W64) (n off : Nat) :
    ((List.range n).foldl (fun s i => s.setWord (CU_FAULT_RING.RECORD q i).off (ws.getD i 0)) s).word off =
      if 0x2000 + q * 32 ≤ off ∧ off < 0x2000 + q * 32 + 8 * n ∧ off % 8 = 0 then ws.getD ((off - (0x2000 + q * 32)) / 8) 0
      else s.word off := by
  induction n with
  | zero => rw [if_neg (by omega)]; rfl
  | succ n ih =>
    have ho : (CU_FAULT_RING.RECORD q n).off = 0x2000 + q * 32 + n * 8 := rfl
    rw [List.range_succ, List.foldl_append, List.foldl_cons, List.foldl_nil, ho]
    by_cases e : off = 0x2000 + q * 32 + n * 8
    · subst e
      rw [State.word_setWord_self, if_pos (by omega)]
      congr 1; omega
    · rw [State.word_setWord_ne _ _ e, ih]
      by_cases hc : 0x2000 + q * 32 ≤ off ∧ off < 0x2000 + q * 32 + 8 * n ∧ off % 8 = 0
      · rw [if_pos hc, if_pos (by omega)]
      · rw [if_neg hc, if_neg (by omega)]

/-- R341, R342: a fault record, with the writes of its four words named `u`. -/
theorem State.recordFault_shape (s : State) (f : FaultInfo) : ∃ u : State,
    (∀ off, (∀ i < 4, off ≠ (CU_FAULT_RING.RECORD (s.get CU_FAULT_PTR.SEQ_NEXT % 256) i).off) → u.word off = s.word off) ∧
    (∀ i < 4, u.word (CU_FAULT_RING.RECORD (s.get CU_FAULT_PTR.SEQ_NEXT % 256) i).off =
      (faultWords s (s.get CU_FAULT_PTR.SEQ_NEXT) f).getD i 0) ∧ onlyRegs s u ∧
    s.recordFault f =
      let v := ((u.set CU_FAULT_PTR.SEQ_NEXT (s.get CU_FAULT_PTR.SEQ_NEXT + 1)).set CU_FAULT_PTR.HEAD
        (s.get CU_FAULT_PTR.HEAD + 1)).bump CU_FAULT_EVENTS.RECORDS
      if 256 ≤ (s.get CU_FAULT_PTR.HEAD + 512 - s.get CU_FAULT_PTR.TAIL) % 512 then
        ((v.set CU_FAULT_PTR.TAIL (s.get CU_FAULT_PTR.TAIL + 1)).set CU_STATUS.RING_WRAPPED 1).bump CU_FAULT_EVENTS.OVERWRITTEN
      else v := by
  refine ⟨_, ?_, ?_, onlyRegs_recordWords _ _ _ _, rfl⟩
  · intro off h
    rw [State.word_recordWords]
    split
    · next hc =>
      exfalso
      refine h ((off - (0x2000 + s.get CU_FAULT_PTR.SEQ_NEXT % 256 * 32)) / 8) (by omega) ?_
      have ho : ∀ q i, (CU_FAULT_RING.RECORD q i).off = 0x2000 + q * 32 + i * 8 := fun _ _ => rfl
      rw [ho]; omega
    · rfl
  · intro i hi
    have ho : ∀ q i, (CU_FAULT_RING.RECORD q i).off = 0x2000 + q * 32 + i * 8 := fun _ _ => rfl
    rw [State.word_recordWords, ho, if_pos (by omega)]
    congr 1; omega

/-- R341: words outside the ring, CU_FAULT_PTR, CU_FAULT_EVENTS and CU_STATUS stand. -/
theorem State.word_recordFault_apart (s : State) (f : FaultInfo) (off : Nat) (h : off < 0x2000 ∨ 0x4000 ≤ off)
    (h1 : off ≠ CU_FAULT_PTR.HEAD.off) (h2 : off ≠ CU_FAULT_EVENTS.RECORDS.off) (h3 : off ≠ CU_STATUS.RING_WRAPPED.off) :
    (s.recordFault f).word off = s.word off := by
  obtain ⟨u, hu, -, -, ht⟩ := State.recordFault_shape s f
  have hq : s.get CU_FAULT_PTR.SEQ_NEXT % 256 < 256 := Nat.mod_lt _ (by norm_num)
  have e := hu off (fun i hi => by
    have ho : (CU_FAULT_RING.RECORD (s.get CU_FAULT_PTR.SEQ_NEXT % 256) i).off =
      0x2000 + s.get CU_FAULT_PTR.SEQ_NEXT % 256 * 32 + i * 8 := rfl
    rw [ho]; omega)
  have n1 : ∀ v n, (State.set v CU_FAULT_PTR.SEQ_NEXT n).word off = v.word off := fun v n => State.word_set_ne v _ n off h1
  have n2 : ∀ v n, (State.set v CU_FAULT_PTR.HEAD n).word off = v.word off := fun v n => State.word_set_ne v _ n off h1
  have n3 : ∀ v n, (State.set v CU_FAULT_PTR.TAIL n).word off = v.word off := fun v n => State.word_set_ne v _ n off h1
  have n4 : ∀ v n, (State.bump v CU_FAULT_EVENTS.RECORDS n).word off = v.word off := fun v n => State.word_bump_ne v _ n off h2
  have n5 : ∀ v n, (State.bump v CU_FAULT_EVENTS.OVERWRITTEN n).word off = v.word off := fun v n => State.word_bump_ne v _ n off h2
  have n6 : ∀ v n, (State.set v CU_STATUS.RING_WRAPPED n).word off = v.word off := fun v n => State.word_set_ne v _ n off h3
  rw [ht]
  dsimp only
  split <;> simp only [n1, n2, n3, n4, n5, n6, e]

/-- R341: fields of other registers stand. -/
theorem State.get_recordFault_apart (s : State) (f : FaultInfo) (g : Fld) (h : g.off < 0x2000 ∨ 0x4000 ≤ g.off)
    (h1 : g.off ≠ CU_FAULT_PTR.HEAD.off) (h2 : g.off ≠ CU_FAULT_EVENTS.RECORDS.off) (h3 : g.off ≠ CU_STATUS.RING_WRAPPED.off) :
    (s.recordFault f).get g = s.get g := State.get_of_word (State.word_recordFault_apart s f g.off h h1 h2 h3)

/-- The first word of a record shows class and source. -/
theorem faultWord0_fields (s : State) (seq : Nat) (f : FaultInfo) (hc : f.cls < 256) (hs : f.source < 16) (ha : f.action < 16) :
    bitsOf ((faultWords s seq f).getD 0 0).toNat 31 24 = f.cls ∧ bitsOf ((faultWords s seq f).getD 0 0).toNat 23 20 = f.source := by
  have hh : f.harness % 8 < 8 := Nat.mod_lt _ (by norm_num)
  have hk : f.core % 128 < 128 := Nat.mod_lt _ (by norm_num)
  have hb : (if f.bolt.isSome then 2 ^ 4 else 0) ≤ 16 := by split <;> norm_num
  have hp : (if f.pick.isSome then 2 ^ 3 else 0) ≤ 8 := by split <;> norm_num
  simp only [faultWords, List.getD_cons_zero, BitVec.toNat_ofNat, bitsOf]
  generalize (if f.bolt.isSome then 2 ^ 4 else 0) = b at hb ⊢
  generalize (if f.pick.isSome then 2 ^ 3 else 0) = p at hp ⊢
  norm_num
  constructor <;> omega

/-- R341, Table 14.3: a fault record is one of its class and source. -/
theorem notesFault_recordFault (s : State) (f : FaultInfo) (hc : f.cls < 256) (hs : f.source < 16) (ha : f.action < 16) :
    notesFault s (s.recordFault f) f.cls f.source := by
  obtain ⟨u, hu, hw, -, ht⟩ := State.recordFault_shape s f
  have hf := faultWord0_fields s (s.get CU_FAULT_PTR.SEQ_NEXT) f hc hs ha
  have hr : ∀ g : Fld, g.off < 0x2000 → (CU_FAULT_RING.RECORD (s.get CU_FAULT_PTR.SEQ_NEXT % 256) 0).off ≠ g.off := by
    intro g hg
    have ho : (CU_FAULT_RING.RECORD (s.get CU_FAULT_PTR.SEQ_NEXT % 256) 0).off =
      0x2000 + s.get CU_FAULT_PTR.SEQ_NEXT % 256 * 32 + 0 * 8 := rfl
    rw [ho]; omega
  have h0 := hw 0 (by norm_num)
  unfold notesFault
  generalize (CU_FAULT_RING.RECORD (s.get CU_FAULT_PTR.SEQ_NEXT % 256) 0).off = o at hr h0 ⊢
  have n1 : ∀ v n, (State.set v CU_FAULT_PTR.SEQ_NEXT n).word o = v.word o := fun v n => State.word_set_ne v _ n o (hr _ (by decide))
  have n2 : ∀ v n, (State.set v CU_FAULT_PTR.HEAD n).word o = v.word o := fun v n => State.word_set_ne v _ n o (hr _ (by decide))
  have n3 : ∀ v n, (State.set v CU_FAULT_PTR.TAIL n).word o = v.word o := fun v n => State.word_set_ne v _ n o (hr _ (by decide))
  have n4 : ∀ v n, (State.bump v CU_FAULT_EVENTS.RECORDS n).word o = v.word o :=
    fun v n => State.word_bump_ne v _ n o (hr _ (by decide))
  have n5 : ∀ v n, (State.bump v CU_FAULT_EVENTS.OVERWRITTEN n).word o = v.word o :=
    fun v n => State.word_bump_ne v _ n o (hr _ (by decide))
  have n6 : ∀ v n, (State.set v CU_STATUS.RING_WRAPPED n).word o = v.word o := fun v n => State.word_set_ne v _ n o (hr _ (by decide))
  have e1 : fldWidth CU_FAULT_PTR.SEQ_NEXT = 32 := rfl
  have e2 : fldWidth CU_FAULT_PTR.HEAD = 9 := rfl
  have key : (s.recordFault f).word o = u.word o ∧
      (s.recordFault f).get CU_FAULT_PTR.SEQ_NEXT = (s.get CU_FAULT_PTR.SEQ_NEXT + 1) % 2 ^ 32 ∧
      (s.recordFault f).get CU_FAULT_PTR.HEAD = (s.get CU_FAULT_PTR.HEAD + 1) % 512 := by
    rw [ht]
    dsimp only
    split <;> refine ⟨by simp only [n1, n2, n3, n4, n5, n6], ?_, ?_⟩ <;>
      simp (disch := decide) only [State.get_set_self, State.get_set_apart, State.get_bump_apart, e1, e2] <;> norm_num
  exact ⟨key.2.1, key.2.2, by rw [key.1, h0]; exact hf.1, by rw [key.1, h0]; exact hf.2⟩

end Sys2Proof.Machine
end

