-- ==== Sys2Proof/Laws/Security.lean ====
section
/-! SUPPORT. What a lifecycle transition can do to the queue and to the fuse bank (R325, R326), through whichever port it is
written. -/

namespace Sys2Proof.Machine

theorem onlyRegs_clearRegs (s : State) (off n : Nat) : onlyRegs s (s.clearRegs off n) :=
  onlyRegs_foldl _ (fun s i => onlyRegs_setWord s (off + 8 * i) 0) (List.range n) s

theorem onlyRegs_keyDone (s : State) (code : Nat) : onlyRegs s (s.keyDone code) :=
  onlyRegs_trans (onlyRegs_complete s _ _ _ _) (onlyRegs_clearRegs _ _ _)

theorem onlyRegs_lifecycleDone (s : State) (code : Nat) : onlyRegs s (s.lifecycleDone code) := onlyRegs_complete s _ _ _ _

/-- What an operation that touches the window alone leaves of the queue and the fuses. -/
theorem onlyRegs.pending {s t : State} (h : onlyRegs s t) : t.pending = s.pending := by rw [h]
theorem onlyRegs.fuses {s t : State} (h : onlyRegs s t) : t.fuses = s.fuses := by rw [h]
theorem onlyRegs.sec {s t : State} (h : onlyRegs s t) : t.sec = s.sec := by rw [h]

@[simp] theorem State.lifecycleDone_pending (s : State) (code : Nat) : (s.lifecycleDone code).pending = s.pending := rfl
@[simp] theorem State.lifecycleDone_fuses (s : State) (code : Nat) : (s.lifecycleDone code).fuses = s.fuses := rfl

/-- R326: what the erasure of RETIRED leaves of the fuse bank. -/
@[simp] theorem State.retireErase_fuses (s : State) :
    s.retireErase.fuses = { s.fuses with kik := List.replicate 32 0xFF, kikDestroyed := true } := by
  unfold State.retireErase
  by_cases h : s.sec.erasing.isEmpty = true
  · simp only [h, ↓reduceIte]
  · simp [h, (onlyRegs_keyDone s 0).fuses]

@[simp] theorem State.retireErase_pending (s : State) : s.retireErase.pending = s.pending := by
  unfold State.retireErase
  by_cases h : s.sec.erasing.isEmpty = true
  · simp only [h, ↓reduceIte]
  · simp [h, (onlyRegs_keyDone s 0).pending]

/-- R325: a burn waits for the next reset. -/
@[simp] theorem State.burn_fuses (s : State) (target : Nat) : (s.burn target).fuses = { s.fuses with pending := target } := by
  unfold State.burn
  simp only [State.lifecycleDone_fuses, State.set_fuses, (onlyRegs_clearRegs _ _ _).fuses]

@[simp] theorem State.burn_pending (s : State) (target : Nat) : (s.burn target).pending = s.pending := by
  unfold State.burn
  simp only [State.lifecycleDone_pending, State.set_pending, (onlyRegs_clearRegs _ _ _).pending]

@[simp] theorem State.writeFields_pending (s : State) (off : Nat) (v : W64) : (s.writeFields off v).pending = s.pending := by
  unfold State.writeFields; split <;> rfl

@[simp] theorem State.writeFields_fuses (s : State) (off : Nat) (v : W64) : (s.writeFields off v).fuses = s.fuses := by
  unfold State.writeFields; split <;> rfl

/-- A write of SS_LIFECYCLE_CMD leaves the queue; it burns what GO burns, and what goes on after it burns nothing. -/
@[simp] theorem State.burnCommand_pending (s : State) (v : W64) : (s.burnCommand v).pending = s.pending := rfl
@[simp] theorem State.burnCommand_fuses (s : State) (v : W64) : (s.burnCommand v).fuses = (s.writeLifecycleCmd v).fuses := rfl

/-- A write of a register leaves the queue. -/
@[simp] theorem State.writeReg_pending (s : State) (off : Nat) (v : W64) : (s.writeReg off v).pending = s.pending := by
  unfold State.writeReg
  split
  · rfl
  · split
    · rfl
    · rfl

/-- A write of a register other than SS_LIFECYCLE_CMD leaves the fuses. -/
theorem State.writeReg_fuses (s : State) (off : Nat) (v : W64) (h : off ≠ SS_LIFECYCLE_CMD.GO.off) :
    (s.writeReg off v).fuses = s.fuses := by
  unfold State.writeReg
  split
  · rfl
  · rw [if_neg (by simpa using h)]; rfl

/-- A write through the Treadle port leaves the queue. -/
@[simp] theorem State.treadleWrite_pending (s : State) (off : Nat) (v : W64) : (s.treadleWrite off v).pending = s.pending := by
  unfold State.treadleWrite State.tapEnds
  split
  · rfl
  · split
    · rfl
    · split
      · rfl
      · split
        · rfl
        · exact State.writeReg_pending s off v

/-- A write through the Treadle port at an offset other than SS_LIFECYCLE_CMD's leaves the fuses. -/
theorem State.treadleWrite_fuses (s : State) (off : Nat) (v : W64) (h : off ≠ SS_LIFECYCLE_CMD.GO.off) :
    (s.treadleWrite off v).fuses = s.fuses := by
  unfold State.treadleWrite State.tapEnds
  split
  · rfl
  · split
    · rfl
    · split
      · rfl
      · split
        · rfl
        · exact State.writeReg_fuses s off v h

/-- A write through the register port leaves of the queue and the fuses what its effect leaves. -/
theorem State.atPort_pending (s : State) (off : Nat) (f : State → State) (h : (f s).pending = s.pending) :
    (s.atPort off f).pending = s.pending := by
  unfold State.atPort; split <;> first | rfl | exact h

theorem State.atPort_fuses (s : State) (off : Nat) (f : State → State) (h : (f s).fuses = s.fuses) :
    (s.atPort off f).fuses = s.fuses := by
  unfold State.atPort; split <;> first | rfl | exact h

end Sys2Proof.Machine
end

