-- ==== Sys2Proof/Laws/Units.lean ====
section
/-! SUPPORT. What the updates of one unit leave unchanged: one lemma per field per operation, as `Laws.State` has them for the basic
operations. -/

namespace Sys2Proof.Machine

/-! ## addWork -/

@[simp] theorem State.addWork_pending (s : State) (w : Work) : (s.addWork w).pending = s.pending := rfl
@[simp] theorem State.addWork_regs (s : State) (w : Work) : (s.addWork w).regs = s.regs := rfl
@[simp] theorem State.addWork_locked (s : State) (w : Work) : (s.addWork w).locked = s.locked := rfl
@[simp] theorem State.addWork_resp (s : State) (w : Work) : (s.addWork w).resp = s.resp := rfl
@[simp] theorem State.addWork_loom (s : State) (w : Work) : (s.addWork w).loom = s.loom := rfl
@[simp] theorem State.addWork_weft (s : State) (w : Work) : (s.addWork w).weft = s.weft := rfl
@[simp] theorem State.addWork_heddle (s : State) (w : Work) : (s.addWork w).heddle = s.heddle := rfl
@[simp] theorem State.addWork_spindles (s : State) (w : Work) : (s.addWork w).spindles = s.spindles := rfl
@[simp] theorem State.addWork_skein (s : State) (w : Work) : (s.addWork w).skein = s.skein := rfl
@[simp] theorem State.addWork_exch (s : State) (w : Work) : (s.addWork w).exch = s.exch := rfl
@[simp] theorem State.addWork_sec (s : State) (w : Work) : (s.addWork w).sec = s.sec := rfl
@[simp] theorem State.addWork_cust (s : State) (w : Work) : (s.addWork w).cust = s.cust := rfl
@[simp] theorem State.addWork_pm (s : State) (w : Work) : (s.addWork w).pm = s.pm := rfl
@[simp] theorem State.addWork_fuses (s : State) (w : Work) : (s.addWork w).fuses = s.fuses := rfl
@[simp] theorem State.addWork_boot (s : State) (w : Work) : (s.addWork w).boot = s.boot := rfl
@[simp] theorem State.addWork_dbg (s : State) (w : Work) : (s.addWork w).dbg = s.dbg := rfl
@[simp] theorem State.addWork_free (s : State) (w : Work) : (s.addWork w).free = s.free := rfl
@[simp] theorem State.addWork_word (s : State) (w : Work) (off : Nat) : (s.addWork w).word off = s.word off := rfl
@[simp] theorem State.addWork_get (s : State) (w : Work) (fld : Fld) : (s.addWork w).get fld = s.get fld := rfl
@[simp] theorem State.addWork_flag (s : State) (w : Work) (fld : Fld) : (s.addWork w).flag fld = s.flag fld := rfl

/-! ## modPage -/

@[simp] theorem State.modPage_pending (s : State) (p : Nat) (f : Page → Page) : (s.modPage p f).pending = s.pending := rfl
@[simp] theorem State.modPage_regs (s : State) (p : Nat) (f : Page → Page) : (s.modPage p f).regs = s.regs := rfl
@[simp] theorem State.modPage_locked (s : State) (p : Nat) (f : Page → Page) : (s.modPage p f).locked = s.locked := rfl
@[simp] theorem State.modPage_resp (s : State) (p : Nat) (f : Page → Page) : (s.modPage p f).resp = s.resp := rfl
@[simp] theorem State.modPage_loom (s : State) (p : Nat) (f : Page → Page) : (s.modPage p f).loom = s.loom := rfl
@[simp] theorem State.modPage_weft (s : State) (p : Nat) (f : Page → Page) : (s.modPage p f).weft = s.weft := rfl
@[simp] theorem State.modPage_heddle (s : State) (p : Nat) (f : Page → Page) : (s.modPage p f).heddle = s.heddle := rfl
@[simp] theorem State.modPage_spindles (s : State) (p : Nat) (f : Page → Page) : (s.modPage p f).spindles = s.spindles := rfl
@[simp] theorem State.modPage_skein (s : State) (p : Nat) (f : Page → Page) : (s.modPage p f).skein = s.skein := rfl
@[simp] theorem State.modPage_exch (s : State) (p : Nat) (f : Page → Page) : (s.modPage p f).exch = s.exch := rfl
@[simp] theorem State.modPage_sec (s : State) (p : Nat) (f : Page → Page) : (s.modPage p f).sec = s.sec := rfl
@[simp] theorem State.modPage_cust (s : State) (p : Nat) (f : Page → Page) : (s.modPage p f).cust = s.cust := rfl
@[simp] theorem State.modPage_pm (s : State) (p : Nat) (f : Page → Page) : (s.modPage p f).pm = s.pm := rfl
@[simp] theorem State.modPage_fuses (s : State) (p : Nat) (f : Page → Page) : (s.modPage p f).fuses = s.fuses := rfl
@[simp] theorem State.modPage_boot (s : State) (p : Nat) (f : Page → Page) : (s.modPage p f).boot = s.boot := rfl
@[simp] theorem State.modPage_dbg (s : State) (p : Nat) (f : Page → Page) : (s.modPage p f).dbg = s.dbg := rfl
@[simp] theorem State.modPage_free (s : State) (p : Nat) (f : Page → Page) : (s.modPage p f).free = s.free := rfl
@[simp] theorem State.modPage_word (s : State) (p : Nat) (f : Page → Page) (off : Nat) : (s.modPage p f).word off = s.word off := rfl
@[simp] theorem State.modPage_get (s : State) (p : Nat) (f : Page → Page) (fld : Fld) : (s.modPage p f).get fld = s.get fld := rfl
@[simp] theorem State.modPage_flag (s : State) (p : Nat) (f : Page → Page) (fld : Fld) : (s.modPage p f).flag fld = s.flag fld := rfl

/-! ## modSlice -/

@[simp] theorem State.modSlice_pending (s : State) (h : Nat) (f : SMap BFrame → SMap BFrame) : (s.modSlice h f).pending = s.pending := rfl
@[simp] theorem State.modSlice_regs (s : State) (h : Nat) (f : SMap BFrame → SMap BFrame) : (s.modSlice h f).regs = s.regs := rfl
@[simp] theorem State.modSlice_locked (s : State) (h : Nat) (f : SMap BFrame → SMap BFrame) : (s.modSlice h f).locked = s.locked := rfl
@[simp] theorem State.modSlice_resp (s : State) (h : Nat) (f : SMap BFrame → SMap BFrame) : (s.modSlice h f).resp = s.resp := rfl
@[simp] theorem State.modSlice_loom (s : State) (h : Nat) (f : SMap BFrame → SMap BFrame) : (s.modSlice h f).loom = s.loom := rfl
@[simp] theorem State.modSlice_weft (s : State) (h : Nat) (f : SMap BFrame → SMap BFrame) : (s.modSlice h f).weft = s.weft := rfl
@[simp] theorem State.modSlice_heddle (s : State) (h : Nat) (f : SMap BFrame → SMap BFrame) : (s.modSlice h f).heddle = s.heddle := rfl
@[simp] theorem State.modSlice_spindles (s : State) (h : Nat) (f : SMap BFrame → SMap BFrame) : (s.modSlice h f).spindles = s.spindles := rfl
@[simp] theorem State.modSlice_skein (s : State) (h : Nat) (f : SMap BFrame → SMap BFrame) : (s.modSlice h f).skein = s.skein := rfl
@[simp] theorem State.modSlice_exch (s : State) (h : Nat) (f : SMap BFrame → SMap BFrame) : (s.modSlice h f).exch = s.exch := rfl
@[simp] theorem State.modSlice_sec (s : State) (h : Nat) (f : SMap BFrame → SMap BFrame) : (s.modSlice h f).sec = s.sec := rfl
@[simp] theorem State.modSlice_cust (s : State) (h : Nat) (f : SMap BFrame → SMap BFrame) : (s.modSlice h f).cust = s.cust := rfl
@[simp] theorem State.modSlice_pm (s : State) (h : Nat) (f : SMap BFrame → SMap BFrame) : (s.modSlice h f).pm = s.pm := rfl
@[simp] theorem State.modSlice_fuses (s : State) (h : Nat) (f : SMap BFrame → SMap BFrame) : (s.modSlice h f).fuses = s.fuses := rfl
@[simp] theorem State.modSlice_boot (s : State) (h : Nat) (f : SMap BFrame → SMap BFrame) : (s.modSlice h f).boot = s.boot := rfl
@[simp] theorem State.modSlice_dbg (s : State) (h : Nat) (f : SMap BFrame → SMap BFrame) : (s.modSlice h f).dbg = s.dbg := rfl
@[simp] theorem State.modSlice_free (s : State) (h : Nat) (f : SMap BFrame → SMap BFrame) : (s.modSlice h f).free = s.free := rfl
@[simp] theorem State.modSlice_word (s : State) (h : Nat) (f : SMap BFrame → SMap BFrame) (off : Nat) : (s.modSlice h f).word off = s.word off := rfl
@[simp] theorem State.modSlice_get (s : State) (h : Nat) (f : SMap BFrame → SMap BFrame) (fld : Fld) : (s.modSlice h f).get fld = s.get fld := rfl
@[simp] theorem State.modSlice_flag (s : State) (h : Nat) (f : SMap BFrame → SMap BFrame) (fld : Fld) : (s.modSlice h f).flag fld = s.flag fld := rfl

/-! ## dropFill -/

@[simp] theorem State.dropFill_pending (s : State) (f : Fill) : (s.dropFill f).pending = s.pending := rfl
@[simp] theorem State.dropFill_regs (s : State) (f : Fill) : (s.dropFill f).regs = s.regs := rfl
@[simp] theorem State.dropFill_locked (s : State) (f : Fill) : (s.dropFill f).locked = s.locked := rfl
@[simp] theorem State.dropFill_resp (s : State) (f : Fill) : (s.dropFill f).resp = s.resp := rfl
@[simp] theorem State.dropFill_loom (s : State) (f : Fill) : (s.dropFill f).loom = s.loom := rfl
@[simp] theorem State.dropFill_weft (s : State) (f : Fill) : (s.dropFill f).weft = s.weft := rfl
@[simp] theorem State.dropFill_heddle (s : State) (f : Fill) : (s.dropFill f).heddle = s.heddle := rfl
@[simp] theorem State.dropFill_spindles (s : State) (f : Fill) : (s.dropFill f).spindles = s.spindles := rfl
@[simp] theorem State.dropFill_skein (s : State) (f : Fill) : (s.dropFill f).skein = s.skein := rfl
@[simp] theorem State.dropFill_exch (s : State) (f : Fill) : (s.dropFill f).exch = s.exch := rfl
@[simp] theorem State.dropFill_sec (s : State) (f : Fill) : (s.dropFill f).sec = s.sec := rfl
@[simp] theorem State.dropFill_cust (s : State) (f : Fill) : (s.dropFill f).cust = s.cust := rfl
@[simp] theorem State.dropFill_pm (s : State) (f : Fill) : (s.dropFill f).pm = s.pm := rfl
@[simp] theorem State.dropFill_fuses (s : State) (f : Fill) : (s.dropFill f).fuses = s.fuses := rfl
@[simp] theorem State.dropFill_boot (s : State) (f : Fill) : (s.dropFill f).boot = s.boot := rfl
@[simp] theorem State.dropFill_dbg (s : State) (f : Fill) : (s.dropFill f).dbg = s.dbg := rfl
@[simp] theorem State.dropFill_free (s : State) (f : Fill) : (s.dropFill f).free = s.free := rfl
@[simp] theorem State.dropFill_word (s : State) (f : Fill) (off : Nat) : (s.dropFill f).word off = s.word off := rfl
@[simp] theorem State.dropFill_get (s : State) (f : Fill) (fld : Fld) : (s.dropFill f).get fld = s.get fld := rfl
@[simp] theorem State.dropFill_flag (s : State) (f : Fill) (fld : Fld) : (s.dropFill f).flag fld = s.flag fld := rfl

/-! ## setRing -/

@[simp] theorem State.setRing_pending (s : State) (k : Nat) (r : Ring) : (s.setRing k r).pending = s.pending := rfl
@[simp] theorem State.setRing_regs (s : State) (k : Nat) (r : Ring) : (s.setRing k r).regs = s.regs := rfl
@[simp] theorem State.setRing_locked (s : State) (k : Nat) (r : Ring) : (s.setRing k r).locked = s.locked := rfl
@[simp] theorem State.setRing_resp (s : State) (k : Nat) (r : Ring) : (s.setRing k r).resp = s.resp := rfl
@[simp] theorem State.setRing_loom (s : State) (k : Nat) (r : Ring) : (s.setRing k r).loom = s.loom := rfl
@[simp] theorem State.setRing_weft (s : State) (k : Nat) (r : Ring) : (s.setRing k r).weft = s.weft := rfl
@[simp] theorem State.setRing_heddle (s : State) (k : Nat) (r : Ring) : (s.setRing k r).heddle = s.heddle := rfl
@[simp] theorem State.setRing_spindles (s : State) (k : Nat) (r : Ring) : (s.setRing k r).spindles = s.spindles := rfl
@[simp] theorem State.setRing_tiers (s : State) (k : Nat) (r : Ring) : (s.setRing k r).tiers = s.tiers := rfl
@[simp] theorem State.setRing_exch (s : State) (k : Nat) (r : Ring) : (s.setRing k r).exch = s.exch := rfl
@[simp] theorem State.setRing_sec (s : State) (k : Nat) (r : Ring) : (s.setRing k r).sec = s.sec := rfl
@[simp] theorem State.setRing_cust (s : State) (k : Nat) (r : Ring) : (s.setRing k r).cust = s.cust := rfl
@[simp] theorem State.setRing_pm (s : State) (k : Nat) (r : Ring) : (s.setRing k r).pm = s.pm := rfl
@[simp] theorem State.setRing_fuses (s : State) (k : Nat) (r : Ring) : (s.setRing k r).fuses = s.fuses := rfl
@[simp] theorem State.setRing_boot (s : State) (k : Nat) (r : Ring) : (s.setRing k r).boot = s.boot := rfl
@[simp] theorem State.setRing_dbg (s : State) (k : Nat) (r : Ring) : (s.setRing k r).dbg = s.dbg := rfl
@[simp] theorem State.setRing_free (s : State) (k : Nat) (r : Ring) : (s.setRing k r).free = s.free := rfl
@[simp] theorem State.setRing_word (s : State) (k : Nat) (r : Ring) (off : Nat) : (s.setRing k r).word off = s.word off := rfl
@[simp] theorem State.setRing_get (s : State) (k : Nat) (r : Ring) (fld : Fld) : (s.setRing k r).get fld = s.get fld := rfl
@[simp] theorem State.setRing_flag (s : State) (k : Nat) (r : Ring) (fld : Fld) : (s.setRing k r).flag fld = s.flag fld := rfl

/-! ## modLearner -/

@[simp] theorem State.modLearner_pending (s : State) (a rev : Nat) (f : Learner → Learner) : (s.modLearner a rev f).pending = s.pending := rfl
@[simp] theorem State.modLearner_regs (s : State) (a rev : Nat) (f : Learner → Learner) : (s.modLearner a rev f).regs = s.regs := rfl
@[simp] theorem State.modLearner_locked (s : State) (a rev : Nat) (f : Learner → Learner) : (s.modLearner a rev f).locked = s.locked := rfl
@[simp] theorem State.modLearner_resp (s : State) (a rev : Nat) (f : Learner → Learner) : (s.modLearner a rev f).resp = s.resp := rfl
@[simp] theorem State.modLearner_loom (s : State) (a rev : Nat) (f : Learner → Learner) : (s.modLearner a rev f).loom = s.loom := rfl
@[simp] theorem State.modLearner_weft (s : State) (a rev : Nat) (f : Learner → Learner) : (s.modLearner a rev f).weft = s.weft := rfl
@[simp] theorem State.modLearner_heddle (s : State) (a rev : Nat) (f : Learner → Learner) : (s.modLearner a rev f).heddle = s.heddle := rfl
@[simp] theorem State.modLearner_spindles (s : State) (a rev : Nat) (f : Learner → Learner) : (s.modLearner a rev f).spindles = s.spindles := rfl
@[simp] theorem State.modLearner_tiers (s : State) (a rev : Nat) (f : Learner → Learner) : (s.modLearner a rev f).tiers = s.tiers := rfl
@[simp] theorem State.modLearner_exch (s : State) (a rev : Nat) (f : Learner → Learner) : (s.modLearner a rev f).exch = s.exch := rfl
@[simp] theorem State.modLearner_sec (s : State) (a rev : Nat) (f : Learner → Learner) : (s.modLearner a rev f).sec = s.sec := rfl
@[simp] theorem State.modLearner_cust (s : State) (a rev : Nat) (f : Learner → Learner) : (s.modLearner a rev f).cust = s.cust := rfl
@[simp] theorem State.modLearner_pm (s : State) (a rev : Nat) (f : Learner → Learner) : (s.modLearner a rev f).pm = s.pm := rfl
@[simp] theorem State.modLearner_fuses (s : State) (a rev : Nat) (f : Learner → Learner) : (s.modLearner a rev f).fuses = s.fuses := rfl
@[simp] theorem State.modLearner_boot (s : State) (a rev : Nat) (f : Learner → Learner) : (s.modLearner a rev f).boot = s.boot := rfl
@[simp] theorem State.modLearner_dbg (s : State) (a rev : Nat) (f : Learner → Learner) : (s.modLearner a rev f).dbg = s.dbg := rfl
@[simp] theorem State.modLearner_free (s : State) (a rev : Nat) (f : Learner → Learner) : (s.modLearner a rev f).free = s.free := rfl
@[simp] theorem State.modLearner_word (s : State) (a rev : Nat) (f : Learner → Learner) (off : Nat) : (s.modLearner a rev f).word off = s.word off := rfl
@[simp] theorem State.modLearner_get (s : State) (a rev : Nat) (f : Learner → Learner) (fld : Fld) : (s.modLearner a rev f).get fld = s.get fld := rfl
@[simp] theorem State.modLearner_flag (s : State) (a rev : Nat) (f : Learner → Learner) (fld : Fld) : (s.modLearner a rev f).flag fld = s.flag fld := rfl

/-! ## modReshard -/

@[simp] theorem State.modReshard_pending (s : State) (f : Reshard → Reshard) : (s.modReshard f).pending = s.pending := rfl
@[simp] theorem State.modReshard_regs (s : State) (f : Reshard → Reshard) : (s.modReshard f).regs = s.regs := rfl
@[simp] theorem State.modReshard_locked (s : State) (f : Reshard → Reshard) : (s.modReshard f).locked = s.locked := rfl
@[simp] theorem State.modReshard_resp (s : State) (f : Reshard → Reshard) : (s.modReshard f).resp = s.resp := rfl
@[simp] theorem State.modReshard_loom (s : State) (f : Reshard → Reshard) : (s.modReshard f).loom = s.loom := rfl
@[simp] theorem State.modReshard_weft (s : State) (f : Reshard → Reshard) : (s.modReshard f).weft = s.weft := rfl
@[simp] theorem State.modReshard_heddle (s : State) (f : Reshard → Reshard) : (s.modReshard f).heddle = s.heddle := rfl
@[simp] theorem State.modReshard_spindles (s : State) (f : Reshard → Reshard) : (s.modReshard f).spindles = s.spindles := rfl
@[simp] theorem State.modReshard_skein (s : State) (f : Reshard → Reshard) : (s.modReshard f).skein = s.skein := rfl
@[simp] theorem State.modReshard_tiers (s : State) (f : Reshard → Reshard) : (s.modReshard f).tiers = s.tiers := rfl
@[simp] theorem State.modReshard_sec (s : State) (f : Reshard → Reshard) : (s.modReshard f).sec = s.sec := rfl
@[simp] theorem State.modReshard_cust (s : State) (f : Reshard → Reshard) : (s.modReshard f).cust = s.cust := rfl
@[simp] theorem State.modReshard_pm (s : State) (f : Reshard → Reshard) : (s.modReshard f).pm = s.pm := rfl
@[simp] theorem State.modReshard_fuses (s : State) (f : Reshard → Reshard) : (s.modReshard f).fuses = s.fuses := rfl
@[simp] theorem State.modReshard_boot (s : State) (f : Reshard → Reshard) : (s.modReshard f).boot = s.boot := rfl
@[simp] theorem State.modReshard_dbg (s : State) (f : Reshard → Reshard) : (s.modReshard f).dbg = s.dbg := rfl
@[simp] theorem State.modReshard_free (s : State) (f : Reshard → Reshard) : (s.modReshard f).free = s.free := rfl
@[simp] theorem State.modReshard_word (s : State) (f : Reshard → Reshard) (off : Nat) : (s.modReshard f).word off = s.word off := rfl
@[simp] theorem State.modReshard_get (s : State) (f : Reshard → Reshard) (fld : Fld) : (s.modReshard f).get fld = s.get fld := rfl
@[simp] theorem State.modReshard_flag (s : State) (f : Reshard → Reshard) (fld : Fld) : (s.modReshard f).flag fld = s.flag fld := rfl

/-! ## modJob -/

@[simp] theorem State.modJob_pending (s : State) (h : Nat) (k : JobKey) (f : Job → Job) : (s.modJob h k f).pending = s.pending := rfl
@[simp] theorem State.modJob_regs (s : State) (h : Nat) (k : JobKey) (f : Job → Job) : (s.modJob h k f).regs = s.regs := rfl
@[simp] theorem State.modJob_locked (s : State) (h : Nat) (k : JobKey) (f : Job → Job) : (s.modJob h k f).locked = s.locked := rfl
@[simp] theorem State.modJob_resp (s : State) (h : Nat) (k : JobKey) (f : Job → Job) : (s.modJob h k f).resp = s.resp := rfl
@[simp] theorem State.modJob_loom (s : State) (h : Nat) (k : JobKey) (f : Job → Job) : (s.modJob h k f).loom = s.loom := rfl
@[simp] theorem State.modJob_weft (s : State) (h : Nat) (k : JobKey) (f : Job → Job) : (s.modJob h k f).weft = s.weft := rfl
@[simp] theorem State.modJob_heddle (s : State) (h : Nat) (k : JobKey) (f : Job → Job) : (s.modJob h k f).heddle = s.heddle := rfl
@[simp] theorem State.modJob_skein (s : State) (h : Nat) (k : JobKey) (f : Job → Job) : (s.modJob h k f).skein = s.skein := rfl
@[simp] theorem State.modJob_tiers (s : State) (h : Nat) (k : JobKey) (f : Job → Job) : (s.modJob h k f).tiers = s.tiers := rfl
@[simp] theorem State.modJob_exch (s : State) (h : Nat) (k : JobKey) (f : Job → Job) : (s.modJob h k f).exch = s.exch := rfl
@[simp] theorem State.modJob_sec (s : State) (h : Nat) (k : JobKey) (f : Job → Job) : (s.modJob h k f).sec = s.sec := rfl
@[simp] theorem State.modJob_cust (s : State) (h : Nat) (k : JobKey) (f : Job → Job) : (s.modJob h k f).cust = s.cust := rfl
@[simp] theorem State.modJob_pm (s : State) (h : Nat) (k : JobKey) (f : Job → Job) : (s.modJob h k f).pm = s.pm := rfl
@[simp] theorem State.modJob_fuses (s : State) (h : Nat) (k : JobKey) (f : Job → Job) : (s.modJob h k f).fuses = s.fuses := rfl
@[simp] theorem State.modJob_boot (s : State) (h : Nat) (k : JobKey) (f : Job → Job) : (s.modJob h k f).boot = s.boot := rfl
@[simp] theorem State.modJob_dbg (s : State) (h : Nat) (k : JobKey) (f : Job → Job) : (s.modJob h k f).dbg = s.dbg := rfl
@[simp] theorem State.modJob_free (s : State) (h : Nat) (k : JobKey) (f : Job → Job) : (s.modJob h k f).free = s.free := rfl
@[simp] theorem State.modJob_word (s : State) (h : Nat) (k : JobKey) (f : Job → Job) (off : Nat) : (s.modJob h k f).word off = s.word off := rfl
@[simp] theorem State.modJob_get (s : State) (h : Nat) (k : JobKey) (f : Job → Job) (fld : Fld) : (s.modJob h k f).get fld = s.get fld := rfl
@[simp] theorem State.modJob_flag (s : State) (h : Nat) (k : JobKey) (f : Job → Job) (fld : Fld) : (s.modJob h k f).flag fld = s.flag fld := rfl

/-! ## addJob -/

@[simp] theorem State.addJob_pending (s : State) (h : Nat) (j : Job) : (s.addJob h j).pending = s.pending := rfl
@[simp] theorem State.addJob_regs (s : State) (h : Nat) (j : Job) : (s.addJob h j).regs = s.regs := rfl
@[simp] theorem State.addJob_locked (s : State) (h : Nat) (j : Job) : (s.addJob h j).locked = s.locked := rfl
@[simp] theorem State.addJob_resp (s : State) (h : Nat) (j : Job) : (s.addJob h j).resp = s.resp := rfl
@[simp] theorem State.addJob_loom (s : State) (h : Nat) (j : Job) : (s.addJob h j).loom = s.loom := rfl
@[simp] theorem State.addJob_weft (s : State) (h : Nat) (j : Job) : (s.addJob h j).weft = s.weft := rfl
@[simp] theorem State.addJob_heddle (s : State) (h : Nat) (j : Job) : (s.addJob h j).heddle = s.heddle := rfl
@[simp] theorem State.addJob_skein (s : State) (h : Nat) (j : Job) : (s.addJob h j).skein = s.skein := rfl
@[simp] theorem State.addJob_tiers (s : State) (h : Nat) (j : Job) : (s.addJob h j).tiers = s.tiers := rfl
@[simp] theorem State.addJob_exch (s : State) (h : Nat) (j : Job) : (s.addJob h j).exch = s.exch := rfl
@[simp] theorem State.addJob_sec (s : State) (h : Nat) (j : Job) : (s.addJob h j).sec = s.sec := rfl
@[simp] theorem State.addJob_cust (s : State) (h : Nat) (j : Job) : (s.addJob h j).cust = s.cust := rfl
@[simp] theorem State.addJob_pm (s : State) (h : Nat) (j : Job) : (s.addJob h j).pm = s.pm := rfl
@[simp] theorem State.addJob_fuses (s : State) (h : Nat) (j : Job) : (s.addJob h j).fuses = s.fuses := rfl
@[simp] theorem State.addJob_boot (s : State) (h : Nat) (j : Job) : (s.addJob h j).boot = s.boot := rfl
@[simp] theorem State.addJob_dbg (s : State) (h : Nat) (j : Job) : (s.addJob h j).dbg = s.dbg := rfl
@[simp] theorem State.addJob_free (s : State) (h : Nat) (j : Job) : (s.addJob h j).free = s.free := rfl
@[simp] theorem State.addJob_word (s : State) (h : Nat) (j : Job) (off : Nat) : (s.addJob h j).word off = s.word off := rfl
@[simp] theorem State.addJob_get (s : State) (h : Nat) (j : Job) (fld : Fld) : (s.addJob h j).get fld = s.get fld := rfl
@[simp] theorem State.addJob_flag (s : State) (h : Nat) (j : Job) (fld : Fld) : (s.addJob h j).flag fld = s.flag fld := rfl

/-! ## dropJob -/

@[simp] theorem State.dropJob_pending (s : State) (h : Nat) (k : JobKey) : (s.dropJob h k).pending = s.pending := rfl
@[simp] theorem State.dropJob_regs (s : State) (h : Nat) (k : JobKey) : (s.dropJob h k).regs = s.regs := rfl
@[simp] theorem State.dropJob_locked (s : State) (h : Nat) (k : JobKey) : (s.dropJob h k).locked = s.locked := rfl
@[simp] theorem State.dropJob_resp (s : State) (h : Nat) (k : JobKey) : (s.dropJob h k).resp = s.resp := rfl
@[simp] theorem State.dropJob_loom (s : State) (h : Nat) (k : JobKey) : (s.dropJob h k).loom = s.loom := rfl
@[simp] theorem State.dropJob_weft (s : State) (h : Nat) (k : JobKey) : (s.dropJob h k).weft = s.weft := rfl
@[simp] theorem State.dropJob_heddle (s : State) (h : Nat) (k : JobKey) : (s.dropJob h k).heddle = s.heddle := rfl
@[simp] theorem State.dropJob_skein (s : State) (h : Nat) (k : JobKey) : (s.dropJob h k).skein = s.skein := rfl
@[simp] theorem State.dropJob_tiers (s : State) (h : Nat) (k : JobKey) : (s.dropJob h k).tiers = s.tiers := rfl
@[simp] theorem State.dropJob_exch (s : State) (h : Nat) (k : JobKey) : (s.dropJob h k).exch = s.exch := rfl
@[simp] theorem State.dropJob_sec (s : State) (h : Nat) (k : JobKey) : (s.dropJob h k).sec = s.sec := rfl
@[simp] theorem State.dropJob_cust (s : State) (h : Nat) (k : JobKey) : (s.dropJob h k).cust = s.cust := rfl
@[simp] theorem State.dropJob_pm (s : State) (h : Nat) (k : JobKey) : (s.dropJob h k).pm = s.pm := rfl
@[simp] theorem State.dropJob_fuses (s : State) (h : Nat) (k : JobKey) : (s.dropJob h k).fuses = s.fuses := rfl
@[simp] theorem State.dropJob_boot (s : State) (h : Nat) (k : JobKey) : (s.dropJob h k).boot = s.boot := rfl
@[simp] theorem State.dropJob_dbg (s : State) (h : Nat) (k : JobKey) : (s.dropJob h k).dbg = s.dbg := rfl
@[simp] theorem State.dropJob_free (s : State) (h : Nat) (k : JobKey) : (s.dropJob h k).free = s.free := rfl
@[simp] theorem State.dropJob_word (s : State) (h : Nat) (k : JobKey) (off : Nat) : (s.dropJob h k).word off = s.word off := rfl
@[simp] theorem State.dropJob_get (s : State) (h : Nat) (k : JobKey) (fld : Fld) : (s.dropJob h k).get fld = s.get fld := rfl
@[simp] theorem State.dropJob_flag (s : State) (h : Nat) (k : JobKey) (fld : Fld) : (s.dropJob h k).flag fld = s.flag fld := rfl

end Sys2Proof.Machine
end

