-- ==== Sys2Proof/Laws/Work.lean ====
section
/-! SUPPORT. What work that waits can do, said once: an attempt of an operation that asks for no tile is the operation, and a state at
rest has nothing to go on with. -/

namespace Sys2Proof.Machine

/-- The marks of an attempt, where they stand as they do between attempts. -/
theorem State.marks_same {s : State} (ht : s.tiers.trying = false) (hw : s.tiers.wanted = []) (hs : s.tiers.starved = false) :
    { s with tiers := { s.tiers with trying := false, wanted := [], starved := false } } = s := by
  have e : { s.tiers with trying := false, wanted := [], starved := false } = s.tiers := by
    generalize s.tiers = x at *; cases x; simp_all
  rw [e]

/-- An attempt of an operation that does nothing changes nothing. -/
theorem State.attempt_same {s : State} {op : State → State} (ht : s.tiers.trying = false) (hw : s.tiers.wanted = [])
    (hs : s.tiers.starved = false) (h : ∀ u : State, u.skein = s.skein → op u = u) : s.attempt op = (s, true) := by
  simp only [State.attempt, ht, Bool.false_eq_true, if_false]
  rw [h { s with tiers := { s.tiers with trying := true, wanted := [], starved := false } } rfl]
  exact congrArg (·, true) (State.marks_same ht hw hs)

theorem State.retireNow_same {s : State} (h : s.skein.retiring = []) : s.retireNow = s := by
  simp [State.retireNow, h]

theorem State.replaceNow_same {s : State} (h : s.skein.replacing = none) : s.replaceNow = s := by
  simp [State.replaceNow, h]

theorem State.launchDue_same {s : State} (h : s.exch.rounds = []) : s.launchDue = s := by simp [State.launchDue, h]

theorem State.checkReshard_same {s : State} (h : s.exch.reshard = none) : s.checkReshard = s := by simp [State.checkReshard, h]

theorem State.takeDropped_same {s : State} (h : s.tiers.dropped = []) : s.takeDropped = s := by
  have e : { s.tiers with dropped := [] } = s.tiers := by
    generalize s.tiers = x at *; cases x; simp_all
  simp only [State.takeDropped, h, List.foldl_nil, e]

/-- R295: an idle exchange is not busy. -/
theorem State.exchangeBusy_idle {s : State} (h : exchangeIdle s) : s.exchangeBusy = false := by
  obtain ⟨hr, ho, hh, hd, hn, hs⟩ := id h
  simp [State.exchangeBusy, State.remoteRows, hr, ho, hh, hd, hn, hs]

/-- R249: where nothing waits, what is left of going on is the exchange's: rounds that are due, a reshard that is complete, a fabric
that is closed. -/
theorem State.carryOn_workIdle {s : State} (h : s.workIdle) : s.carryOn = if !s.powered then s else
    let t := s.launchDue.checkReshard
    if !t.exchangeOpen && t.exchangeBusy then t.closeExchange else t := by
  obtain ⟨ht, hw, hs, hk, hd, hc, hr, hp⟩ := h
  have hret : s.retireSlots = s := by
    rw [State.retireSlots, State.attempt_same ht hw hs (fun u hu => State.retireNow_same (by rw [hu, hr]))]
  have hrep : s.runReplacement = s := by
    rw [State.runReplacement, State.attempt_same ht hw hs (fun u hu => State.replaceNow_same (by rw [hu, hp]))]
  have hcmd : s.resumePageCmd = s := by simp [State.resumePageCmd, hc]
  simp only [State.carryOn, State.takeDropped_same hd, hk, State.runItems, hret, hrep, hcmd]

/-- R249: a state at rest has nothing to go on with. -/
theorem State.carryOn_atRest {s : State} (h : s.atRest) : s.carryOn = s := by
  obtain ⟨hw, he⟩ := h
  simp only [State.carryOn_workIdle hw, State.launchDue_same he.1, State.checkReshard_same he.2.2.2.2.2,
    State.exchangeBusy_idle he]
  simp

end Sys2Proof.Machine
end

