-- ==== Sys2Proof/Tests/Slice0.lean ====
section
/-! SUPPORT. Own tests: the checks of `Instr.wf` refuse what they should, witnesses of the hypotheses of every obligation (clause by
clause, at boundary values), and single steps on small states whose expected results come from the spec. -/

set_option Elab.async false

namespace Sys2Proof.Tests

open Sys2Proof.Machine

/-! ## Well-formedness -/

theorem test_wf_desc_short : (Instr.boltPart 0 [1, 2, 3, 4, 5, 6, 7] false none 0).wf = false := by decide
theorem test_wf_desc : (Instr.boltPart 7 [1, 2, 3, 4, 5, 6, 7, 8] false none 0).wf = true := by decide
theorem test_wf_payload_long (m0 m1 : W64) : (Instr.rowRecord 0 m0 m1 (List.replicate 262145 0)).wf = false := by
  rw [Instr.wf, payloadOk, List.length_replicate]; decide
theorem test_wf_cells_fall : (Instr.tileFillComplete 0 [(5, 1), (4, 1)]).wf = false := by decide
theorem test_wf_cells_twice : (Instr.tileFillComplete 0 [(5, 1), (5, 2)]).wf = false := by decide
theorem test_wf_cells_rise : (Instr.tileFillComplete 8 [(5, 1), (6, 2)]).wf = true := by decide
theorem test_wf_header : (Instr.requestMessage ⟨List.replicate 31 0, [1], List.replicate 16 0⟩).wf = false := by decide
theorem test_wf_body : (Instr.normMessage ⟨List.replicate 32 0, [], List.replicate 16 0⟩).wf = false := by decide
theorem test_wf_tag : (Instr.moveMessage ⟨List.replicate 32 0, [1], List.replicate 15 0⟩).wf = false := by decide
theorem test_wf_message : (Instr.gatherMessage ⟨List.replicate 32 0, [1], List.replicate 16 0⟩).wf = true := by decide
theorem test_wf_sensors : (Instr.sensorSample (List.replicate 15 0)).wf = false := by decide
theorem test_wf_flash : (Instr.resetRelease ⟨2 ^ 24, false, 0, false, 0, false⟩).wf = false := by decide
theorem test_wf_positions : (Instr.bootComplete [527, 528] 0 0).wf = false := by decide
theorem test_wf_read_size : (Instr.rcRead 0 3).wf = false := by decide
theorem test_wf_write_size : (Instr.registerWrite 0 16 0).wf = false := by decide

/-! ## States -/

/-- A booted engine in RUN, with every register at its reset value. -/
def up : State := { State.reset with boot := { State.reset.boot with stage := .up } }

/-- An engine in another power state. -/
def inPower (p : Power) (s : State) : State := { s with pm := { s.pm with st := p } }

/-- An engine in a stage of boot. -/
def inStage (b : Stage) : State := { State.reset with boot := { State.reset.boot with stage := b } }

/-- An angle word: phase, pass and revolution. -/
def angleOf (phase pass rev : Nat) : W64 := putBits (putBits (putBits 0 63 62 phase) 45 40 pass) 39 0 rev

/-- A revolution is current, at the angle. -/
def atAngle (w : W64) (s : State) : State :=
  ((s.set LS_STATUS.REVOLUTION_VALID 1).setWord LS_ANGLE_CURRENT.ANGLE.off w).set LS_STATUS.PHASE (anglePhase w)

def withQueue (l : List W64) (s : State) : State := { s with loom := { s.loom with queue := l } }
def withActions (l : List Waiting) (s : State) : State := { s with loom := { s.loom with actions := l } }
def withOrder (x : Waiting) (s : State) : State := { s with loom := { s.loom with mbox := some x } }

/-- The COMPUTE phase, pass 7 of revolution 5. -/
def working : State := atAngle (angleOf 1 7 5) up

/-- The UPDATE phase, with a plan base: a reshard may begin. -/
def updating : State := (atAngle (angleOf 3 0 5) up).set SX_PLAN_BASE.VALID 1

def lifecycleAt (n : Nat) (s : State) : State := { s with fuses := { s.fuses with lifecycle := n, pending := n } }

/-! ## The register port -/

theorem witness_StepRunsTheFrontCommand : { up with pending := [.rebase, .eraseAll] }.pending = .rebase :: [.eraseAll] := rfl

theorem witness_EmptyQueuePassesOneCycle : State.reset.pending = [] ∧ State.reset.pm.st ≠ .off ∧ State.reset.pm.st ≠ .hold ∧
    State.reset.boot.stage ≠ .up ∧ (inPower .off up).pm.st = .off ∧ (inPower .hold up).pm.st = .hold := by decide

theorem witness_CommandsLeaveTheQueueStanding : ∃ t, exec .treadleNop up = .next t := ⟨_, rfl⟩

theorem witness_OnlyBurnsAndResetReleaseChangeTheFuses : ∃ t, exec .sprintHoldExpiry up = .next t ∧
    (∀ target, Instr.sprintHoldExpiry ≠ .lifecycleBurn target) ∧ (∀ f, Instr.sprintHoldExpiry ≠ .resetRelease f) ∧
    (∀ size v, Instr.sprintHoldExpiry ≠ .registerWrite SS_LIFECYCLE_CMD.GO.off size v) ∧
    (∀ v, Instr.sprintHoldExpiry ≠ .treadleWrite (BitVec.ofNat 26 SS_LIFECYCLE_CMD.GO.off) v) :=
  ⟨_, rfl, by simp, by simp, by simp, by simp⟩

theorem witness_LifecycleMovesOneWayAndStaysSound : fusesSound State.reset.fuses = true ∧ fusesSound (lifecycleAt 3 up).fuses = true ∧
    ∃ t, step { up with pending := [.xtrigPulseEnd] } = .next t := ⟨by decide, by decide, _, rfl⟩

theorem witness_OddAccessesAreAnsweredWithAnError : ((4 : Nat) ≠ 8) ∧ ((4 : Nat) % 8 ≠ 0) ∧ (0x4000000 ≤ 0x4000000) ∧
    up.pm.st ≠ .off ∧ up.boot.stage ≠ .inReset := by decide

theorem witness_UnassignedOffsetsReadZeroAndIgnoreWrites : findReg 0xF00 = none ∧ findReg 0x3FFFFF8 = none ∧
    up.boot.stage = .up ∧ up.pm.st ≠ .off ∧ up.pm.st ≠ .hold := by decide +kernel

/-- A register of each access code: RW and RO (LS_CARD_COMMIT's neighbours), W1C, RC, WL (SX_NODE has a rule of its own). -/
theorem witness_WritesObeyTheAccessCodes :
    (∀ off ∈ [LS_ANGLE_WATCHDOG.LIMIT_US.off, LS_ANGLE_EVENTS.ILLEGAL.off, LS_CARD_STATUS.COMMIT_FAILED.off, SX_EPOCH.VALID.off],
      off % 8 = 0 ∧ up.writeGate off = .made ∧ off ≠ SS_LIFECYCLE_CMD.GO.off ∧ (up.writeSpecial off 5).isNone = true ∧
      (findReg off).isSome = true) ∧
    (∀ a ∈ [Acc.rw, .ro, .rc, .w1c, .wl],
      [LS_ANGLE_WATCHDOG.LIMIT_US.off, LS_ANGLE_EVENTS.ILLEGAL.off, LS_CARD_STATUS.COMMIT_FAILED.off, SX_EPOCH.VALID.off,
        WP_CPL_PENDING.COUNT.off, LS_STATUS.PHASE.off].any
        (fun off => (findReg off).elim false (fun r => r.fields.any (·.acc == a))) = true) := by decide +kernel

theorem witness_ReadsClearOnlyReadClearFields : LS_ANGLE_EVENTS.ILLEGAL.off % 8 = 0 ∧ up.boot.stage = .up ∧ up.pm.st ≠ .off ∧
    LS_ANGLE_EVENTS.ILLEGAL.off ≠ WP_CPL_PENDING.COUNT.off ∧ (findReg LS_ANGLE_EVENTS.ILLEGAL.off).isSome = true ∧
    (inPower .hold up).pm.st = .hold ∧ answersInHold PM_EVENTS.HOLD_ENTRIES.off = true ∧
    (findReg PM_EVENTS.HOLD_ENTRIES.off).isSome = true := by decide +kernel

theorem witness_RegisterCommandsMeetThePortsGate : portOffset .rebase = some LS_CTRL.REBASE.off ∧
    portOffset .eraseAll = some SS_KEY_CMD.GO.off ∧ (inPower .off up).pm.st = .off ∧ State.reset.boot.stage = .inReset ∧
    (inStage .bootRead).boot.stage = .bootRead ∧ ¬ (0xC00000 ≤ LS_CTRL.REBASE.off ∧ LS_CTRL.REBASE.off < 0x1000000) ∧
    (inStage .bootTest).pm.st ≠ .off ∧ (inPower .hold up).pm.st = .hold ∧ (inPower .hold up).boot.stage = .up ∧
    answersInHold LS_CTRL.REBASE.off = false := by decide +kernel

theorem witness_CommandsWrittenWhileBusyAreIgnored :
    ∀ p ∈ [(Instr.dirRead 3, ST_DESC_CMD.GO, ST_DESC_CMD.BUSY), (.clearRow 1 2, ST_REPLACE_CMD.GO, ST_REPLACE_CMD.BUSY),
        (.flush 1, TM_PAGE_CMD.GO, TM_PAGE_CMD.BUSY), (.eraseAll, SS_KEY_CMD.GO, SS_KEY_CMD.BUSY),
        (.lifecycleBurn 2, SS_LIFECYCLE_CMD.GO, SS_LIFECYCLE_CMD.BUSY), (.unlockGo, SS_UNLOCK_CMD.GO, SS_UNLOCK_CMD.BUSY),
        (.retireHarness 1, CU_SERVICE_CMD.GO, CU_SERVICE_CMD.BUSY), (.powerHold none, PM_POWER_CMD.GO, PM_POWER_CMD.BUSY),
        (.program, BD_FLASH_CMD.GO, BD_FLASH_CMD.BUSY)],
      commandWord p.1 = some (p.2.1, p.2.2) ∧ (up.set p.2.2 1).writeGate p.2.1.off = .made ∧ (up.set p.2.2 1).flag p.2.2 = true := by
  decide +kernel

/-! ## Loom Sequencer -/

theorem witness_AngleWordsEnterTheQueue : up.engineReady = true ∧ up.pm.st ≠ .hold ∧ (withQueue [1, 2, 3] up).loom.queue.length < 4 ∧
    4 ≤ (withQueue [1, 2, 3, 4] up).loom.queue.length ∧ (inStage .bootTest).engineReady = false ∧ (inStage .bootTest).pm.st ≠ .off ∧
    (inStage .bootTest).pm.st ≠ .hold ∧ (inStage .bootTest).boot.stage ≠ .inReset := by decide +kernel

/-- Nothing waits in a state whose tiers and tables wait for nothing, and whose exchange is as after reset. -/
theorem rests {s : State} (h : (s.tiers.trying, s.tiers.wanted, s.tiers.starved, s.tiers.work, s.tiers.dropped, s.tiers.cmd,
    s.skein.retiring, s.skein.replacing) = (false, [], false, [], [], none, [], none)) (he : s.exch = State.reset.exch) : s.atRest := by
  simp only [Prod.mk.injEq] at h
  exact ⟨h, by rw [exchangeIdle, he]; decide⟩

theorem witness_atRest : State.reset.atRest ∧ up.atRest ∧ working.atRest ∧ updating.atRest ∧
    (withQueue [angleOf 1 8 5] working).atRest ∧ (up.set LS_STATUS.IN_BOUNDARY 1).atRest :=
  ⟨rests rfl rfl, rests rfl rfl, rests rfl rfl, rests rfl rfl, rests rfl rfl, rests rfl rfl⟩

/-- Every class of Table 2.4 occurs, on a word presented to the pass phase and to the IDLE phase. -/
theorem witness_WordsAreClassedAndTheRejectedChangeNothing :
    working.serving = true ∧ working.loom.actions = [] ∧ working.flag BD_DBG_CTRL.FREEZE_ANGLE = false ∧
    working.classOf (angleOf 0 63 5) = .illegal ∧ working.classOf (angleOf 1 7 6) = .opening ∧ up.classOf (angleOf 1 7 0) = .opening ∧
    working.classOf (angleOf 1 7 4) = .backward ∧ working.classOf (angleOf 3 0 5) = .illegal ∧
    working.classOf (angleOf 1 8 5) = .advance ∧ working.classOf (angleOf 1 7 5) = .again ∧
    working.classOf (angleOf 1 6 5) = .backward ∧ (atAngle (angleOf 0 0 5) up).classOf (angleOf 0 0 5) = .again := by decide +kernel

theorem witness_AdvanceWordBecomesCurrent : let s := withQueue [angleOf 1 8 5] (working.set LS_CTRL.CARDS_ENABLE 0)
    s.serving = true ∧ s.loom.actions = [] ∧ s.flag BD_DBG_CTRL.FREEZE_ANGLE = false ∧ s.loom.queue = angleOf 1 8 5 :: [] ∧
    s.classOf (angleOf 1 8 5) = .advance ∧ s.phase = 1 ∧ s.weft.bolts = [] ∧
    s.flag LS_CTRL.CARDS_ENABLE = false ∧ (∀ i < 16, s.flag (BD_DBG_BP.ENABLE i) = false) := by decide +kernel

theorem witness_AngleWatchdogExpiryIsRecorded : let s := working.set LS_ANGLE_WATCHDOG.LIMIT_US 1
    s.serving = true ∧ s.revValid = true ∧ s.phase ≠ 0 ∧ s.get LS_ANGLE_WATCHDOG.LIMIT_US ≠ 0 ∧ s.engineHalted = false ∧
    s.flag LS_STATUS.ANGLE_STALL = false ∧ up.phase = 0 ∧ (working.set LS_ANGLE_WATCHDOG.LIMIT_US 0).get LS_ANGLE_WATCHDOG.LIMIT_US = 0 ∧
    { s with dbg := { s.dbg with halts := [⟨0, 0, 0⟩] } }.engineHalted = true := by decide +kernel

theorem witness_BoundaryEndsAndRebaseActsInIdle : let s := up.set LS_STATUS.IN_BOUNDARY 1
    s.powered = true ∧ s.inBoundary = true ∧
    up.writeGate LS_CTRL.REBASE.off = .made ∧ up.phase = 0 ∧ working.writeGate LS_CTRL.REBASE.off = .made ∧ working.phase ≠ 0 := by
  decide +kernel

/-- A shadow bank with an enabled card at index `i`. -/
def carded (i : Nat) (hi lo : W64) : State :=
  (up.setWord (shadowBank + 16 * i) lo).setWord (shadowBank + 16 * i + 8) hi

theorem witness_CardCommitValidatesTheShadowBank : up.writeGate LS_CARD_COMMIT.COMMIT.off = .made ∧
    { up with loom := { up.loom with commitValid := true } }.loom.commitValid = true ∧ up.loom.commitValid = false ∧
    (∀ c ∈ up.cards shadowBank, cardReason c.2 = 0) := by decide +kernel

theorem witness_cardCommit_fails :
    (((carded 8191 0xA000000000000000 0).cards shadowBank).find? (fun c => cardReason c.2 != 0)).isSome = true := by decide +kernel

/-- A waiting order of each action, with a target and an argument that are admitted in the state `updating`. -/
def orders : List Waiting :=
  [⟨8191, 0, 66, 99⟩, ⟨0, 1, 7, 1⟩, ⟨0, 2, 7, 0⟩, ⟨0, 3, 4, 0x8000000000000000⟩, ⟨0, 4, 3, 0⟩, ⟨0, 5, 0, 1234⟩, ⟨0, 6, 5, 1⟩,
   ⟨0, 7, 0, 0⟩, ⟨0, 8, 9, 0⟩]

theorem witness_CardActionsTakeEffectInOrder : updating.flag SX_PLAN_BASE.VALID = true ∧ updating.flag TM_SET_BASE.VALID = false ∧
    (∀ x ∈ orders, let s := withActions [x] updating
      s.serving = true ∧ s.loom.actions = x :: [] ∧ s.orderAdmitted x false = true) ∧
    (let s := withActions [⟨0, 4, 3, 0⟩] (atAngle (angleOf 3 0 5) up)
     s.flag SX_PLAN_BASE.VALID = false ∧ s.orderAdmitted ⟨0, 4, 3, 0⟩ false = true) := by decide +kernel

theorem witness_orders_atRest (x : Waiting) : (withActions [x] updating).atRest ∧ (withOrder x updating).atRest ∧
    (withActions [x] (atAngle (angleOf 3 0 5) up)).atRest ∧ (withActions [x] up).atRest :=
  ⟨rests rfl rfl, rests rfl rfl, rests rfl rfl, rests rfl rfl⟩

theorem witness_MailboxOrdersTakeEffect : ∀ x ∈ orders, x.action = 0 ∨ (let s := withOrder x updating
    s.serving = true ∧ s.loom.mbox = some x ∧ s.orderAdmitted x true = true) := by decide +kernel

theorem witness_mailbox_nop : updating.orderAdmitted ⟨0, 0, 66, 0⟩ true = true ∨ updating.orderAdmitted ⟨0, 0, 0, 0⟩ true = true := by
  decide +kernel

theorem witness_RefusedOrdersTakeNoEffect :
    (∀ a ∈ [1, 2, 5, 6, 7, 8], (withActions [⟨3, a, 70000, 0⟩] up).orderAdmitted ⟨3, a, 70000, 0⟩ false = false) ∧
    working.orderAdmitted ⟨0, 4, 3, 0⟩ true = false ∧
    (∀ x ∈ orders, contradicts x.action = true → x.action ≠ 6 → updating.orderAdmitted x false = true) ∧
    contradicts 1 = true ∧ defeatedBy 4 (some .mbox) = some .mbox ∧ defeatedBy 3 (some .pm) = some .pm ∧
    updating.serving = true := by decide +kernel

/-! ## Weft port -/

/-- A descriptor (Table 3.3): BOLT_ID, rows, parts, rows of the part, first row of the part, format code. -/
def descOf (id rows parts prow first fmt : Nat) : List W64 :=
  [BitVec.ofNat 64 (id + rows * 2 ^ 32 + fmt * 2 ^ 56), angleOf 1 0 3, BitVec.ofNat 64 (64 * 2 ^ 16 + 1), 64, 0, 0,
    BitVec.ofNat 64 (parts * 2 ^ 42 + prow * 2 ^ 21 + first), 0]

/-- Bolt 5: rows 2 and 3 of its four are due on link 3. -/
def bolt5 : Bolt := { id := 5, desc := descOf 5 4 2 2 2 0, parts := [{ link := 3, first := 2, count := 2 }] }

def withBolt (b : Bolt) (s : State) : State := { s with weft := { s.weft with bolts := [b] } }

def onLink (l : Nat) (f : Link → Link) (s : State) : State := s.modLink l f

/-- Bolt 5 is known, and link 3 expects two records of it. -/
def expecting : State := onLink 3 (fun x => { x with cursor := some (5, 2), size := 80, inPos := 64 }) (withBolt bolt5 up)

theorem witness_NewBoltEntersTheTable : up.serving = true ∧ (up.link 3).up = true ∧ (up.link 3).desync = false ∧
    (up.link 3).cursor = none ∧ (up.link 3).inGone = false ∧ up.bolt? (dBoltId (descOf 5 4 2 2 2 6)) = none ∧ dInFmt (descOf 5 4 2 2 2 6) ≤ 6 ∧
    dOrderAction (descOf 5 4 2 2 2 6) = 0 ∧ dPartRows (descOf 5 4 2 2 2 6) = 2 ∧ dPartRows (descOf 5 0 1 0 0 0) = 0 := by
  decide +kernel

theorem witness_RowRecordIsKept : expecting.serving = true ∧ (expecting.link 3).up = true ∧ (expecting.link 3).desync = false ∧
    (expecting.link 3).cursor = some (5, 2) ∧ (expecting.link 3).inGone = false ∧ expecting.weft.bolts.filter (·.id == 5) = [bolt5] ∧ bolt5.refused = none ∧ bolt5.stopped = false ∧
    bolt5.internal = false ∧ bolt5.st = .running ∧
    (bolt5.parts.find? (fun p => p.link == 3 && decide (p.got < p.count))).isSome = true ∧
    expecting.occupancy 3 + (expecting.link 3).size ≤ replayBytes ∧
    (∀ h < 8, expecting.occupancy h + (if h = 3 then recordBytes bolt5.desc else 0) ≤
      expecting.get WP_REPLAY_CTRL.HIGH_WATER * 65536) := by decide +kernel

theorem witness_LostLinksPassBeatsOver : expecting.serving = true ∧ expecting.pm.st ≠ .idle ∧
    ((onLink 7 (fun x => { x with up := false }) up).link 7).up = false ∧
    ((onLink 0 (fun x => { x with desync := true }) up).link 0).desync = true ∧ (expecting.link 3).up = true ∧
    (expecting.link 3).desync = false ∧ (expecting.link 3).cursor ≠ none := by decide +kernel

theorem witness_LinkFramingRecovers : up.powered = true ∧ ((onLink 7 (fun x => { x with up := false }) up).link 7).up = false ∧
    (up.link 0).up = true ∧ (up.link 0).crcFails < 15 ∧
    (let s := onLink 0 (fun x => { x with crcFails := 15 }) { up with cust := { up.cust with harnessRetired := 1 } }
     15 ≤ (s.link 0).crcFails ∧ s.inService 0 = false ∧ s.weft.bolts = [] ∧ 0 < s.weft.links.length ∧ (s.link 0).up = true) := by
  decide +kernel

theorem witness_EgressRecordsLeaveInOrder :
    let s := onLink 2 (fun x => { x with egress := [⟨5, 2, 0, [1, 2]⟩, ⟨5, 3, 0, [3]⟩] }) up
    s.serving = true ∧ (s.link 2).egress = ⟨5, 2, 0, [1, 2]⟩ :: [⟨5, 3, 0, [3]⟩] := by decide +kernel

/-- A refused bolt may complete at once; an emitted one waits for the host. -/
theorem witness_CompletionsGoOutAndAreCounted :
    (let b := { bolt5 with refused := some 0x61, parts := [] }
     let s := withBolt b up
     s.powered = true ∧ s.named 5 (fun b => s.mayComplete b || s.mayAnswer b) = some b ∧ b.remote = none) ∧
    (let s := withBolt { bolt5 with st := .emitted } up
     s.powered = true ∧ s.bolt? 5 = some { bolt5 with st := .emitted }) ∧
    (let s := (up.set WP_CPL_PENDING.COUNT 1).set WP_IRQ_CTRL.ENABLE 1
     s.get WP_CPL_PENDING.COUNT ≠ 0 ∧ s.flag WP_IRQ_CTRL.ENABLE = true ∧ s.serving = true) := by decide +kernel

/-! ## Shuttle and cores -/

def onCore (h c : Nat) (f : Core → Core) (s : State) : State := s.modCore h c f

/-- A pick of one segment in Harness 7, core 65. -/
def pick1 : Pick :=
  { id := 1, bolt := 5, kind := .w, statFmt := .int8, streamFmt := .int8, proj := 0, adapter := 1, h := 7, c := 65, segs := [(0, 0)],
    gang := 1, rank := 16, rows := [0], kLen := 64, kTiles := 1, n := 16, outTiles := 1, version := 0, purpose := .hidden }

def withPick (p : Pick) (s : State) : State := { s with heddle := { s.heddle with picks := [p] } }

theorem witness_PicksEnterTheQueueOfTheirCore :
    (let s := withPick pick1 up
     s.serving = true ∧ s.heddle.picks.find? (fun p => p.h == 7 && p.c == 65 && !p.queued) = some pick1 ∧
     (s.core 7 65).queue.length < 16 ∧
     16 ≤ ((onCore 7 65 (fun k => { k with queue := List.range 16 }) s).core 7 65).queue.length) ∧
    up.heddle.picks.find? (fun p => p.h == 7 && p.c == 65 && !p.queued) = none := by decide +kernel

def row2 : Row := { index := 2, link := 3, meta0 := 0, meta1 := 0, payload := List.replicate 64 0 }

def copyDue : State :=
  (withBolt { bolt5 with rows := [row2] } up).modHarness 7 (fun x => { x with reqs := [⟨5, 2⟩] })

theorem witness_RowStageTakesTheOldestCopyDue : copyDue.serving = true ∧ (copyDue.harness 7).reqs = ⟨5, 2⟩ :: [] ∧
    copyDue.row? 5 2 = some row2 ∧ row2.held = true ∧ row2.spoiled = false ∧
    (copyDue.harness 7).stageUsed + row2.payload.length ≤ 2097152 ∧ copyDue.row? 5 3 = none := by decide +kernel

/-- An entry as long as the whole stage of 2 MiB. -/
def fullStage : StageEntry := { bolt := 5, row := 3, kind := .row, bytes := List.replicate 2097152 0 }

theorem witness_rowStage_full :
    2097152 < ((copyDue.modHarness 7 (fun x => { x with stage := [fullStage] })).harness 7).stageUsed + row2.payload.length := by
  have h : ∀ e, ((copyDue.modHarness 7 (fun x => { x with stage := [e] })).harness 7).stageUsed = e.bytes.length + 0 := fun _ => rfl
  have hb : fullStage.bytes.length = 2097152 := List.length_replicate
  have hr : row2.payload.length = 64 := rfl
  rw [h, hb, hr]; decide

def turn0 : Turns := { bolt := 5, window := 0, queues := [] }

def turning : State := up.modHarness 0 (fun x => { x with turns := [turn0] })

/-- Bolt 5 with both its rows in, accepted and with its order given; its rows are masked or not. -/
def windowed (m : W64) : Bolt :=
  { bolt5 with rows := [{ row2 with meta0 := m }, { row2 with index := 3, meta0 := m }], opened := true, orderDone := true,
               parts := [{ link := 3, first := 2, count := 2, got := 2 }], desc := descOf 5 2 1 2 2 0 }

def masked : Bolt := windowed 0x1000000000000000

theorem witness_WindowsGoForward : up.serving = true ∧ up.named 5 up.windowCloses = none ∧
    (withBolt (windowed 0) up).named 5 (withBolt (windowed 0) up).windowCloses = some (windowed 0) ∧
    (withBolt masked up).named 5 (withBolt masked up).windowCloses = some masked ∧
    (let s := withBolt masked up
     s.serving = true ∧ s.weft.bolts = [masked] ∧ masked.remote = none ∧ (∀ r ∈ masked.rows, r.mask = true) ∧ masked.results = [] ∧
     masked.sprint = false ∧ masked.findsMode = false ∧ (∀ i < 8, (s.spindle i).jobs = []) ∧ s.windowRows masked ≠ []) := by
  decide +kernel

theorem witness_masked_atRest : (withBolt masked up).atRest := rests rfl rfl

theorem witness_TurnsGoForward : turning.serving = true ∧ (turning.harness 0).turns = turn0 :: [] ∧
    turning.turnIssued 0 turn0 = true ∧ (withPick { pick1 with h := 0 } turning).turnIssued 0 turn0 = false ∧
    (up.harness 0).turns = [] := by decide +kernel

/-- A check that the hypothesis "stands in Beam" can be evaluated by. -/
theorem beams {s : State} {a n : Nat} (hw : s.tiers.writes = []) (h : (tilesOf a n).all (fun t =>
    (s.regionOfPage (t / 64)).isSome && (s.page (t / 64)).st != .lost && !s.pageFailed (t / 64) && s.tileState t == .valid) = true) :
    s.inBeam a n := by
  refine ⟨hw, fun t ht => ?_⟩
  have := List.all_eq_true.mp h t ht
  simp only [Bool.and_eq_true, bne_iff_ne, Bool.not_eq_true', beq_iff_eq] at this
  exact ⟨this.1.1.1, this.1.1.2, this.1.2, this.2⟩

/-- A gradient pick in Harness 7, core 65, whose one row stands in the replay buffer of its link: its next block waits for nothing. -/
def gradPick : Pick := { pick1 with kind := .tRows, purpose := .dA, rows := [2], queued := true }

def issuing : State :=
  onCore 7 65 (fun k => { k with power := .on, queue := [1], service := .active })
    (withPick gradPick (withBolt { bolt5 with rows := [{ row2 with link := 7, grouped := true }], opened := true } up))

theorem witness_CoreBlocksIssue : up.serving = true ∧ duePicks (up.queuePicks 7 65) = [] ∧ issuing.serving = true ∧
    duePicks (issuing.queuePicks 7 65) = gradPick :: [] ∧ issuing.tiers.writes = [] ∧ gradPick.h = 7 ∧ gradPick.c = 65 ∧
    gradPick.issued < gradPick.blocks ∧ gradPick.stash = [] ∧ issuing.flag BD_DBG_CTRL.ARM = false ∧
    (issuing.blockTiles gradPick gradPick.issued).any issuing.tileError = false ∧ issuing.waitCause gradPick = none := by decide +kernel

theorem witness_issuing_atRest : up.atRest ∧ issuing.atRest := ⟨rests rfl rfl, rests rfl rfl⟩

/-- A block of the pick that waits for its first tile, or whose tile stands in its back banks. -/
def block1 (loaded : Bool) : Block := { pick := 1, index := 0, kTiles := 1, refs := [], drains := [], loaded := loaded }

def pickW : Pick := { pick1 with queued := true }

def blocked (loaded : Bool) : State :=
  onCore 7 65 (fun k => { k with blocks := [block1 loaded], power := .on, queue := [1] }) (withPick pickW up)

/-- Two blocks of picks whose LOADs are of one size, in disjoint segments. -/
def twoLoads : State :=
  onCore 7 65 (fun k => { k with blocks := [block1 false, { block1 false with pick := 2 }], power := .on, queue := [1, 2] })
    { up with heddle := { up.heddle with picks := [pickW, { pickW with id := 2, segs := [(31, 0)] }] } }

theorem witness_CoreBlocksLoadAndSwap : up.nextLoad 7 65 = [] ∧
    (blocked false).nextLoad 7 65 = (block1 false, pickW) :: [] ∧
    (twoLoads.nextLoad 7 65).length = 2 ∧ (∀ y ∈ twoLoads.nextLoad 7 65, y.2.h = 7 ∧ y.2.c = 65) ∧
    (pickW.segs.map (·.1)).Nodup ∧ ((blocked false).core 7 65).lacking pickW 0 0 = [(0, 0)] ∧
    ((blocked false).core 7 65).blocks.find? (·.loaded) = none ∧
    ((blocked true).core 7 65).blocks.find? (·.loaded) = some (block1 true) ∧
    (blocked true).pick? (block1 true).pick = some pickW := by decide +kernel

/-- A block whose passes have ended, with two tiles to drain; the second waits behind the first. -/
def tile1 : TileOut := { tile := 0, outTile := 0, outs := [⟨0, 0, 0, .zero⟩], isInt := false, sat := false, nan := false }
def passed : Block := { block1 false with ktDone := 1, drains := [tile1, { tile1 with tile := 2 }] }

def drainingCore : State :=
  onCore 7 65 (fun k => { k with blocks := [passed], power := .on, queue := [1] }) (withPick pickW up)

theorem witness_CoreBlocksDrain :
    (drainingCore.core 7 65).blocks.find? (fun b => decide (b.kTiles ≤ b.ktDone) && !b.drains.isEmpty) = some passed ∧
    drainingCore.pick? passed.pick = some pickW ∧ passed.drains = tile1 :: [{ tile1 with tile := 2 }] ∧
    (drainingCore.acceptTile pickW passed tile1).any (fun u => u.heddle.cores == drainingCore.heddle.cores) = true ∧
    (drainingCore.modSpindle 7 (fun v => { v with failed := true })).acceptTile pickW passed tile1 = none := by decide +kernel

theorem witness_CoresGateAndRamp :
    (let s := onCore 7 65 (fun k => { k with power := .on }) up
     s.serving = true ∧ (s.core 7 65).power = .on ∧ (s.core 7 65).blocks = [] ∧ s.heldOn 7 65 = false) ∧
    ((blocked true).core 7 65).blocks ≠ [] ∧ (up.core 7 65).power ≠ .on ∧
    ((onCore 7 65 (fun k => { k with service := .active }) up).modHarness 7 (fun x => { x with heldOn := true })).rampDue 7 65 = true := by
  decide +kernel

/-- Region 0 is one HOME page at page 0 of Beam, where the directory's entry 77 stands: of rank 8 and 4 layers in BF16, with projection
3 of 64 inputs and 32 outputs; VALID or not. -/
def withEntry (valid : Bool) : State :=
  let s := (((up.set ST_STATUS.DIR_READY 1).set ST_DIR_BASE.VALID 1).set (TM_REGION.VALID 0) 1).set (TM_REGION.PAGES 0) 1
  let s := ((s.set (ST_SHAPE.VALID 3) 1).set (ST_SHAPE.D_IN 3) 64).set (ST_SHAPE.D_OUT 3) 32
  { s with tiers := { s.tiers with
      pages := [(0, { st := .home, stack := 0, base := .valid })],
      beam := [(4928, 4), (4930, 8), (4932, 8)] ++ (if valid then [(4935, 0x80)] else []) } }

def strand1 : Strand := { harness := 7, core := 1, tile := 2, pick := 3, firstTerm := 65536, outTile := 4, elems := [] }
def sum1 : LongSum := { rev := 5, adapter := 77, layer := 2, proj := 3, isB := true }
def cell1 (i : Nat) : Cell := { index := i, outTile := 4, harness := 7, elems := [] }
def learner1 : Learner := { adapter := 77, rev := 5, learns := true, record := [], incomplete := true }

/-- The engine with one long sum. -/
def summing (x : LongSum) : State := { withEntry true with heddle := { (withEntry true).heddle with sums := [x] } }

def withLearner (x : LongSum) (y : Learner) : State :=
  let s := summing x
  { s with skein := { s.skein with learners := [y], closedFrom := 0 } }

/-- A flying-shuttle bolt whose partials are in. -/
def sprinting : State :=
  let s := withBolt bolt5 up
  { s with heddle := { s.heddle with sprint := some { bolt := 5, cores := [], formed := true } } }

theorem witness_SumsCombine : up.serving = true ∧
    (sprinting.heddle.sprint.filter sprinting.sprintDone).isSome = true ∧ sprinting.bolt? 5 = some bolt5 ∧
    up.heddle.sprint.filter up.sprintDone = none ∧ up.nextStrand 7 = none ∧ up.nextPair 7 = none ∧
    (let x := { sum1 with cells := [cell1 0, cell1 1] }
     (summing x).nextStrand 7 = none ∧ (summing x).nextPair 7 = some (x, cell1 0, cell1 1)) ∧
    (let x := { sum1 with strands := [strand1] }
     (summing x).nextStrand 7 = some (x, strand1) ∧ x.cells.find? strand1.joins = none) ∧
    (let x := { sum1 with strands := [strand1], cells := [cell1 1] }
     (summing x).nextStrand 7 = some (x, strand1) ∧ x.cells.find? strand1.joins = some (cell1 1) ∧ (cell1 1).frame = none) := by
  decide +kernel

/-- The sum that the row names, closed. -/
def closes (s : State) (x : LongSum) : Bool :=
  s.heddle.sums.find? (fun x => x.adapter == 77 && x.layer == 2 && x.proj == 3 && x.isB == true && s.sumCloses x) == some x

theorem witness_SumsFinish : closes (summing { sum1 with incomplete := true }) { sum1 with incomplete := true } = true ∧
    (let s := withLearner sum1 learner1
     closes s sum1 = true ∧ sum1.incomplete = false ∧ s.learner? 77 5 = some learner1 ∧
     (s.rawDir 77).any (fun d => (s.sectionOf d learner1.opt 2 3 true).any (fun sec => (s.runMat d ⟨0, 0⟩ sec).isSome)) = true ∧
     s.standIn (77 % 8) < s.spindles.length) ∧
    up.heddle.sums = [] ∧ up.skein.learners = [] ∧
    (let s := withLearner { sum1 with adapter := 1 } learner1
     s.skein.learners.find? (fun x => x.adapter == 77 && x.learns && !x.normDone && s.gradientsDone x) = some learner1) ∧
    learner1.incomplete = true := by decide +kernel

theorem witness_sums_inBeam : (summing { sum1 with incomplete := true }).inBeam ((summing { sum1 with incomplete := true }).dirAddr 77) 64 ∧
    (withLearner sum1 learner1).inBeam ((withLearner sum1 learner1).dirAddr 77) 64 ∧
    (withLearner { sum1 with adapter := 1 } learner1).inBeam ((withLearner { sum1 with adapter := 1 } learner1).dirAddr 77) 64 ∧
    (withLearner { sum1 with adapter := 1 } learner1).inBeam ((withLearner { sum1 with adapter := 1 } learner1).recordAddr 77) 32 :=
  ⟨beams rfl (by decide +kernel), beams rfl (by decide +kernel), beams rfl (by decide +kernel), beams rfl (by decide +kernel)⟩

theorem witness_sums_atRest (x : LongSum) (y : Learner) : (summing x).atRest ∧ (withLearner x y).atRest ∧ sprinting.atRest :=
  ⟨rests rfl rfl, rests rfl rfl, rests rfl rfl⟩

/-! ## Spindle -/

def onSpindle (h : Nat) (f : Spindle → Spindle) (s : State) : State := s.modSpindle h f

/-- A job of class k, with closed vectors or without. -/
def job1 (k : Nat) (started : Bool) (vecs : List Vec) (pos total : Nat) : Job :=
  { key := { cls := k, bolt := 5 }, started := started, vecs := vecs, width := 256, pos := pos, total := total }

def withJob (j : Job) : State := onSpindle 7 (fun v => { v with jobs := [j] }) up

theorem witness_SpindleJobsRun : up.spindleOpen 7 = true ∧ up.nextStart 7 = none ∧ up.serving = true ∧ (up.spindle 7).failed = false ∧
    up.spindleStopped 7 = false ∧
    (∀ k ∈ [0, 4], let j := job1 k false [{ v0 := [] }] 0 0
      (withJob j).spindleOpen 7 = true ∧ (withJob j).nextStart 7 = some j) ∧
    (∀ k ∈ [0, 2], let j := job1 k true [{ v0 := [] }] 0 512
      (withJob j).vectorJob 7 = some j ∧ (withJob j).freePair 7 = some 0) ∧
    (∀ pos ∈ [0, 256], let j := job1 2 true [] pos 512
      (withJob j).tailJob 7 = some j) ∧
    0 + 256 < 512 ∧ 512 ≤ 256 + 256 ∧
    (let s := onSpindle 0 (fun v => { v with failed := true }) up
     (s.spindle 0).failed = true ∧ s.spindleOpen 0 = false) := by decide +kernel

theorem witness_jobs_atRest (j : Job) : (withJob j).atRest := rests rfl rfl

theorem witness_SpindleParityErrorForces : let s := up.set (SV_CTRL.MODE 2) 0
    s.serving = true ∧ (s.spindle 2).failed = false ∧ s.vectorJob 2 = none ∧ s.tailJob 2 = none ∧ s.spChecked 2 = false ∧
    (∀ b < 8, ∀ inSlot : Bool, ((s.modSpindle 2 (fun v => { v with
      forced := true, progFault := v.progFault || inSlot,
      blockFault := if inSlot then v.blockFault else v.blockFault ||| (1#8 <<< b) })).freePair 2).isSome = true) := by decide +kernel

theorem witness_SpindleRegistersAreChecked : up.boot.stage = .up ∧ up.pm.st = .run ∧
    mapReason 3 0 (up.progWords 1 (bitsOf (0 : W64).toNat 4 0)) = 0 ∧
    mapReason 3 0x300000000 (up.progWords 1 (bitsOf (0x300000000 : W64).toNat 4 0)) = 6 ∧
    up.slotInUse 7 0 = true ∧ up.slotInUse 7 31 = false := by decide +kernel

/-! ## Skein Table Unit -/

def dirReady : State := up.set ST_STATUS.DIR_READY 1

theorem witness_DirectoryCommandsRunOrWait : up.writeGate ST_DESC_CMD.GO.off = .made ∧ up.flag ST_DESC_CMD.BUSY = false ∧
    (up.set LS_STATUS.IN_BOUNDARY 1).inBoundary = true ∧ up.inBoundary = false ∧ up.dirReady = false ∧ dirReady.dirReady = true := by
  decide +kernel

theorem witness_DirectoryCommandsMeetTheEntry : ((withEntry true).rawDir 77).map (·.valid) = some true ∧
    ((withEntry false).rawDir 77).map (·.valid) = some false ∧ (withEntry true).staged.policy ≠ 3 ∧
    (withEntry true).inBoundary = false ∧ (withEntry true).writeGate ST_DESC_CMD.GO.off = .made ∧ (withEntry true).powered = true ∧
    (withEntry true).flag ST_DESC_CMD.BUSY = false := by decide +kernel

theorem witness_entry_inBeam (valid : Bool) : (withEntry valid).inBeam ((withEntry valid).dirAddr 77) 64 := by
  cases valid
  · exact beams rfl (by decide +kernel)
  · exact beams rfl (by decide +kernel)

theorem witness_DeferredRegistersWaitForTheBoundary : isDeferred 0x1000 = false ∧ isDeferred (ST_SHAPE.VALID 15).off = true ∧
    up.writeGate (ST_SHAPE.VALID 15).off = .made ∧ shapeIgnored (ST_SHAPE.VALID 15).off 0x8000000000000001 = true ∧
    shapeIgnored (ST_SHAPE.VALID 15).off 0x8000000000400080 = false ∧ up.revValid = false ∧ working.revValid = true := by
  decide +kernel

/-- The definition of a DIRECT table of 4 rows of width 32, VALID still 0. -/
def tabled : State :=
  (((up.set (ST_TABLE.WIDTH 63) 32).set (ST_TABLE.LOGICAL_ROWS 63) 4).set (ST_TABLE.PHYS_ROWS 63) 4).set (ST_TABLE.SHADOW_SLOTS 63) 3

/-- Its first word with VALID set. -/
def tableWord : W64 := (tabled.set (ST_TABLE.VALID 63) 1).word (ST_TABLE.VALID 63).off

theorem witness_TableDefinitionsAreChecked : (up.set (ST_TABLE.VALID 63) 1).flag (ST_TABLE.VALID 63) = true ∧
    bitOf (0x8000000000000000 : W64).toNat 63 = true ∧ bitOf (0 : W64).toNat 63 = false ∧ up.flag (ST_TABLE.VALID 63) = false ∧
    up.tableReason ((up.writeFields (ST_TABLE.VALID 63).off 0x8000000000000000).tableWords 63) ≠ 0 ∧
    bitOf tableWord.toNat 63 = true ∧ tabled.flag (ST_TABLE.VALID 63) = false ∧
    tabled.tableReason ((tabled.writeFields (ST_TABLE.VALID 63).off tableWord).tableWords 63) = 0 := by decide +kernel

theorem witness_RowReplacementsAreChecked : up.writeGate ST_REPLACE_CMD.GO.off = .made ∧ up.flag ST_REPLACE_CMD.BUSY = false ∧
    up.table? 63 = none ∧ (let s := tabled.set (ST_TABLE.VALID 63) 1
      (s.table? 63).map (fun t => (t.kind == 2, t.phys)) = some (false, 4) ∧
      ((s.set (ST_TABLE.KIND 63) 2).table? 63).map (·.kind) = some 2) := by decide +kernel

/-- A table of READ_MODE 1 in region 0, with an entry of the free list at byte 512 of Beam that names slot 1, or with none. -/
def replacing (count : Nat) : State :=
  let s := withEntry true
  let s := (((s.set (ST_TABLE.WIDTH 63) 32).set (ST_TABLE.LOGICAL_ROWS 63) 4).set (ST_TABLE.PHYS_ROWS 63) 4).set (ST_TABLE.SHADOW_SLOTS 63) 3
  let s := ((s.set (ST_TABLE.READ_MODE 63) 1).set (ST_TABLE.FREE_BASE 63) 512).set (ST_TABLE.VALID 63) 1
  { s with skein := { s.skein with rings := [(63, ⟨0, count⟩)] }, tiers := { s.tiers with beam := [(512, 1)] } }

theorem witness_RowReplacementsComplete : (replacing 1).writeGate ST_REPLACE_CMD.GO.off = .made ∧
    (replacing 1).powered = true ∧ (replacing 1).flag ST_REPLACE_CMD.BUSY = false ∧
    (∀ n ∈ [0, 1], (replacing n).table? 63 = some ((replacing n).tableWords 63) ∧ ((replacing n).tableWords 63).kind ≠ 2 ∧
      3 < ((replacing n).tableWords 63).phys ∧ ((replacing n).tableWords 63).passMode = true ∧
      (replacing n).skein.flips.find? (fun f => f.table == 63 && f.row == 3) = none ∧ (replacing n).skein.flips.length < 4096) ∧
    ((replacing 0).ring 63).count = 0 ∧ ((replacing 1).ring 63).count ≠ 0 ∧
    leNat (getRun (replacing 1).tiers.beam (((replacing 1).tableWords 63).free + 4 * ((replacing 1).ring 63).head) 4) = 1 := by
  decide +kernel

theorem witness_replacement_inBeam : let t := (replacing 1).tableWords 63
    (replacing 1).inBeam (t.free + 4 * ((replacing 1).ring 63).head) 4 ∧
    (replacing 1).inBeam ((replacing 1).get ST_REPLACE_SRC.SRC / 64 * 64) t.slotBytes ∧ (replacing 1).inBeam (t.slotAddr 1) t.slotBytes :=
  ⟨beams rfl (by decide +kernel), beams rfl (by decide +kernel), beams rfl (by decide +kernel)⟩

theorem witness_tables_atRest : up.atRest ∧ (tabled.set (ST_TABLE.VALID 63) 1).atRest ∧ (replacing 0).atRest ∧ (replacing 1).atRest ∧
    (withEntry true).atRest ∧ (withEntry false).atRest ∧ dirReady.atRest :=
  ⟨rests rfl rfl, rests rfl rfl, rests rfl rfl, rests rfl rfl, rests rfl rfl, rests rfl rfl, rests rfl rfl⟩

/-! ## Tier Manager -/

def withTiers (f : Tiers → Tiers) (s : State) : State := { s with tiers := f s.tiers }

def fill1 : Fill := { tile := 0, issued := true, unit := 8 }
def write1 (source addr : Nat) : EngWrite := { addr := addr, bytes := [1], source := source }

/-- A page as region 0 holds it, of a backing, written back (WRITABLE) or not; TM_PAGE_ADDR names it. -/
def paged (backing wb : Nat) (q : Page) : State :=
  let s := (((up.set (TM_REGION.VALID 0) 1).set (TM_REGION.PAGES 0) 1).set (TM_REGION.BACKING 0) backing).set (TM_REGION.POLICY 0) wb
  withTiers (fun x => { x with pages := [(0, q)] }) (s.set TM_CTRL.FREE_TARGET 0)

def home1 : Page := { st := .home, base := .valid }
def clean1 : Page := { st := .clean, base := .valid }

theorem witness_TierRequestsIssue : up.serving = true ∧
    (let f := { fill1 with issued := false }
     let s := withTiers (fun x => { x with fills := [f] }) (paged 1 1 { st := .clean })
     s.serving = true ∧ s.tiers.fills = [f] ∧ f.issued = false ∧ f.demand = true ∧ f.slice = none ∧ s.unitFailed 4 = false ∧
     s.tileError f.tile = false ∧ ((s.page (f.tile / 64)).tile (f.tile % 64)).st = .invalid ∧ s.fillUnit f = some 4 ∧
     (s.page (f.tile / 64)).st.held = true) ∧
    (∀ u < 9, let s := withTiers (fun x => { x with fills := [{ fill1 with unit := u }] }) up
      s.tiers.fills.find? (fun f => f.issued && f.unit == u) = some { fill1 with unit := u }) ∧
    up.tiers.fills.find? (fun f => f.issued && f.unit == 0) = none ∧ (∀ h < 8, ∀ j ∈ (up.spindle h).jobs, j.reads = []) ∧
    up.spindles.length ≤ 8 ∧ up.tiers.wbs.find? (fun w => w.issued && w.unit == 8) = none ∧ up.tiers.writes = [] := by decide +kernel

theorem witness_TierRequestsEnd :
    (let w : WriteBack := { page := 0, unit := 4, issued := true }
     let s := withTiers (fun x => { x with wbs := [w] }) (paged 1 1 { st := .writing, base := .valid })
     s.tiers.wbs.find? (fun w => w.issued && w.unit == 4) = some w ∧ (s.regionOfPage 0).isSome = true) ∧
    (let w := write1 7 4095
     let s := withTiers (fun x => { x with writes := [w] }) (paged 0 1 home1)
     s.tiers.writes = [w] ∧ tilesOf w.addr w.bytes.length = [0] ∧ w.source ≠ 11 ∧ (s.regionOfPage 0).any (·.wb) = true ∧
     (s.page 0).st ≠ .lost ∧ s.pageFailed 0 = false ∧ s.tileState 0 = .valid ∧ s.get TM_CTRL.FREE_TARGET = 0) ∧
    (let s := withTiers (fun x => { x with fills := [fill1] }) up
     s.unitLimit 8 ≠ 0 ∧ (s.tiers.fills.any (fun f => f.issued && f.unit == 8) ||
       s.tiers.wbs.any (fun w => w.issued && w.unit == 8)) = true ∧ s.tiers.writes = [] ∧ s.heddle.picks = [] ∧
     (∀ x ∈ s.heddle.harnesses, x.gangs = [])) ∧
    (up.set TM_TIER_TIMEOUT.FLASH_US 0).unitLimit 8 = 0 := by decide +kernel

theorem witness_tiers_atRest (f : Fill) (w : WriteBack) (x : EngWrite) (s : State) (h : s.atRest) :
    (withTiers (fun t => { t with fills := [f], wbs := [w], writes := [x] }) s).atRest := h

theorem witness_paged_atRest (backing wb : Nat) (q : Page) : (paged backing wb q).atRest := rests rfl rfl

/-- A region of one page without a backing, VALID still 0, and its first word with VALID set. -/
def regioned : State := up.set (TM_REGION.PAGES 63) 1
def regionWord : W64 := (regioned.set (TM_REGION.VALID 63) 1).word (TM_REGION.VALID 63).off

theorem witness_RegionsAndNamespacesAreChecked : up.boot.stage = .up ∧ up.pm.st = .run ∧ bitOf regionWord.toNat 63 = true ∧
    (let s := regioned.set (TM_REGION.VALID 63) 1
     s.flag (TM_REGION.VALID 63) = true ∧ bitOf (0 : W64).toNat 63 = false ∧ s.regionBusy (s.regionWords 63) = false ∧
     (withTiers (fun x => { x with pages := [(0, { st := .home, pins := 1 })] }) s).regionBusy (s.regionWords 63) = true) ∧
    up.flag (TM_REGION.VALID 63) = false ∧ (up.set TM_CTRL.FREE_TARGET 0).get TM_CTRL.FREE_TARGET = 0 ∧
    up.regionRefused ((up.writeFields (TM_REGION.VALID 63).off 0x8000000000000000).regionWords 63) = true ∧
    regioned.regionRefused ((regioned.writeFields (TM_REGION.VALID 63).off regionWord).regionWords 63) = false ∧
    up.flag (TM_FLASH_NS.VALID 7) = false ∧
    (let s := (((up.set (TM_FLASH_NS.VALID 7) 1).set (TM_FLASH_NS.NSID 7) 9).set (TM_REGION.VALID 0) 1).set (TM_REGION.BACKING 0) 2
     s.flag (TM_FLASH_NS.VALID 7) = true ∧
     (∃ q ∈ (s.set (TM_REGION.NSID 0) 9).regions, q.backing = 2 ∧ q.nsid = (s.set (TM_REGION.NSID 0) 9).get (TM_FLASH_NS.NSID 7))) := by
  decide +kernel

theorem witness_PageCommandsTakeTheirPages : up.writeGate TM_PAGE_CMD.GO.off = .made ∧ up.flag TM_PAGE_CMD.BUSY = false ∧
    up.get TM_PAGE_ADDR.ADDR / pageBytes = 0 ∧
    (∀ b < 3, ∀ st ∈ [PageSt.clean, .dirty, .lost], let s := paged b 1 { st := st, base := .valid }
      s.writeGate TM_PAGE_CMD.GO.off = .made ∧ s.flag TM_PAGE_CMD.BUSY = false ∧ (s.regionOfPage 0).any (fun r => !s.backFailed r) = true ∧
      (s.page 0).st = st ∧ s.pagePinned 0 = false) ∧
    (paged 1 1 { clean1 with pins := 1 }).pagePinned 0 = true ∧
    ((paged 1 1 clean1).regionOfPage 0).any (fun r => r.backing == 1 && r.wb) = true ∧
    bitsOf ((paged 1 1 clean1).get TM_PAGE_ARG.ARG) 51 0 / pageBytes = 0 ∧ (paged 0 1 home1).tiers.trying = false ∧
    ((paged 0 1 home1).page 0).st.held = true := by decide +kernel

theorem witness_page_inBeam : (paged 0 1 home1).inBeam (0 * pageBytes) pageBytes := beams rfl (by decide +kernel)

theorem witness_PageOrdersLoseAndSingleAccessesEnd : defeatedBy 3 (some .pm) = some .pm ∧ working.phase ≠ 0 ∧ up.phase = 0 ∧
    (∀ x < 9, bitsOf ((up.set TM_PAGE_ARG.ARG x).get TM_PAGE_ARG.ARG) 3 0 = x) ∧
    (up.set TM_PAGE_ARG.ARG 8).writeGate TM_PAGE_CMD.GO.off = .made ∧ up.regionOfPage (up.get TM_PAGE_ADDR.ADDR / 8 * 8 / pageBytes) = none ∧
    (let s := (paged 0 1 home1).set TM_PAGE_ADDR.ADDR 2097151
     s.get TM_PAGE_ADDR.ADDR / 8 * 8 = 2097144 ∧ s.tiers.trying = false ∧ s.get TM_CTRL.FREE_TARGET = 0 ∧
     (s.regionOfPage (2097144 / pageBytes)).any (·.wb) = true ∧ s.writeGate TM_PAGE_CMD.GO.off = .made ∧
     s.flag TM_PAGE_CMD.BUSY = false) := by decide +kernel

theorem witness_access_inBeam : ((paged 0 1 home1).set TM_PAGE_ADDR.ADDR 2097151).inBeam 2097144 8 := beams rfl (by decide +kernel)

/-! ## Shed Exchange -/

def onExch (f : Exchange → Exchange) (s : State) : State := { s with exch := f s.exch }

/-- Host 2 of Mill 3, with both exchange keys: 26 by the numbering 8 · Mill + host. -/
def asNode (s : State) : State :=
  let s := (((s.set SX_NODE.VALID 1).set SX_NODE.MILL 3).set SX_NODE.HOST 2).set SX_NODE.HOSTS 4
  { lifecycleAt 2 s with sec := { s.sec with xkeys := [(0, List.replicate 32 1), (1, List.replicate 32 2)] } }

def node : State := asNode up

/-- A header from host 24 to host 26: kind, LAST, length, SEQ 5, EPOCH 1. -/
def headerOf (kind len : Nat) : List Byte :=
  toLe 8 (kind * 2 ^ 60 + 2 ^ 59 + 24 * 2 ^ 44 + 26 * 2 ^ 32 + len) ++ toLe 8 5 ++ toLe 8 0 ++ toLe 8 1

def key0 : List Byte := List.replicate 32 1

/-- A message with its own tag, and one whose payload is not as long as its header says. -/
def goodMsg (kind : Nat) : Msg :=
  ⟨headerOf kind 16, List.replicate 16 0, gcmTag key0 (Header.ofBytes (headerOf kind 16)).nonce (headerOf kind 16) (List.replicate 16 0)⟩
/-- A message of a payload, encrypted, with its tag. -/
def msgOf (kind : Nat) (b : List Byte) : Msg :=
  let h := headerOf kind b.length
  let n := (Header.ofBytes h).nonce
  ⟨h, gcmCrypt key0 n b, gcmTag key0 n h (gcmCrypt key0 n b)⟩
def plainOf (m : Msg) : List Byte := gcmCrypt key0 (Header.ofBytes m.header).nonce m.body
def shortMsg (kind : Nat) : Msg := ⟨headerOf kind 16, List.replicate 15 0, List.replicate 16 0⟩

theorem witness_MessagesAreReceived :
    (∀ kind < 7, 1 ≤ kind → let h := Header.ofBytes (headerOf kind 16)
      h.kind = kind ∧ h.dst = node.self ∧ h.src = 24 ∧ h.length = 16 ∧ (shortMsg kind).body.length ≠ h.length ∧ h.seq = 5 ∧ h.epoch = 1) ∧
    node.serving = true ∧ up.flag SX_NODE.VALID = false ∧ node.flag SX_NODE.VALID = true ∧ node.exchangeOpen = true ∧
    node.exchangeKey 24 = some key0 ∧ { node with sec := { node.sec with xkeys := [] } }.exchangeKey 24 = none ∧
    (lifecycleAt 4 node).exchangeOpen = false ∧ mapFind node.exch.kept 24 = none ∧
    (mapFind (onExch (fun x => { x with kept := [(24, (1, 5))] }) node).exch.kept 24).any
      (fun p => decide (1 < p.1) || (1 == p.1 && decide (5 ≤ p.2))) = true := by decide +kernel

theorem witness_message_good (kind : Nat) :
    gcmTag key0 (Header.ofBytes (goodMsg kind).header).nonce (goodMsg kind).header (goodMsg kind).body = (goodMsg kind).tag := by
  simp only [goodMsg]

theorem witness_messages_atRest (s : State) (h : s.atRest) : node.atRest ∧ node.workIdle ∧ (asNode s).atRest :=
  ⟨rests rfl rfl, (rests rfl rfl : node.atRest).1, h⟩

/-- A REQUEST section of one row. -/
def requestBytes : List Byte := (descOf 5 1 1 1 0 0).flatMap wordBytes ++ List.replicate 152 0
def request1 : Msg := msgOf 1 requestBytes

theorem witness_request_taken : (Header.ofBytes request1.header).kind = 1 ∧ request1.body.length = (Header.ofBytes request1.header).length ∧
    (requestSections 4 (plainOf request1)).map (·.1) = [descOf 5 1 1 1 0 0] ∧
    (requestSections 4 (plainOf request1)).map (fun q => q.2.length) = [1] ∧ (plainOf request1).length / 64 + 1 = 4 ∧
    node.exch.held = [] ∧ (∀ x ∈ node.weft.bolts, x.remote = none) ∧ node.expired (dAngle (descOf 5 1 1 1 0 0)) = false := by
  decide +kernel

/-- A RESPONSE to bolt 5 of one record: row 2, projection 0, no data. -/
def response1 : Msg := msgOf 2 (toLe 8 (2 ^ 36 + 5) ++ toLe 8 0 ++ toLe 8 (2 * 2 ^ 44))
def remote1 : RemoteRow := { bolt := 5, row := 2, proj := 0, adapter := 77, owner := 24, sent := true }
def asking : State := onExch (fun x => { x with rounds := [{ angle := 0, launched := true, rows := [remote1] }] }) (asNode (withBolt bolt5 up))

theorem witness_response_taken : (Header.ofBytes response1.header).kind = 2 ∧
    response1.body.length = (Header.ofBytes response1.header).length ∧
    (let w := fun i => leNat (((plainOf response1).drop (8 * i)).take 8)
     bitsOf (w 0) 31 0 = 5 ∧ bitsOf (w 0) 48 36 = 1 ∧ bitsOf (w 2) 63 44 = 2 ∧ bitsOf (w 2) 43 40 = 0 ∧ bitOf (w 2) 39 = false) ∧
    (plainOf response1).length = 24 ∧ asking.bolt? 5 = some bolt5 ∧ bolt5.remote = none ∧ remote1 ∈ asking.remoteRows := by
  decide +kernel

/-- The learner of adapter 77 has its first contribution, and its directory entry stands in Beam. -/
def learns : Learner := { adapter := 77, rev := 5, learns := true, record := [] }
def learningNode : State := asNode (withLearner sum1 learns)

theorem witness_learning : learningNode.revValid = false ∧ learningNode.dirReady = true ∧ (learningNode.dir? 77).isSome = true ∧
    learningNode.phase ≠ 2 ∧ learningNode.exchanging 77 = some learns ∧ learningNode.get SX_NODE.HOSTS ≠ 1 ∧
    learningNode.workIdle ∧ (asNode working).revolution = 5 := by
  refine ⟨by decide +kernel, by decide +kernel, by decide +kernel, by decide +kernel, by decide +kernel, by decide +kernel, ?_,
    by decide +kernel⟩
  exact ((witness_messages_atRest _ (witness_sums_atRest sum1 learns).2.1).2.2).1

theorem witness_learning_inBeam : learningNode.inBeam (learningNode.dirAddr 77) 64 := beams rfl (by decide +kernel)

/-- A GRADIENT of chunk 1 of adapter 77: the 256 elements of B of layer 0; and its NORM of no sums. -/
def gradient1 : Msg := msgOf 3 (toLe 8 (77 * 2 ^ 48 + 1) ++ toLe 8 1 ++ List.replicate 1024 0)
def norm1 : Msg := msgOf 4 (toLe 8 (77 * 2 ^ 48) ++ toLe 8 0)

theorem witness_gradient_taken : (Header.ofBytes gradient1.header).kind = 3 ∧
    (let w := fun i => leNat (((plainOf gradient1).drop (8 * i)).take 8)
     bitsOf (w 0) 63 48 = 77 ∧ bitsOf (w 0) 31 0 = 1 ∧ bitsOf (w 1) 31 0 = 1) ∧
    (learningNode.dir? 77).any (fun d => learningNode.ownsChunk d 1 && (learningNode.sectionOfChunk d 0 1).any (fun sec =>
      (plainOf gradient1).length == 16 + 4 * min 2048 (sec.elems - 2048 * (1 - sec.chunk0)))) = true := by decide +kernel

theorem witness_norm_taken : (Header.ofBytes norm1.header).kind = 4 ∧ (plainOf norm1).length = 16 ∧
    leNat ((plainOf norm1).take 8) = 77 * 2 ^ 48 ∧ leNat (((plainOf norm1).drop 8).take 8) = 0 := by decide +kernel

/-! A MOVE carries a tile of 32,768 bytes: its length comes from the lengths of what it is made of. -/

theorem xorList_length (a : List Nat) : ∀ b, (xorList a b).length = min a.length b.length := by
  induction a with
  | nil => simp [xorList]
  | cons x t ih =>
    intro b
    cases b with
    | nil => simp [xorList]
    | cons y u => simp [xorList, ih]

theorem aesRounds_length (ks : List (List Nat)) : ∀ s, ks ≠ [] → (∀ k ∈ ks, k.length = 16) → (aesRounds ks s).length = 16 := by
  induction ks with
  | nil => simp
  | cons k ks ih =>
    intro s _ h
    cases ks with
    | nil => simp [aesRounds, xorList_length, permute, h k (by simp)]
    | cons k' ks' =>
      rw [aesRounds]
      · exact ih _ (by simp) (fun x hx => h x (List.mem_cons_of_mem _ hx))
      · simp

theorem gcmStream_length (rk : List (List Nat)) (iv : List Nat) (h : ∀ s, (aesEnc rk s).length = 16) (n : Nat) :
    ∀ c, (gcmStream rk iv n c).length = 16 * n := by
  induction n with
  | zero => intro c; rfl
  | succ n ih => intro c; rw [gcmStream, List.length_append, h, ih]; omega

theorem aesEnc_length (k : List Nat) (ks : List (List Nat)) (hk : ks ≠ []) (h : ∀ k ∈ ks, k.length = 16) (s : List Nat) :
    (aesEnc (k :: ks) s).length = 16 := aesRounds_length ks _ hk h

theorem key0_length (s : List Nat) : (aesEnc (roundKeys (natsOf key0)) s).length = 16 := by
  have h : roundKeys (natsOf key0) = (roundKeys (natsOf key0)).headD [] :: (roundKeys (natsOf key0)).tail := by decide +kernel
  rw [h]
  exact aesEnc_length _ _ (by decide +kernel) (by decide +kernel) s

/-- The tile that the plan expects of host 24, as a message whose first block names tile 0 and one tile. -/
def moveHeader : List Byte := headerOf 6 (16 + tileBytes)
def moveBody : List Byte :=
  gcmCrypt key0 (Header.ofBytes moveHeader).nonce (toLe 8 0 ++ toLe 8 1) ++ List.replicate tileBytes 0
def move1 : Msg := ⟨moveHeader, moveBody, gcmTag key0 (Header.ofBytes moveHeader).nonce moveHeader moveBody⟩

theorem moveBody_length : moveBody.length = 16 + tileBytes := by
  rw [moveBody, List.length_append, List.length_replicate]
  exact congrArg (· + tileBytes) (show (gcmCrypt _ _ _).length = 16 by decide +kernel)

theorem plain_move : plainOf move1 = bytesOf (xorList (natsOf moveBody)
    (gcmStream (roundKeys (natsOf key0)) (natsOf (Header.ofBytes moveHeader).nonce) 2049 2)) := by
  show gcmCrypt key0 (Header.ofBytes moveHeader).nonce moveBody = _
  rw [gcmCrypt, moveBody_length]
  rfl

theorem witness_move_length : (plainOf move1).length = 16 + tileBytes ∧ move1.body.length = (Header.ofBytes move1.header).length := by
  refine ⟨?_, moveBody_length⟩
  rw [plain_move, bytesOf, List.length_map, xorList_length, natsOf, List.length_map, moveBody_length,
    gcmStream_length _ _ key0_length]
  rfl

theorem witness_move_taken : (Header.ofBytes move1.header).kind = 6 ∧ leNat ((plainOf move1).take 8) = 0 ∧
    leNat (((plainOf move1).drop 8).take 8) = 1 := by
  rw [plain_move]; decide +kernel

def moving : State := onExch (fun x => { x with reshard := some { plan := 0, moves := [(24, 0, 2)], started := true } }) node

theorem witness_move_due : moving.workIdle ∧ moving.exch.rounds = [] ∧ (∃ r, moving.exch.reshard = some r ∧ r.started = true ∧
    r.moves.any (fun x => x.1 == 24 && x.2.1 == 0) = true ∧ r.gathers = []) ∧ moving.exch.outstanding = [] ∧
    node.exch.earlyLost = none :=
  ⟨(rests rfl rfl : node.atRest).1, rfl, ⟨_, rfl, rfl, rfl, rfl⟩, rfl, rfl⟩

def sent1 (kind : Nat) : Sent := { id := 7, kind := kind, dst := 26, bytes := [], adapter := some 77 }

theorem witness_MessagesSentComeToAnEnd :
    (∀ kind < 7, 1 ≤ kind → let s := onExch (fun x => { x with outstanding := [sent1 kind], roundDone := true }) up
      s.serving = true ∧ s.exch.roundDone = true ∧ s.exch.outstanding.find? (·.id == 7) = some (sent1 kind) ∧
      s.exch.outstanding.find? (·.id == 8) = none ∧ s.exch.reshard = none ∧ s.exch.rounds = [] ∧ s.skein.learners = []) ∧
    up.exch.roundDone = false ∧ up.exch.rounds = [] ∧ (sent1 1).dst < 4096 ∧
    (up.set SX_PEER_TIMEOUT.LIMIT_US 0).get SX_PEER_TIMEOUT.LIMIT_US = 0 ∧
    (up.set SX_PEER_TIMEOUT.LIMIT_US 1).get SX_PEER_TIMEOUT.LIMIT_US ≠ 0 ∧
    (onExch (fun x => { x with reshard := some { plan := 0, sends := [7] } }) up).exch.reshard = some { plan := 0, sends := [7] } := by
  decide +kernel

theorem witness_ExchangeRegistersObeyTheirRules : up.boot.stage = .up ∧ up.pm.st = .run ∧ defeatedBy 3 (some .bd) = some .bd ∧
    defeatedBy 3 none = none ∧ (none : Option Rival) ≠ some .same ∧ up.exch.reshard = none ∧
    (onExch (fun x => { x with reshard := some { plan := 0 } }) up).exch.reshard = some { plan := 0 } ∧
    -- HOSTS 0, 9 and one not above HOST are bad; 8 with HOST 7 is not
    (bitsOf (0x8000000000000000 : W64).toNat 3 0 = 0 ∧ bitsOf (0x8000000000000009 : W64).toNat 3 0 = 9 ∧
      bitsOf (0x8000000000000033 : W64).toNat 3 0 ≤ bitsOf (0x8000000000000033 : W64).toNat 6 4) ∧
    (let v := (0x8000000000000078 : W64)
     bitOf v.toNat 63 = true ∧ ¬ (bitsOf v.toNat 3 0 = 0 ∨ 8 < bitsOf v.toNat 3 0 ∨ bitsOf v.toNat 3 0 ≤ bitsOf v.toNat 6 4)) ∧
    (∀ f ∈ [SX_NODE.VALID, SX_NODE.MILL, SX_NODE.HOST, SX_NODE.HOSTS, SX_EPOCH.VALID, SX_EPOCH.EPOCH],
      up.locked.contains (f.off * 64 + f.lo) = false) := by decide +kernel

/-- A first write of SX_NODE and of SX_EPOCH locks every field. -/
def lockedOnce : State := (up.writeFields SX_NODE.VALID.off 0x8000000000000078).writeFields SX_EPOCH.VALID.off 0x8000000000000001

theorem witness_exchangeRegisters_locked : ∀ f ∈ [SX_NODE.VALID, SX_NODE.MILL, SX_NODE.HOST, SX_NODE.HOSTS, SX_EPOCH.VALID,
    SX_EPOCH.EPOCH], lockedOnce.locked.contains (f.off * 64 + f.lo) = true := by decide +kernel

/-! ## Security -/

def onSec (f : Security → Security) (s : State) : State := { s with sec := f s.sec }

/-- Lifecycle OPEN_DEV, tenant key 5 and exchange key INTRA loaded. -/
def keyed : State := onSec (fun x => { x with keys := [(5, [1])], xkeys := [(0, [3])] }) (lifecycleAt 1 up)

/-- A plain key whose halves differ. -/
def keyBuf : State := keyed.setWord (SS_KEY_BUF.WORD 0).off 5

theorem witness_KeyCommandsTakeEffect : keyed.writeGate SS_KEY_CMD.GO.off = .made ∧ keyed.flag SS_KEY_CMD.BUSY = false ∧
    (lifecycleAt 4 up).keyPermitted 0 = false ∧ (lifecycleAt 4 up).keyPermitted 1 = false ∧ keyed.keyPermitted 0 = true ∧
    (keyed.slotKey 0 5).isSome = true ∧ (keyed.slotKey 1 0).isSome = true ∧ keyed.slotKey 0 4095 = none ∧ keyed.slotKey 2 0 = none ∧
    (let k := (keyBuf.regBytes (SS_KEY_BUF.WORD 0).off 10).take 64
     ¬ (k.take 32 = k.drop 32)) ∧
    keyed.keyInUse 5 = false ∧ keyed.tiers.fills = [] ∧ keyed.tiers.wbs = [] ∧ keyed.sec.erasing = [] ∧
    (onSec (fun x => { x with erasing := [(0, 5)] }) keyed).sec.erasing = [(0, 5)] ∧
    (onSec (fun x => { x with erasing := [(0, 5)] }) keyed).keyInUse 5 = false := by decide +kernel

/-- A fill whose cipher work uses tenant key 5. -/
def keyInFlight : State :=
  let s := ((((keyed.set (TM_REGION.VALID 0) 1).set (TM_REGION.PAGES 0) 1).set (TM_REGION.BACKING 0) 2).set (SS_REGION_KEY.ENCRYPT 0) 1).set (SS_REGION_KEY.TENANT 0) 5
  withTiers (fun x => { x with fills := [{ tile := 0, issued := true, unit := 8, keyed := true }] }) s

theorem witness_key_in_use : keyInFlight.keyInUse 5 = true ∧ keyInFlight.writeGate SS_KEY_CMD.GO.off = .made ∧
    keyInFlight.flag SS_KEY_CMD.BUSY = false := by decide +kernel

/-- RFC 3394, 4.6: 256 bits of key data wrapped under a key of 256 bits. -/
def wrapKek : List Byte := (List.range 32).map (fun i => BitVec.ofNat 8 i)
def wrapData : List Byte := (List.range 16).map (fun i => BitVec.ofNat 8 (17 * i)) ++ (List.range 16).map (fun i => BitVec.ofNat 8 i)
def wrapped : List Byte := toLe 40 0x21DD027A9B8B98FB3BF4991AE7F0C7CB26D30ED8E286573F26F887FB5CB3CCCBF410B8C404F4C928

/-- Lifecycle PROVISIONED with a KIK, and SS_KEY_BUF with the wrapped key. -/
def wrapping (kik : List Byte) : State :=
  let s := lifecycleAt 2 up
  (List.range 5).foldl (fun s i => s.setWord (SS_KEY_BUF.WORD i).off (BitVec.ofNat 64 (leNat ((wrapped.drop (8 * i)).take 8))))
    { s with fuses := { s.fuses with kik := kik } }

theorem test_keyUnwrap : keyUnwrap wrapKek wrapped = some wrapData := by decide +kernel

theorem witness_wrapped_key : (∀ kik, (wrapping kik).fuses.kik = kik) ∧ (wrapping wrapKek).keyPermitted 1 = true ∧
    (wrapping wrapKek).slotKey 1 0 = none ∧ (wrapping wrapKek).writeGate SS_KEY_CMD.GO.off = .made ∧
    (wrapping wrapKek).flag SS_KEY_CMD.BUSY = false ∧
    ((wrapping wrapKek).regBytes (SS_KEY_BUF.WORD 0).off 10).take 40 = wrapped ∧ keyUnwrap [] wrapped = none ∧
    ((wrapping []).regBytes (SS_KEY_BUF.WORD 0).off 10).take 40 = wrapped ∧
    (let k := (keyed.regBytes (SS_KEY_BUF.WORD 0).off 10).take 64
     k.take 32 = k.drop 32) := by
  refine ⟨fun _ => rfl, ?_⟩
  decide +kernel

theorem witness_ReadsShowNoKeyMaterial : ([(5, [9, 9])] : SMap (List Byte)).map (·.1) = keyed.sec.keys.map (·.1) ∧
    ([(0, [7])] : SMap (List Byte)).map (·.1) = keyed.sec.xkeys.map (·.1) ∧ ([] : List Byte).isEmpty = keyed.fuses.kik.isEmpty := by
  decide

/-- A staged KIK and key hash. -/
def stagedKik (s : State) : State := (s.setWord (SS_PROV_BUF.WORD 3).off 1).setWord (SS_PROV_BUF.WORD 4).off 1

theorem witness_LifecycleBurnsFollowTheTable : up.boot.stage = .up ∧ up.pm.st = .run ∧
    (up.set (TM_REGION.VALID 63) 1).flag (TM_REGION.VALID 63) = true ∧ up.flag (TM_REGION.VALID 63) = false ∧
    2 ≤ (lifecycleAt 2 up).fuses.lifecycle ∧ (lifecycleAt 1 up).fuses.lifecycle < 2 ∧ up.flag SS_LIFECYCLE_CMD.BUSY = false ∧
    ({ up with fuses := { up.fuses with pending := 1 } }).fuses.pending ≠ up.fuses.lifecycle ∧
    (∀ n < 5, (lifecycleAt n up).fuses.pending = n ∧ (lifecycleAt n up).fuses.lifecycle = n) ∧
    (let s := stagedKik (lifecycleAt 1 up)
     (s.regBytes (SS_PROV_BUF.WORD 0).off 4).all (· == 0) = false ∧ (s.regBytes (SS_PROV_BUF.WORD 4).off 6).all (· == 0) = false) ∧
    (up.regBytes (SS_PROV_BUF.WORD 0).off 4).all (· == 0) = true ∧
    ({ lifecycleAt 2 up with fuses := { (lifecycleAt 2 up).fuses with imageHash := [1] } }).fuses.imageHash ≠ [] ∧
    (lifecycleAt 2 up).fuses.imageHash = [] ∧ (onSec (fun x => { x with retireAuth := true }) (lifecycleAt 3 up)).sec.retireAuth = true ∧
    (lifecycleAt 3 up).sec.retireAuth = false := by decide +kernel

theorem witness_burns_atRest (n : Nat) : (lifecycleAt n up).atRest ∧ (stagedKik (lifecycleAt n up)).atRest ∧
    (onSec (fun x => { x with retireAuth := true }) (lifecycleAt n up)).atRest :=
  ⟨rests rfl rfl, rests rfl rfl, rests rfl rfl⟩

theorem witness_DebugLevelsAreRequestedAndGranted : up.boot.stage = .up ∧ up.pm.st = .run ∧
    (onSec (fun x => { x with levelWaits := true }) up).sec.levelWaits = true ∧ up.sec.levelWaits = false ∧ up.sec.level < 1 ∧
    up.fuses.lifecycle ∈ [0, 1, 4] ∧
    (let s := lifecycleAt 3 up
     s.sec.level < 2 ∧ s.sec.debugged = false ∧ s.fuses.lifecycle = 3 ∧ s.sec.grant = .none ∧ s.sec.lockout = false ∧
     s.sec.challenge = none ∧ s.flag SS_UNLOCK_CMD.BUSY = false ∧ s.sec.verifying = none) ∧
    ((lifecycleAt 2 up).sec.level < 2 ∧ (lifecycleAt 2 up).sec.debugged = false ∧ (lifecycleAt 2 up).fuses.lifecycle = 2 ∧
      (lifecycleAt 2 up).sec.grant = .none ∧ (lifecycleAt 2 up).sec.levelWaits = false) ∧ up.tiers.writes = [] ∧ up.tiers.fills = [] ∧
    (onSec (fun x => { x with level := 1 }) up).sec.level < 2 ∧ (onSec (fun x => { x with lockout := true }) up).sec.lockout = true ∧
    (onSec (fun x => { x with challenge := some 2 }) (lifecycleAt 3 up)).sec.challenge = some 2 ∧
    (onSec (fun x => { x with verifying := some (1, 3), fails := 7 }) up).sec.verifying = some (1, 3) ∧
    (onSec (fun x => { x with verifying := some (2, 0) }) up).sec.verifying = some (2, 0) ∧
    (onSec (fun x => { x with verifying := some (1, 0) }) up).sec.verifying = some (1, 0) ∧
    (up.exch.rounds = [] ∧ up.exch.outstanding = [] ∧ up.exch.reductions = [] ∧ up.exch.norms = [] ∧ up.exch.reshard = none) ∧
    (onSec (fun x => { x with grant := .draining }) up).sec.grant = .draining ∧ up.boltsInFlight = 0 ∧
    (withBolt bolt5 up).boltsInFlight ≠ 0 ∧ (onSec (fun x => { x with grant := .erasing }) up).sec.grant = .erasing := by decide +kernel

theorem witness_exchange_idle (n : Nat) : exchangeIdle up ∧ exchangeIdle (lifecycleAt n up) ∧
    exchangeIdle (onSec (fun x => { x with verifying := some (1, 0) }) up) :=
  ⟨(rests rfl rfl : up.atRest).2, (rests rfl rfl : (lifecycleAt n up).atRest).2,
    (rests rfl rfl : (onSec (fun x => { x with verifying := some (1, 0) }) up).atRest).2⟩

/-! ## Faults and repair -/

theorem witness_FaultRecordsFillTheRing :
    (up.get CU_FAULT_PTR.HEAD + 512 - up.get CU_FAULT_PTR.TAIL) % 512 < 256 ∧
    (let s := up.set CU_FAULT_PTR.HEAD 255; (s.get CU_FAULT_PTR.HEAD + 512 - s.get CU_FAULT_PTR.TAIL) % 512 < 256) ∧
    (let s := up.set CU_FAULT_PTR.HEAD 256; 256 ≤ (s.get CU_FAULT_PTR.HEAD + 512 - s.get CU_FAULT_PTR.TAIL) % 512) := by decide +kernel

def serviceAt (v : Service) (s : State) : State := onCore 7 65 (fun k => { k with service := v }) s

/-- A block of a pick on an active core, with one segment. -/
def late : State := serviceAt .active (blocked true)

/-- A frame of slice 7 that holds two sectors of tile 77. -/
def cached : State :=
  withTiers (fun x => { x with slices := [[], [], [], [], [], [], [], [(4, { tile := 77, sectors := [0, 1] })]] }) up

theorem witness_UnitFaultsAreActedOn : up.serving = true ∧ ((serviceAt .active up).core 7 65).service = .active ∧
    (serviceAt .active up).heddle.picks = [] ∧ ((serviceAt .proving up).core 7 65).service = .proving ∧
    (up.core 7 65).service ≠ .active ∧ (up.core 7 65).service ≠ .retirePending ∧ (up.core 7 65).service ≠ .proving ∧
    (up.set CU_CTRL.BLOCK_LIMIT 0).get CU_CTRL.BLOCK_LIMIT = 0 ∧ (up.core 7 65).blocks = [] ∧
    (late.get CU_CTRL.BLOCK_LIMIT ≠ 0 ∧ (late.core 7 65).service = .active ∧ (late.core 7 65).blocks = block1 true :: [] ∧
      late.pick? 1 = some { pick1 with queued := true } ∧ pick1.segs.head? = some (0, 0)) ∧
    (let b := { bolt5 with rows := [row2] }
     let s := withBolt b up
     s.named 5 (fun b => (b.row? 2).isSome) = some b ∧ b.row? 2 = some row2 ∧ b.remote = none ∧ row2.link = 3 ∧ row2.held = true ∧
     row2.spoiled = false ∧ s.bolt? 5 = some b ∧ s.heddle.picks = [] ∧ (∀ x ∈ s.heddle.harnesses, x.turns = []) ∧
     (∀ x ∈ s.spindles, x.jobs = []) ∧ s.exch.rounds = [] ∧
     ((s.modHarness 3 (fun x => { x with stage := [{ bolt := 5, row := 2, kind := .row }] })).harness 3).stage.any
       (fun e => e.bolt == b.id && e.row == row2.index && e.kind == .row) = true) ∧
    ((cached.frameOf 7 77).map (·.2.sectors.isEmpty)) = some false ∧ (serviceAt .active up).get CU_CTRL.BLOCK_LIMIT ≠ 0 ∧
        cached.frameOf 7 78 = none ∧ (cached.frameOf 7 77).map (·.1) = some 4 ∧ cached.heddle.picks = [] ∧
    (0 : BitVec 4).toNat ∉ [1, 2, 7, 8, 9, 11] ∧ (11 : BitVec 4).toNat ∈ [1, 2, 7, 8, 9, 11] := by decide +kernel

/-- A retired core that may return once more. -/
def returning : State :=
  (onCore 7 65 (fun k => { k with service := .retired, returns := 1 }) up).set CU_CTRL.RETURN_LIMIT 3

/-- The Tally ring of 1,024 entries, empty or not. -/
def tallied (head tail : Nat) : State :=
  let s := (((up.set CU_TALLY_RING.VALID 1).set CU_TALLY_RING.LOG2_ENTRIES 10).set CU_TALLY_PTR.HEAD head).set CU_TALLY_PTR.TAIL tail
  { s with cust := { s.cust with tally := [⟨[1, 2, 3, 4]⟩] } }

theorem witness_ServiceOrdersAndTheTallyRun : up.boot.stage = .up ∧ up.pm.st = .run ∧ up.flag CU_SERVICE_CMD.BUSY = false ∧
    defeatedBy 3 (some .pm) = some .pm ∧ defeatedBy 3 none = none ∧ ((serviceAt .active up).core 7 65).service = .active ∧
    (up.core 7 65).service ≠ .active ∧ (serviceAt .active up).returnRefusal 7 65 ≠ 0 ∧ returning.returnRefusal 7 65 = 0 ∧
    up.inService 0 = true ∧ ({ up with cust := { up.cust with harnessRetired := 1 } }).inService 0 = false ∧
    (let s := { up with cust := { up.cust with proofs := [(7, 65)] } }
     s.cust.proofs.find? (·.1 == 7) = some (7, 65) ∧ s.cust.proofs.find? (·.1 == 6) = none) ∧
    proofResult proofSignature true true = 1 ∧ proofResult 0 true true ≠ 1 ∧
    (tallied 3 4).get CU_TALLY_PTR.HEAD ≠ (tallied 3 4).get CU_TALLY_PTR.TAIL ∧
    (tallied 4 4).get CU_TALLY_PTR.HEAD = (tallied 4 4).get CU_TALLY_PTR.TAIL ∧ up.tallyRoom = false ∧ up.cust.drainLeft = 0 ∧
    (tallied 4 4).tallyRoom = true ∧ up.cust.draining = false ∧
    (let s := { tallied 4 4 with cust := { (tallied 4 4).cust with draining := true } }
     s.cust.draining = true ∧ s.tiers.writes.any (·.source == 11) = false ∧ s.tallyRoom = true ∧
     s.cust.tally = ⟨[1, 2, 3, 4]⟩ :: []) ∧
    (let s := { up with cust := { up.cust with draining := true } }
     s.cust.draining = true ∧ s.tallyRoom = false ∧ s.cust.drainLeft = 0) ∧
    (up.heddle.picks = [] ∧ (up.harness 7).turns = [] ∧ (up.spindle 7).jobs = [] ∧ up.heddle.sums = [] ∧ up.tiers.fills = [] ∧
      up.inService 7 = true) := by decide +kernel

/-! ## Power, boot, debug -/

def onPm (f : PowerMgr → PowerMgr) (s : State) : State := { s with pm := f s.pm }

theorem witness_ResetsAndRailsClearTheEngine : up.pm.st ≠ .off ∧ (⟨true, 0⟩ : Level).high = up.pm.resetN ∧
    (⟨true, 0⟩ : Level).high = up.pm.pwrok ∧ (⟨false, 0⟩ : Level).chatter = 0 ∧ up.boot.cmd = none ∧
    (onPm (fun x => { x with resetN := false, lossGate := 2 }) up).pm.resetN = false ∧
    (onPm (fun x => { x with pwrok := false }) up).pm.pwrok = false ∧ (inPower .off up).pm.st = .off := by decide

theorem witness_PowerStatesFollowTheirOrders : up.boot.stage = .up ∧ up.pm.st = .run ∧ up.flag PM_POWER_CMD.BUSY = false ∧
    working.holdRefusal = 1 ∧ (withBolt bolt5 up).holdRefusal = 2 ∧ (onPm (fun x => { x with wake := true }) up).holdRefusal = 3 ∧
    (onSec (fun x => { x with verifying := some (1, 0) }) up).holdRefusal = 4 ∧ up.holdRefusal = 0 ∧
    defeatedBy 3 (some .pm) = some .pm ∧ defeatedBy 3 none = none ∧
    (let s := inPower .enteringHold up
     s.settled = true ∧ s.pm.st = .enteringHold ∧
     (withTiers (fun x => { x with fills := [fill1] }) s).settled = false) ∧
    (let s := onPm (fun x => { x with exiting := true }) (inPower .hold up)
     s.pm.st = .hold ∧ s.pm.exiting = true ∧ s.pm.reconnecting = false ∧ s.pm.holdCmd = false ∧ s.pm.wake = false ∧
     s.pm.protect = false) ∧
    (onPm (fun x => { x with exiting := true, reconnecting := true, exitCmd := true }) (inPower .hold up)).pm.exitCmd = true ∧
    (up.set PM_IDLE_CTRL.ENABLE 1).quiet = true ∧ (withBolt bolt5 up).quiet = false ∧ (⟨true, 0⟩ : Level).chatter = 0 := by
  decide +kernel

theorem witness_ThrottlingSourcesSetTheDuty : up.boot.stage = .up ∧ up.pm.st = .run ∧ (inPower .hold up).pm.st = .hold ∧
    (let s := (onPm (fun x => { x with throttle := true }) up).set PM_THROTTLE_MAX.LIMIT_MS 1
     s.pm.throttle = true ∧ s.pm.stuck = false ∧ s.get PM_THROTTLE_MAX.LIMIT_MS ≠ 0) ∧ up.pm.throttle = false ∧
    (up.set PM_THROTTLE_MAX.LIMIT_MS 0).get PM_THROTTLE_MAX.LIMIT_MS = 0 ∧ up.pm.supplyLow = false ∧
    (onPm (fun x => { x with supplyLow := true }) up).pm.supplyLow = true ∧
    (let s := up.set PM_POWER_LIMIT.WATTS 100
     s.get PM_POWER_LIMIT.WATTS = 100 ∧ s.pm.limit = false ∧ 95 * s.get PM_POWER_LIMIT.WATTS ≤ 100 * 95) ∧
    outOfRange (BitVec.ofInt 16 (-321)) = true ∧ outOfRange 1201 = true ∧ outOfRange 1200 = false ∧ up.pm.sensors.length = 16 ∧
    up.pm.sensorFailed.getLsbD 15 = false ∧
    (let s := onPm (fun x => { x with thermal := true, crit := true, warned := true }) up
     s.pm.thermal = true ∧ s.pm.crit = true ∧ s.pm.warned = true ∧ up.pm.warned = false) ∧
    (up.set PM_THERMAL.CRIT_HOLD_MS 0).get PM_THERMAL.CRIT_HOLD_MS = 0 ∧
    (let s := onPm (fun x => { x with sensors := [0, 0, 0, 0, 0, 0, 0, 0, 0, 0, 0, 0, 0, 0, 0, 400] })
      ((up.set PM_THERMAL.CRIT_HOLD_MS 1).set PM_THERMAL.CRIT 50)
     s.get PM_THERMAL.CRIT_HOLD_MS ≠ 0 ∧ s.pm.protect = false ∧ s.pm.reconnecting = false ∧
     s.threshold PM_THERMAL.CRIT false ≤ tempOf s.hottest.2) := by decide +kernel

/-- A flash was found, and the runtime has enabled writes, from an address on. -/
def flashed (addr n : Nat) : State :=
  let s := ((up.set BD_FLASH_CMD.ADDR addr).set BD_FLASH_LEN.LENGTH n).set BD_CTRL.WRITE_ENABLE 1
  { s with boot := { s.boot with flash := ⟨1, true, 16384, true, 4, true⟩ } }

/-- The command word of a flash operation, written. -/
def flashWord (op : Nat) (s : State) : State := s.writeFields BD_FLASH_CMD.GO.off
  (cmdWord [(BD_FLASH_CMD.GO, 1), (BD_FLASH_CMD.OP, op), (BD_FLASH_CMD.ADDR, s.get BD_FLASH_CMD.ADDR)])

/-- A Warp image of one section (type 3 or 7) with one record: the register at an offset takes 77 in its lower half (Tables 16.1 and 16.2). -/
def imageBody (off : Nat) : List Byte := toLe 8 off ++ toLe 8 (3 * 2 ^ 32 + 77)
def imageEntry (off : Nat) : List Byte := toLe 8 ((if off < 0x3000000 then 3 else 7) * 2 ^ 56 + 80) ++ toLe 8 (crc32c (imageBody off) * 2 ^ 32 + 16)
def imageHead : List Byte := toLe 8 0x010050524157515A ++ toLe 8 (5 * 2 ^ 32 + 3 * 2 ^ 24 + 0x10 * 2 ^ 16 + 0x101) ++ toLe 8 (96 * 2 ^ 32)
def imageBytes (off : Nat) : List Byte :=
  imageHead ++ toLe 8 (crc32c (imageHead ++ imageEntry off)) ++ List.replicate 32 0 ++ imageEntry off ++ imageBody off

/-- An engine in boot that finds the image in its flash, with a record for the register at an offset. -/
def imaged (off : Nat) : State :=
  let s := inStage .bootRead
  { s with boot := { s.boot with
      flash := ⟨1, true, 16384, true, 4, true⟩, nor := mapPutRun 0xFF#8 s.boot.nor 0 (imageBytes off) } }

def applied (s : State) : State ⊕ (Nat × Nat) := s.applySections (sortBy (fun a b => decide (a.type < b.type)) s.imgDirectory)

/-- An image may set LS_ANGLE_WATCHDOG, and no entry of the class map that has a reason to be refused (record 0 of the section of type 7). -/
theorem witness_image_applies :
    (imaged LS_ANGLE_WATCHDOG.LIMIT_US.off).imageCode = (0, 0) ∧ (imaged (SV_MAP.SLOT 0 3).off).imageCode = (0, 0) ∧
    (imaged (SV_MAP.SLOT 0 3).off).boot.stage = .bootRead ∧
    (match applied (imaged LS_ANGLE_WATCHDOG.LIMIT_US.off) with
     | .inl t => t.get LS_ANGLE_WATCHDOG.LIMIT_US == 77
     | .inr _ => false) = true ∧
    (match applied (imaged (SV_MAP.SLOT 0 3).off) with
     | .inl _ => false
     | .inr x => x == (7, 0)) = true := by decide +kernel

theorem witness_BootStepsAndFlashCommandsComplete : State.reset.pm.st = .run ∧ State.reset.boot.stage = .inReset ∧
    State.reset.pm.resetN = true ∧ State.reset.pm.pwrok = true ∧ State.reset.pm.lossGate = 0 ∧
    (inStage .bootRead).boot.stage = .bootRead ∧ (inStage .bootRead).imageCode.1 ≠ 0 ∧ (inStage .bootTest).boot.stage = .bootTest ∧
    up.flag BD_FLASH_CMD.BUSY = false ∧ (flashWord 0 { flashed 0 1 with boot := { (flashed 0 1).boot with code := 1 } }).flashRefusal = 5 ∧ (flashWord 0 (flashed 0 257)).flashRefusal = 3 ∧
    (flashWord 1 ((flashed 4096 4).set BD_CTRL.WRITE_ENABLE 0)).flashRefusal = 1 ∧ (flashWord 0 (flashed 4096 256)).flashRefusal = 0 ∧
    (flashWord 1 (flashed 4096 4)).flashRefusal = 0 ∧ (flashWord 2 (flashed 4096 4)).flashRefusal = 0 ∧ up.boot.cmd = none ∧
    ({ up with boot := { up.boot with cmd := some { op := 1, addr := 4096 } } }).boot.cmd = some { op := 1, addr := 4096 } := by
  decide +kernel

/-- The TAP holds TREADLE, at a debug level. -/
def tapped (level : Nat) : State := onSec (fun x => { x with level := level }) { up with dbg := { up.dbg with tapIr := 2 } }

/-- The debugger at FULL, about to read the last 8 bytes of a page in Beam. -/
def looms : State :=
  (onSec (fun x => { x with level := 2 }) { paged 0 1 home1 with dbg := { up.dbg with tapIr := 2 } }).set BD_DBG_MEM_ADDR.ADDR 2097144

theorem witness_looms : looms.atRest ∧ looms.inBeam 2097144 8 := ⟨rests rfl rfl, beams rfl (by decide +kernel)⟩

theorem witness_TreadleAccessesAndHaltsComplete : up.boot.stage = .up ∧ up.pm.st = .run ∧ up.dbg.tapIr ≠ 2 ∧
    (tapped 0).dbg.tapIr = 2 ∧ (tapped 0).treadleReads 0x1000 = false ∧ (tapped 1).treadleReads 0x1001 = true ∧
    (tapped 1).treadleReads 0x1000 = true ∧ (tapped 1).treadleWrites 0x1000 = false ∧ (tapped 2).treadleWrites 0x1004 = true ∧
    (tapped 2).treadleWrites 0xF00 = true ∧ findReg 0xF00 = none ∧ (tapped 1).sec.level ≠ 2 ∧ (tapped 2).sec.level = 2 ∧
    (haltScope 2 4 66).scope = 2 ∧ 66 ≤ (haltScope 2 4 66).c ∧ ¬ ((haltScope 2 4 65).scope = 2 ∧ 66 ≤ (haltScope 2 4 65).c) ∧
    (tapped 2).coreHalted 4 65 = false ∧ (tapped 2).flag BD_DBG_MEM_CMD.BUSY = false ∧
    (tapped 2).dbg.pendingHalts.find? (tapped 2).haltReady = none ∧
    (let s := { tapped 2 with dbg := { (tapped 2).dbg with pendingHalts := [⟨1, 3, 0⟩] } }
     s.dbg.pendingHalts.find? s.haltReady = some ⟨1, 3, 0⟩) ∧
    (let p := { pick1 with queued := true }
     let s := onCore 7 65 (fun k => { k with queue := [1], power := .on, service := .active })
      (withPick p { tapped 2 with dbg := { (tapped 2).dbg with halts := [⟨2, 7, 65⟩] } })
     s.coreHalted 7 65 = true ∧ s.duePick 7 65 = some p) ∧
    (let s := { tapped 2 with dbg := { (tapped 2).dbg with halts := [⟨2, 7, 65⟩] } }
     let t := (((s.set BD_DBG_MEM_CMD.TIER 5).set BD_DBG_MEM_CMD.HARNESS 7).set BD_DBG_MEM_CMD.CORE 65).set BD_DBG_MEM_ADDR.ADDR 270328
     t.get BD_DBG_MEM_CMD.TIER = 5 ∧ t.get BD_DBG_MEM_ADDR.ADDR % 8 = 0 ∧ t.get BD_DBG_MEM_ADDR.ADDR < 270336 ∧
     t.get BD_DBG_MEM_CMD.CORE < 66 ∧ t.coreHalted (t.get BD_DBG_MEM_CMD.HARNESS) (t.get BD_DBG_MEM_CMD.CORE) = true) ∧
    (looms.get BD_DBG_MEM_CMD.TIER = 0 ∧ looms.sec.level = 2 ∧ looms.dbg.tapIr = 2 ∧ looms.flag BD_DBG_MEM_CMD.BUSY = false ∧
      looms.get BD_DBG_MEM_ADDR.ADDR = 2097144 ∧ (looms.regionOfPage (2097144 / pageBytes)).any (fun q => !looms.encrypted q) = true) ∧
    ((tapped 2).set BD_DBG_XTRIG.IN_ACTION 1).get BD_DBG_XTRIG.IN_ACTION = 1 ∧
    ((tapped 2).set BD_DBG_XTRIG.IN_ACTION 2).get BD_DBG_XTRIG.IN_ACTION = 2 := by decide +kernel

/-! ## Single steps (expected results from the spec) -/

/-- The state after a command. -/
def after (c : Instr) (s : State) : State :=
  match exec c s with
  | .next t => t
  | _ => State.reset

/-- R11: an unassigned offset reads 0. -/
theorem test_unassigned_read : (after (.rcRead 0xF00 8) up).resp = .data 0 := by decide +kernel
/-- R10: an access of 4 bytes is an error. -/
theorem test_narrow_write : (after (.registerWrite LS_ANGLE_WATCHDOG.LIMIT_US.off 4 1) up).resp = .error := by decide +kernel
/-- R12: an RW field takes the value. -/
theorem test_rw_write : (after (.registerWrite LS_ANGLE_WATCHDOG.LIMIT_US.off 8 77) up).get LS_ANGLE_WATCHDOG.LIMIT_US = 77 := by
  decide +kernel
/-- R12: W1C clears the bits written 1. -/
theorem test_w1c : (after (.registerWrite LS_STATUS.ANGLE_OVERRUN.off 8 (BitVec.ofNat 64 (2 ^ LS_STATUS.ANGLE_OVERRUN.lo)))
    (up.set LS_STATUS.ANGLE_OVERRUN 1)).get LS_STATUS.ANGLE_OVERRUN = 0 := by decide +kernel
/-- R35: a fifth word is lost and counted. -/
theorem test_angle_overrun : (after (.angleWord 9) (withQueue [1, 2, 3, 4] up)).get LS_ANGLE_EVENTS.OVERRUN = 1 := by decide +kernel
/-- R34: a word before ENGINE_READY is counted as early. -/
theorem test_angle_early : (after (.angleWord 9) (inStage .bootTest)).get LS_ANGLE_EVENTS.EARLY = 1 := by decide +kernel
/-- R37: an illegal word is copied to LS_ANGLE_REJECTED. -/
theorem test_angle_reject : (after .angleClassify (withQueue [angleOf 0 63 5] working)).word LS_ANGLE_REJECTED.ANGLE.off =
    angleOf 0 63 5 := by decide +kernel
/-- R40: an advance word becomes the current one. -/
theorem test_angle_advance : (after .angleClassify (withQueue [angleOf 1 8 5] working)).angle = angleOf 1 8 5 := by decide +kernel
/-- R39: REBASE in IDLE clears REVOLUTION_VALID. -/
theorem test_rebase : (after .rebase (atAngle (angleOf 0 0 5) up)).revValid = false := by decide +kernel
/-- R51: a throttled harness order, R379: window 12 with duty 16 grants every Harness. -/
theorem test_grant_window : (after .grantWindow up).heddle.harnesses.all (·.granted) = true := by decide +kernel
/-- R320: no plain key in lifecycle RETIRED: NOT_PERMITTED (1). -/
theorem test_load_plain : (after (.loadPlain 0 5) (lifecycleAt 4 up)).get SS_KEY_CMD.STATUS = 1 := by decide +kernel
/-- R320: a slot that holds a key: code 2. -/
theorem test_load_over : (after (.loadPlain 0 5) keyed).get SS_KEY_CMD.STATUS = 2 := by decide +kernel
/-- Table 13.3: FACTORY to OPEN_DEV waits for the next reset. -/
theorem test_burn : ((after (.lifecycleBurn 1) up).fuses.lifecycle, (after (.lifecycleBurn 1) up).fuses.pending) = (0, 1) := by
  decide +kernel
/-- Table 13.3: SECURED is not reached from OPEN_DEV: BAD_TARGET (1). -/
theorem test_burn_bad : (after (.lifecycleBurn 3) (lifecycleAt 1 up)).get SS_LIFECYCLE_CMD.STATUS = 1 := by decide +kernel
/-- R386: a fall of RESET_N keeps PM_RESET_CAUSE and adds bit 0. -/
theorem test_reset_cause : (after (.zqResetN ⟨false, 0⟩) up).word 0x800040 = 9 := by decide +kernel
/-- R433: the loss of a rail leads to OFF. -/
theorem test_rail_loss : (after .railLoss up).pm.st = .off := by decide +kernel
/-- R409: an access beyond the debug level ends with SECURITY_DENIED (0x60). -/
theorem test_treadle_denied : (after (.treadleWrite 0x1000 3) (tapped 1)).dbg.tapStatus = 0x60 := by decide +kernel
/-- R361: a drain with nothing to write does not start. -/
theorem test_drain_empty : (after .tallyDrain up).cust.draining = false := by decide +kernel
/-- R352: a retired core waits for the boundary. -/
theorem test_retire_core : ((after (.retireCore 7 65 none) (serviceAt .active up)).core 7 65).service = .retirePending := by
  decide +kernel
/-- R291: no node, no message. -/
theorem test_message_ignored : (after (.normMessage (shortMsg 4)) up).exch = up.exch := by decide +kernel
/-- R303: ABORT with no reshard under way: NOT_ACTIVE (1). -/
theorem test_abort : (after (.reshardAbort none) up).get SX_RESHARD_CMD.STATUS = 1 := by decide +kernel
/-- Table 9.3: a directory that is not ready: DIR_NOT_READY (6). -/
theorem test_directory : (after (.dirRead 3) up).get ST_DESC_CMD.STATUS = 6 := by decide +kernel
/-- R237: no such table (1). -/
theorem test_replace : (after (.replaceRow 63 1) up).get ST_REPLACE_CMD.STATUS = 1 := by decide +kernel
/-- R258: READ64 outside every region: UNMAPPED (2). -/
theorem test_read64 : (after .read64 up).get TM_PAGE_CMD.STATUS = 2 := by decide +kernel
/-- R187: a SERVICE-mode parity error sets FORCED. -/
theorem test_parity : ((after (.spindleParityError 2 3 false) (up.set (SV_CTRL.MODE 2) 0)).spindle 2).forced = true := by decide +kernel
/-- R112: a core that nothing holds on gates. -/
theorem test_gate : ((after (.coreGate 7 65) (onCore 7 65 (fun k => { k with power := .on }) up)).core 7 65).power = .gated := by
  decide +kernel

end Sys2Proof.Tests
end

/-! The register port (family 00_scope): the statements O9, O10, O3, O7, O8 and O27, with the rules they rest on: an odd access, an
access of an offset without a register, a plain write, a read, and a completion on its way out. -/

namespace Sys2Proof.Machine

/-! ## Accesses of the register port (R10, R11) -/

theorem exec_registerWrite (s : State) (off size : Nat) (v : W64) :
    exec (.registerWrite off size v) s = execRegisterWrite off size v s := rfl

theorem exec_rcRead (s : State) (off size : Nat) : exec (.rcRead off size) s = execRcRead off size s := rfl

/-- R10: the accesses that the port does not accept. -/
theorem badAccess_iff {off size : Nat} : badAccess off size = true ↔ size ≠ 8 ∨ off % 8 ≠ 0 ∨ 0x4000000 ≤ off := by
  simp [badAccess, or_assoc]

theorem badAccess_aligned {off : Nat} (ha : off % 8 = 0) (hw : off < 0x4000000) : badAccess off 8 = false := by
  simp [badAccess, ha, hw]

/-- R427: registers lie within the window. -/
theorem findReg_lt {off : Nat} {r : RegWord} (h : findReg off = some r) : off < 0x4000000 := by
  unfold findReg at h
  split at h
  · assumption
  · cases h

/-- R10: an access that is not accepted, where the port answers at all. -/
theorem State.portError_open {s : State} (hst : s.pm.st ≠ .off) (hb : s.boot.stage ≠ .inReset) :
    s.portError = { s with resp := .error } := by
  simp [State.portError, hst, hb]

/-- Table 15.8: a booted engine takes the writes of the offsets that answer in its power state. -/
theorem State.writeGate_up {s : State} {off : Nat} (hb : s.boot.stage = .up) (hst : s.pm.st ≠ .off)
    (hh : s.pm.st = .hold → answersInHold off = true) : s.writeGate off = .made := by
  by_cases h : s.pm.st = .hold
  · simp [State.writeGate, hb, h, hh h]
  · simp [State.writeGate, hb, hst, h]

/-- An accepted write, where the port lets it through. -/
theorem exec_registerWrite_made {s : State} {off : Nat} {v : W64} (hb : badAccess off 8 = false) (hg : s.writeGate off = .made) :
    exec (.registerWrite off 8 v) s = .next { s.writeReg off v with resp := .written } := by
  simp only [exec_registerWrite, execRegisterWrite, hb, Bool.false_eq_true, if_false, State.atPort_made _ hg]

/-- R11: a write where no register is assigned. -/
theorem State.writeReg_unassigned {s : State} {off : Nat} {v : W64} (h : findReg off = none) : s.writeReg off v = s := by
  simp [State.writeReg, h]

/-- R11: what a read shows where no register is assigned. -/
theorem State.shownWord_unassigned {s : State} {off : Nat} (h : findReg off = none) : s.shownWord off = 0 := by
  simp [State.shownWord, h]

/-- R11: a read clears nothing where no register is assigned. -/
theorem State.clearRc_unassigned {s : State} {off : Nat} (h : findReg off = none) : s.clearRc off = s := by
  simp [State.clearRc, h]

/-! ## Reads (R12, Table 0.5) -/

/-- Table 0.5: the word after a read has reset one field of it, where the field is of access RC. -/
def clearField (w : W64) (f : FieldDesc) : W64 := if f.acc == .rc then putBits w f.hi f.lo f.dflt else w

/-- The read-clear of a register is a write of its word, field by field. -/
theorem State.clearRc_assigned {s : State} {off : Nat} {r : RegWord} (h : findReg off = some r) :
    s.clearRc off = s.setWord off (r.fields.foldl clearField (s.word off)) := by
  simp only [State.clearRc, h, List.foldl_filter]
  rfl

theorem onlyRegs_clearRc (s : State) (off : Nat) : onlyRegs s (s.clearRc off) := by
  cases h : findReg off with
  | none => rw [State.clearRc_unassigned h]; exact onlyRegs_refl s
  | some r => rw [State.clearRc_assigned h]; exact onlyRegs_setWord s _ _

theorem State.word_clearRc_ne (s : State) {off off' : Nat} (ho : off' ≠ off) : (s.clearRc off).word off' = s.word off' := by
  cases h : findReg off with
  | none => rw [State.clearRc_unassigned h]
  | some r => rw [State.clearRc_assigned h, State.word_setWord_ne s _ ho]

theorem bitsOf_clearField_self (w : W64) (f : FieldDesc) (hl : f.lo ≤ f.hi) (hh : f.hi < 64) :
    bitsOf (clearField w f).toNat f.hi f.lo =
      if f.acc = .rc then f.dflt % 2 ^ (f.hi + 1 - f.lo) else bitsOf w.toNat f.hi f.lo := by
  by_cases hrc : f.acc = .rc
  · simp only [clearField, hrc, beq_self_eq_true, if_true]
    exact bitsOf_putBits_self _ _ _ _ (by omega) hh
  · simp [clearField, hrc]

theorem bitsOf_clearField_apart (w : W64) (f : FieldDesc) (hi lo : Nat) (hl : f.lo ≤ f.hi) (hh : f.hi < 64)
    (ha : hi < f.lo ∨ f.hi < lo) : bitsOf (clearField w f).toNat hi lo = bitsOf w.toNat hi lo := by
  unfold clearField
  split
  · exact bitsOf_putBits_apart _ _ _ _ _ _ (by omega) hh ha
  · rfl

theorem bitsOf_foldl_clearField_apart (hi lo : Nat) (l : List FieldDesc) (w : W64) (hb : ∀ f ∈ l, f.lo ≤ f.hi ∧ f.hi < 64)
    (ha : ∀ f ∈ l, hi < f.lo ∨ f.hi < lo) : bitsOf (l.foldl clearField w).toNat hi lo = bitsOf w.toNat hi lo := by
  induction l generalizing w with
  | nil => rfl
  | cons a t ih =>
    rw [List.forall_mem_cons] at hb ha
    rw [List.foldl_cons, ih _ hb.2 ha.2, bitsOf_clearField_apart w a hi lo hb.1.1 hb.1.2 ha.1]

/-- R12: each field of a word after a read, by its access code. -/
theorem bitsOf_foldl_clearField (l : List FieldDesc) (w : W64) (h : fieldsApart l = true) :
    ∀ f ∈ l, bitsOf (l.foldl clearField w).toNat f.hi f.lo =
      if f.acc = .rc then f.dflt % 2 ^ (f.hi + 1 - f.lo) else bitsOf w.toNat f.hi f.lo := by
  induction l generalizing w with
  | nil => simp
  | cons a t ih =>
    have hb := fieldsApart_bounds h
    simp only [fieldsApart, Bool.and_eq_true, decide_eq_true_eq, List.all_eq_true, Bool.or_eq_true] at h
    obtain ⟨⟨⟨hl, hh⟩, hapart⟩, ht⟩ := h
    rw [List.forall_mem_cons] at hb
    intro f hf
    rw [List.foldl_cons]
    rcases List.mem_cons.mp hf with rfl | hf
    · rw [bitsOf_foldl_clearField_apart f.hi f.lo t _ hb.2 (fun g hg => (hapart g hg).symm), bitsOf_clearField_self w f hl hh]
    · rw [ih _ ht f hf, bitsOf_clearField_apart w a f.hi f.lo hl hh (hapart f hf)]

/-- R12: a read of a booted engine, at an offset that answers in its power state. -/
theorem State.readPort_up {s : State} {off : Nat} (hb : s.boot.stage = .up) (hst : s.pm.st ≠ .off)
    (hh : s.pm.st = .hold → answersInHold off = true) :
    s.readPort off = { s with regs := (s.clearRc off).regs, resp := .data (s.shownWord off), free := s.free + 1 } := by
  have hread : s.readPort off =
      { s.clearRc off with resp := .data (s.shownWord off), free := (s.clearRc off).free + 1 } := by
    by_cases h : s.pm.st = .hold
    · simp [State.readPort, hb, h, hh h]
    · simp [State.readPort, hb, hst, h]
  have hregs : s.clearRc off = { s with regs := (s.clearRc off).regs } := onlyRegs_clearRc s off
  rw [hread, hregs]

/-- R80: reads of other registers leave the hold-off alone. -/
theorem State.readRegister_ne {s : State} {off : Nat} (h : off ≠ WP_CPL_PENDING.COUNT.off) :
    s.readRegister off = s.readPort off := by
  simp [State.readRegister, h]

/-- R12: a read of a booted engine, at a register other than WP_CPL_PENDING. -/
theorem exec_rcRead_up {s : State} {off : Nat} (hbad : badAccess off 8 = false) (hb : s.boot.stage = .up) (hst : s.pm.st ≠ .off)
    (hh : s.pm.st = .hold → answersInHold off = true) (hc : off ≠ WP_CPL_PENDING.COUNT.off) :
    exec (.rcRead off 8) s =
      .next { s with regs := (s.clearRc off).regs, resp := .data (s.shownWord off), free := s.free + 1 } := by
  rw [exec_rcRead, execRcRead, if_neg (by simp [hbad]), State.readRegister_ne hc, State.readPort_up hb hst hh]
  rfl

/-! ## Writes of plain registers (R12, Table 0.5) -/

theorem mem_insertSorted {i j : Nat} {l : List Nat} : j ∈ insertSorted i l ↔ j = i ∨ j ∈ l := by
  induction l with
  | nil => simp [insertSorted]
  | cons x t ih =>
    simp only [insertSorted]
    split
    · next e => simp [e]
    · split
      · simp
      · simp only [List.mem_cons, ih]; tauto

theorem mem_foldl_insertSorted {j : Nat} {ws l : List Nat} :
    j ∈ ws.foldl (fun l i => insertSorted i l) l ↔ j ∈ ws ∨ j ∈ l := by
  induction ws generalizing l with
  | nil => simp
  | cons w ws ih => rw [List.foldl_cons, ih, mem_insertSorted, List.mem_cons]; tauto

/-- A write of a register changes the window and the record of first writes alone. -/
theorem State.writeFields_frame (s : State) (off : Nat) (v : W64) :
    s.writeFields off v = { s with regs := (s.writeFields off v).regs, locked := (s.writeFields off v).locked } := by
  unfold State.writeFields
  split <;> rfl

/-- The word of a register after a write of it. -/
theorem State.word_writeFields_self {s : State} {off : Nat} {v : W64} {r : RegWord} (h : findReg off = some r) :
    (s.writeFields off v).word off =
      r.fields.foldl (writeField v (fun lo => s.locked.contains (off * 64 + lo))) (s.word off) := by
  simp only [State.writeFields, h]
  exact State.word_setWord_self s off _

/-- Every other word after a write of a register. -/
theorem State.word_writeFields_apart (s : State) {off off' : Nat} (v : W64) (ho : off' ≠ off) :
    (s.writeFields off v).word off' = s.word off' := by
  unfold State.writeFields
  split
  · rfl
  · exact State.word_setWord_ne s _ ho

/-- R12: after a write of its register a WL field has taken its first write. -/
theorem State.locked_writeFields {s : State} {off : Nat} {v : W64} {r : RegWord} {f : FieldDesc} (h : findReg off = some r)
    (hf : f ∈ r.fields) (hwl : f.acc = .wl) : (s.writeFields off v).locked.contains (off * 64 + f.lo) = true := by
  simp only [State.writeFields, h, List.contains_iff_mem, mem_foldl_insertSorted]
  by_cases hl : off * 64 + f.lo ∈ s.locked
  · exact .inr hl
  · exact .inl (List.mem_map.mpr ⟨f, List.mem_filter.mpr ⟨hf, by simp [hwl, hl]⟩, rfl⟩)

/-- R12: a write of a register that has no rule of its own goes by the access codes. -/
theorem State.writeReg_plain {s : State} {off : Nat} {v : W64} {r : RegWord} (h : findReg off = some r)
    (hl : off ≠ SS_LIFECYCLE_CMD.GO.off) (hs : s.writeSpecial off v = none) : s.writeReg off v = s.writeFields off v := by
  have hwrite : s.writeReg off v = s.after (s.writeFields off v) := by simp [State.writeReg, h, hl, hs]
  rw [hwrite, State.after_eq s _ (State.writeFields_pending s off v) (State.writeFields_fuses s off v)]

/-! ## Reset (R13, R386) -/

/-- After reset the window lists one word, that of PM_RESET_CAUSE. -/
theorem State.word_reset {off : Nat} (h : off ≠ 0x800040) : State.reset.word off = resetWord off := by
  simp [State.word, State.reset, mapFind, h]

/-! ## Completions (R65, R76, R79, R80) -/

theorem exec_completionEmit (s : State) (id : BitVec 32) : exec (.completionEmit id) s = execCompletionEmit id s := rfl

theorem exec_completionAccepted (s : State) (id : BitVec 32) : exec (.completionAccepted id) s = execCompletionAccepted id s := rfl

theorem exec_irqDoneHoldoff (s : State) : exec .irqDoneHoldoff s = execIrqDoneHoldoff s := rfl

/-- R287: a bolt that is not remote is found by its own ID among the local ones. -/
theorem State.named_local {s : State} {id : Nat} {ok : Bolt → Bool} {b : Bolt} (h : s.named id ok = some b)
    (hr : b.remote = none) : b ∈ s.weft.bolts ∧ b.id = id ∧ ok b = true := by
  rw [State.named, Option.or_eq_some_iff] at h
  rcases h with h | ⟨-, h⟩
  · have hp := List.find?_some h
    simp only [Bool.and_eq_true, beq_iff_eq] at hp
    exact ⟨List.mem_of_find?_eq_some h, hp⟩
  · have hp := List.find?_some h
    simp [hr] at hp

/-- R287, R288: what a remote bolt answers is none of a local one's. -/
theorem State.mayAnswer_local {s : State} {b : Bolt} (h : b.remote = none) : s.mayAnswer b = false := by
  simp [State.mayAnswer, h]

/-- The bolt found by an ID has it. -/
theorem State.bolt?_id {s : State} {id : Nat} {b : Bolt} (h : s.bolt? id = some b) : b.id = id := by
  simpa using List.find?_some h

/-- A bolt of the table is changed where it is found by its ID. -/
theorem bolt?_modWhere {l : List Bolt} {id : Nat} {f : Bolt → Bolt} (hf : ∀ b, (f b).id = b.id) (h : ∃ b ∈ l, b.id = id) :
    ∃ b, (modWhere (·.id == id) f l).find? (·.id == id) = some (f b) := by
  induction l with
  | nil => simp at h
  | cons a t ih =>
    by_cases ha : a.id = id
    · exact ⟨a, by simp [modWhere, ha, hf]⟩
    · obtain ⟨b, hb, hid⟩ := h
      rcases List.mem_cons.mp hb with rfl | hb
      · exact absurd hid ha
      · obtain ⟨c, hc⟩ := ih ⟨b, hb, hid⟩
        exact ⟨c, by simpa [modWhere, ha] using hc⟩

/-- R314: leaving flying-shuttle mode is the Heddle array's business alone. -/
theorem State.leaveSprint_frame (s : State) (b : Bolt) : s.leaveSprint b = { s with heddle := (s.leaveSprint b).heddle } := by
  unfold State.leaveSprint
  dsimp only
  split <;> split <;> rfl

@[simp] theorem State.leaveSprint_regs (s : State) (b : Bolt) : (s.leaveSprint b).regs = s.regs := by
  rw [State.leaveSprint_frame]

@[simp] theorem State.leaveSprint_weft (s : State) (b : Bolt) : (s.leaveSprint b).weft = s.weft := by
  rw [State.leaveSprint_frame]

/-- R79: what the Weft port has sent, and the bolt's own place, once its completion record is out. -/
def State.sentCompletion (s : State) (b : Bolt) : State :=
  let run := (runHeader 1 1 b.id).flatMap wordBytes ++ b.completion.flatMap wordBytes
  let links := s.weft.links.map (fun x => { x with egress := x.egress.filter (fun e => e.bolt != b.id) })
  (({ s with weft := { s.weft with links := links } }).modLink (s.completionLink b) (fun x => x.send run)).modBolt b.id
    (fun y => { y with st := .emitted })

/-- R79: the counts of a completion, before the bolt leaves flying-shuttle mode. -/
def State.countCompletion (s : State) (b : Bolt) : State :=
  let t := s.bump WP_BOLT_EVENTS.COMPLETED
  let t := if b.status == 0x70 || b.status == 0x71 || b.status == 0x72 then t.bump WP_BOLT_EVENTS.REFUSED else t
  if b.replayed then t.bump WP_BOLT_EVENTS.REPLAYED else t

theorem State.emitCompletion_eq (s : State) (b : Bolt) :
    s.emitCompletion b = ((s.sentCompletion b).countCompletion b).leaveSprint b := rfl

theorem onlyRegs_countCompletion (s : State) (b : Bolt) : onlyRegs s (s.countCompletion b) := by
  unfold State.countCompletion
  dsimp only
  split <;> split <;> rfl

/-- R79: COMPLETED counts a completion; REFUSED and REPLAYED, which may count it too, lie beside it. -/
theorem State.get_countCompletion (s : State) (b : Bolt) : (s.countCompletion b).get WP_BOLT_EVENTS.COMPLETED =
    min (s.get WP_BOLT_EVENTS.COMPLETED + 1) (2 ^ fldWidth WP_BOLT_EVENTS.COMPLETED - 1) := by
  unfold State.countCompletion
  dsimp only
  split <;> split <;> simp (disch := decide) only [State.get_bump_self, State.get_bump_apart]

/-- R79: what follows the completion record changes nothing of the Weft port. -/
theorem State.emitCompletion_weft (s : State) (b : Bolt) : (s.emitCompletion b).weft = (s.sentCompletion b).weft := by
  rw [State.emitCompletion_eq, State.leaveSprint_weft, onlyRegs_countCompletion]

/-- R79: COMPLETED counts the completion that goes out. -/
theorem State.get_emitCompletion (s : State) (b : Bolt) : (s.emitCompletion b).get WP_BOLT_EVENTS.COMPLETED =
    min (s.get WP_BOLT_EVENTS.COMPLETED + 1) (2 ^ fldWidth WP_BOLT_EVENTS.COMPLETED - 1) := by
  rw [State.emitCompletion_eq, State.get_of_regs (State.leaveSprint_regs _ b), State.get_countCompletion]
  rfl

/-- R79: a local bolt that may complete does. -/
theorem exec_completionEmit_local {s : State} {id : BitVec 32} {b : Bolt} (hp : s.powered = true)
    (hn : s.named id.toNat (fun b => s.mayComplete b || s.mayAnswer b) = some b) (hr : b.remote = none) :
    exec (.completionEmit id) s = .next (s.after (s.emitCompletion b)) := by
  simp [exec_completionEmit, execCompletionEmit, hp, hn, State.mayAnswer_local hr, hr]

/-- R80: the host accepts the completion of a bolt that has sent it. -/
theorem exec_completionAccepted_emitted {s : State} {id : BitVec 32} {b : Bolt} (hp : s.powered = true)
    (hb : s.bolt? id.toNat = some b) (he : b.st = .emitted) :
    exec (.completionAccepted id) s = .next (s.after (s.acceptCompletion b)) := by
  simp [exec_completionAccepted, execCompletionAccepted, hp, hb, he]

/-- R80: the hold-off of a counted completion is noted. -/
theorem exec_irqDoneHoldoff_counted {s : State} (hp : s.powered = true) (hc : s.get WP_CPL_PENDING.COUNT ≠ 0) :
    exec .irqDoneHoldoff s = .next { s with weft := { s.weft with holdoffHit := true } } := by
  rw [exec_irqDoneHoldoff, execIrqDoneHoldoff, if_pos (by simp [hp, hc])]
  rfl

/-- R80: a completion that has waited HOLDOFF_US raises ZQ_IRQ_DONE. -/
theorem State.irqDone_holdoff {s : State} (hh : s.weft.holdoffHit = true) (hc : s.get WP_CPL_PENDING.COUNT ≠ 0)
    (he : s.flag WP_IRQ_CTRL.ENABLE = true) : s.irqDone = true := by
  simp [State.irqDone, hh, hc, he]

/-- R80: without a counted completion ZQ_IRQ_DONE is low. -/
theorem State.irqDone_none {s : State} (hc : s.get WP_CPL_PENDING.COUNT = 0) : s.irqDone = false := by
  simp [State.irqDone, hc]

/-- R80: a read of WP_CPL_PENDING leaves COUNT 0. -/
theorem State.get_clearRc_count (s : State) : (s.clearRc WP_CPL_PENDING.COUNT.off).get WP_CPL_PENDING.COUNT = 0 := by
  have hreg : findReg WP_CPL_PENDING.COUNT.off = some ⟨0x1400010, [], [⟨15, 0, .rc, 0⟩]⟩ := by decide +kernel
  rw [State.clearRc_assigned hreg, State.get, State.word_setWord_self]
  exact bitsOf_foldl_clearField _ _ (by decide) ⟨15, 0, .rc, 0⟩ (by simp)

/-- R80: the read of WP_CPL_PENDING at work: COUNT is cleared, and no completion waits. -/
theorem State.readRegister_count {s : State} (hs : s.serving = true) : s.readRegister WP_CPL_PENDING.COUNT.off =
    { s with regs := (s.clearRc WP_CPL_PENDING.COUNT.off).regs, resp := .data (s.shownWord WP_CPL_PENDING.COUNT.off),
             free := s.free + 1, weft := { s.weft with holdoffHit := false } } := by
  simp only [State.serving, State.powered, Bool.and_eq_true, beq_iff_eq, bne_iff_ne] at hs
  obtain ⟨⟨⟨hb, hst⟩, hhold⟩, -⟩ := hs
  have hread := State.readPort_up (off := WP_CPL_PENDING.COUNT.off) hb hst (fun h => absurd h hhold)
  have hcount : (s.readPort WP_CPL_PENDING.COUNT.off).get WP_CPL_PENDING.COUNT = 0 := by
    rw [hread]; exact State.get_clearRc_count s
  have hend : s.readRegister WP_CPL_PENDING.COUNT.off = { s.readPort WP_CPL_PENDING.COUNT.off with
      weft := { (s.readPort WP_CPL_PENDING.COUNT.off).weft with holdoffHit := false } } := by
    simp [State.readRegister, hcount]
  rw [hend, hread]

/-- R12, R80: both rows that read WP_CPL_PENDING are that read. -/
theorem exec_readCount (s : State) :
    exec .cplPendingRead s = .next (s.after (s.readRegister WP_CPL_PENDING.COUNT.off)) ∧
      exec (.rcRead WP_CPL_PENDING.COUNT.off 8) s = .next (s.after (s.readRegister WP_CPL_PENDING.COUNT.off)) := by
  refine ⟨rfl, ?_⟩
  rw [exec_rcRead, execRcRead, if_neg (by decide)]

/-! ## The statements -/

/-- Settles O9: the write is `writeFields`, a fold of `writeField` over fields that lie apart. -/
theorem writesObeyTheAccessCodes : Obligations.WritesObeyTheAccessCodes := by
  intro s off v r ha hgate hl hs hr
  refine ⟨{ s.writeFields off v with resp := .written }, ?_, ?_, fun off' ho => State.word_writeFields_apart s v ho, ?_⟩
  · rw [exec_registerWrite_made (badAccess_aligned ha (findReg_lt hr)) hgate, State.writeReg_plain hr hl hs]
  · rw [State.writeFields_frame s off v]
  · intro f hf
    have hnow : bitsOf ((s.writeFields off v).word off).toNat f.hi f.lo = fieldAfter f.acc (f.hi + 1 - f.lo)
        (s.locked.contains (off * 64 + f.lo)) (bitsOf (s.word off).toNat f.hi f.lo) (bitsOf v.toNat f.hi f.lo) := by
      rw [State.word_writeFields_self hr]
      exact bitsOf_foldl_writeField v _ r.fields (s.word off) (findReg_apart hr) f hf
    refine ⟨fun h => ?_, fun h => ?_, fun h => ?_, fun h => ?_, fun h => ?_, fun h => ?_, State.locked_writeFields hr hf⟩ <;>
      exact hnow.trans (by rw [h]; rfl)

/-- Settles O10: the read is `clearRc`, a fold of `clearField` over fields that lie apart. -/
theorem readsClearOnlyReadClearFields : Obligations.ReadsClearOnlyReadClearFields := by
  intro s off r ha hb hst hh hc hr
  refine ⟨_, exec_rcRead_up (badAccess_aligned ha (findReg_lt hr)) hb hst hh hc, rfl, fun off' ho => State.word_clearRc_ne s ho, ?_⟩
  intro f hf
  have hword : (s.clearRc off).word off = r.fields.foldl clearField (s.word off) := by
    rw [State.clearRc_assigned hr, State.word_setWord_self]
  have hnow := bitsOf_foldl_clearField r.fields (s.word off) (findReg_apart hr) f hf
  rw [← hword] at hnow
  dsimp only
  split
  · next h => rw [if_pos h] at hnow; exact hnow
  · next h => rw [if_neg h] at hnow; exact hnow

/-- Settles O27: each of the four rows by its own lemma above. -/
theorem completionsGoOutAndAreCounted : Obligations.CompletionsGoOutAndAreCounted := by
  intro s id b hp
  refine ⟨fun hn hr => ?_, fun hb he => ?_, fun hc => ?_, fun hs => ?_⟩
  · obtain ⟨hmem, hid, -⟩ := State.named_local hn hr
    have hweft := State.emitCompletion_weft s b
    refine ⟨_, exec_completionEmit_local hp hn hr, ?_, ?_, State.get_emitCompletion s b⟩
    · rw [State.after_weft, hweft]; rfl
    · obtain ⟨c, hc⟩ := bolt?_modWhere (f := fun y => { y with st := .emitted }) (fun _ => rfl) ⟨b, hmem, rfl⟩
      exact ⟨_, by rw [← hid, State.bolt?, State.after_weft, hweft]; exact hc, rfl⟩
  · have hid := State.bolt?_id hb
    refine ⟨_, exec_completionAccepted_emitted hp hb he, ?_, ?_, ?_, fun off ho => ?_⟩
    · rw [← hid]; rfl
    · rw [← hid]
      exact List.find?_eq_none.mpr (fun x hx => by simpa using (List.mem_filter.mp hx).2)
    · exact State.get_bump_self _ WP_CPL_PENDING.COUNT 1 (by decide) (by decide)
    · exact State.word_bump_ne _ WP_CPL_PENDING.COUNT 1 off ho
  · exact ⟨_, exec_irqDoneHoldoff_counted hp hc, rfl, fun he => State.irqDone_holdoff rfl hc he⟩
  · have hread := State.readRegister_count hs
    have hcount := State.get_clearRc_count s
    obtain ⟨h1, h2⟩ := exec_readCount s
    rw [hread] at h1 h2
    exact ⟨_, h1, h2, rfl, hcount, State.irqDone_none hcount, fun off ho => State.word_clearRc_ne s ho, rfl⟩

/-- Settles O3: the window lists one word, and every unit is empty. -/
theorem resetLeavesEveryRegisterAtItsResetValue : Obligations.ResetLeavesEveryRegisterAtItsResetValue := by
  refine ⟨fun off h => State.word_reset h, rfl, ?_, ?_, rfl, rfl, rfl, rfl, rfl, ?_, ?_, ?_, rfl⟩
  · decide +kernel
  · decide +kernel
  · decide +kernel
  · decide +kernel
  · exact ⟨⟨rfl, rfl, rfl, rfl, rfl, rfl, rfl, rfl⟩, rfl, rfl, rfl, rfl, rfl, rfl⟩

/-- Settles O7: an odd access is a `badAccess`, which the port answers with an error before it looks at a register. -/
theorem oddAccessesAreAnsweredWithAnError : Obligations.OddAccessesAreAnsweredWithAnError := by
  intro s off size v hodd hst hb
  have hbad := badAccess_iff.mpr hodd
  constructor
  · rw [exec_registerWrite, execRegisterWrite, if_pos hbad, State.portError_open hst hb]
  · rw [exec_rcRead, execRcRead, if_pos hbad, State.portError_open hst hb]
    rfl

/-- Settles O8: without a register a write writes nothing, and a read shows 0 and clears nothing. -/
theorem unassignedOffsetsReadZeroAndIgnoreWrites : Obligations.UnassignedOffsetsReadZeroAndIgnoreWrites := by
  intro s off v hw ha hr hb hst hhold
  have hbad := badAccess_aligned ha hw
  have hh : s.pm.st = .hold → answersInHold off = true := fun h => absurd h hhold
  have hc : off ≠ WP_CPL_PENDING.COUNT.off := by
    rintro rfl
    exact absurd hr (by decide)
  constructor
  · rw [exec_registerWrite_made hbad (State.writeGate_up hb hst hh), State.writeReg_unassigned hr]
  · rw [exec_rcRead_up hbad hb hst hh hc, State.clearRc_unassigned hr, State.shownWord_unassigned hr]

end Sys2Proof.Machine

/-! The Loom Sequencer's boundary and REBASE (family 01_engine_overview): the statement O17, with the rules it rests on: words of the
window rewritten one after another, the end of a boundary with nothing waiting, and a write of LS_CTRL. -/

namespace Sys2Proof.Machine

/-! ## Words of the window rewritten -/

theorem rewrites_set (s : State) (f : Fld) (v : Nat) : rewrites s (s.set f v) [f.off] :=
  ⟨rfl, fun off ho => State.word_set_ne s f v off (by simpa using ho)⟩

theorem rewrites_trans {s t u : State} {l m n : List Nat} (a : rewrites s t l) (b : rewrites t u m) (hl : l ⊆ n) (hm : m ⊆ n) :
    rewrites s u n := by
  obtain ⟨ha, hwa⟩ := a
  obtain ⟨hb, hwb⟩ := b
  exact ⟨onlyRegs_trans ha hb, fun off ho => (hwb off (fun h => ho (hm h))).trans (hwa off (fun h => ho (hl h)))⟩

/-- The port's answer to a write stands beside the words that the write leaves. -/
theorem rewrites_written {s t : State} {l : List Nat} (h : rewrites s t l) :
    rewrites { s with resp := .written } { t with resp := .written } l := by
  obtain ⟨ht, hw⟩ := h
  exact ⟨congrArg (fun u : State => { u with resp := .written }) ht, hw⟩

theorem State.flag_set_zero (s : State) (f : Fld) (hl : f.lo ≤ f.hi + 1) (hh : f.hi < 64) : (s.set f 0).flag f = false := by
  simp [State.flag, State.get_set_self s f 0 hl hh]

/-- REVOLUTION_VALID is bit 0 of LS_STATUS: every field of another register, and every higher one of its own, stays when it is set. -/
theorem State.get_set_revValid_apart (s : State) (g : Fld) (v : Nat) (ha : g.off ≠ LS_STATUS.REVOLUTION_VALID.off ∨ 0 < g.lo) :
    (s.set LS_STATUS.REVOLUTION_VALID v).get g = s.get g :=
  State.get_set_apart s LS_STATUS.REVOLUTION_VALID g v (by decide) (by decide) (ha.imp_right .inr)

/-! ## The boundary's end (R25) -/

theorem exec_boundaryComplete (s : State) : exec .boundaryComplete s = execBoundaryComplete s := rfl

/-- R25: outside a boundary there is none to end. -/
theorem exec_boundaryComplete_outside {s : State} (h : s.inBoundary = false) : exec .boundaryComplete s = .next s := by
  simp [exec_boundaryComplete, execBoundaryComplete, h]

/-- R25, R249: where nothing waits, the end of the boundary is the fall of IN_BOUNDARY alone. -/
theorem exec_boundaryComplete_atRest {s : State} (hp : s.powered = true) (hb : s.inBoundary = true) (hr : s.atRest) :
    exec .boundaryComplete s = .next (s.set LS_STATUS.IN_BOUNDARY 0) := by
  have hrest : (s.set LS_STATUS.IN_BOUNDARY 0).atRest := hr
  simp only [exec_boundaryComplete, execBoundaryComplete, hp, hb, Bool.not_true, Bool.or_self, Bool.false_eq_true, if_false,
    State.carryOn_atRest hrest]
  rfl

/-! ## Writes of LS_CTRL (R39) -/

/-- LS_CTRL as a write leaves it: written by its access codes, with REBASE at 0 again. -/
def State.ctrlWritten (s : State) (v : W64) : State := (s.writeFields LS_CTRL.REBASE.off v).set LS_CTRL.REBASE 0

theorem rewrites_ctrlWritten (s : State) (v : W64) : rewrites s (s.ctrlWritten v) [LS_CTRL.REBASE.off] :=
  rewrites_trans (rewrites_writeFields (by decide +kernel)) (rewrites_set _ LS_CTRL.REBASE 0) (List.Subset.refl _) (List.Subset.refl _)

@[simp] theorem State.ctrlWritten_phase (s : State) (v : W64) : (s.ctrlWritten v).phase = s.phase :=
  State.get_of_word ((rewrites_ctrlWritten s v).2 LS_STATUS.PHASE.off (by decide))

theorem State.get_ctrlWritten_rebase (s : State) (v : W64) : (s.ctrlWritten v).get LS_CTRL.REBASE = 0 :=
  State.get_set_self _ LS_CTRL.REBASE 0 (by decide) (by decide)

theorem State.get_ctrlWritten_cardsEnable (s : State) (v : W64) :
    (s.ctrlWritten v).get LS_CTRL.CARDS_ENABLE = bitsOf v.toNat 1 1 := by
  have hacc : plainAcc LS_CTRL.CARDS_ENABLE = some .rw := by decide +kernel
  calc (s.ctrlWritten v).get LS_CTRL.CARDS_ENABLE
      = (s.writeFields LS_CTRL.CARDS_ENABLE.off v).get LS_CTRL.CARDS_ENABLE :=
        State.get_set_apart _ LS_CTRL.REBASE LS_CTRL.CARDS_ENABLE 0 (by decide) (by decide) (by decide)
    _ = bitsOf v.toNat 1 1 := State.get_writeFields_acc hacc

/-- R39: a write of LS_CTRL with REBASE at 1 in the IDLE phase clears REVOLUTION_VALID beside it. -/
theorem State.writeLsCtrl_eq (s : State) (v : W64) : s.writeLsCtrl v =
    if bitOf v.toNat 0 = true ∧ s.phase = 0 then (s.ctrlWritten v).set LS_STATUS.REVOLUTION_VALID 0 else s.ctrlWritten v := by
  have hwrite : s.writeLsCtrl v = if bitOf v.toNat 0 && (s.ctrlWritten v).phase == 0 then
      (s.ctrlWritten v).set LS_STATUS.REVOLUTION_VALID 0 else s.ctrlWritten v := rfl
  simp [hwrite]

theorem onlyRegs_writeLsCtrl (s : State) (v : W64) : onlyRegs s (s.writeLsCtrl v) := by
  have hctrl : onlyRegs s (s.ctrlWritten v) := (rewrites_ctrlWritten s v).1
  rw [State.writeLsCtrl_eq]
  split
  · exact onlyRegs_trans hctrl (onlyRegs_set _ _ _)
  · exact hctrl

/-! ## REBASE (R39) -/

/-- The word that REBASE writes to LS_CTRL: REBASE at 1, and CARDS_ENABLE as it stands. -/
def State.rebaseWord (s : State) : W64 := cmdWord [(LS_CTRL.REBASE, 1), (LS_CTRL.CARDS_ENABLE, s.get LS_CTRL.CARDS_ENABLE)]

theorem State.bitOf_rebaseWord (s : State) : bitOf s.rebaseWord.toNat 0 = true := by
  have hbit : bitsOf s.rebaseWord.toNat 0 0 = 1 :=
    (bitsOf_putBits_apart _ 1 1 _ 0 0 (by decide) (by decide) (by decide)).trans
      (bitsOf_putBits_self 0 0 0 1 (by decide) (by decide))
  rw [bitOf_eq_bitsOf, hbit]
  rfl

theorem State.bitsOf_rebaseWord_cardsEnable (s : State) : bitsOf s.rebaseWord.toNat 1 1 = s.get LS_CTRL.CARDS_ENABLE :=
  (bitsOf_putBits_self _ 1 1 _ (by decide) (by decide)).trans (Nat.mod_eq_of_lt (s.get_lt LS_CTRL.CARDS_ENABLE))

theorem exec_rebase (s : State) : exec .rebase s = execRebase s := rfl

/-- REBASE, where the port lets it through, is the write of its word. -/
theorem exec_rebase_made {s : State} (hg : s.writeGate LS_CTRL.REBASE.off = .made) :
    exec .rebase s = .next { s.writeLsCtrl s.rebaseWord with resp := .written } := by
  have honly := onlyRegs_writeLsCtrl s s.rebaseWord
  rw [exec_rebase, execRebase, State.atPort_made _ hg]
  exact congrArg _ (State.after_eq s _ honly.pending honly.fuses)

theorem exec_rebase_idle {s : State} (hg : s.writeGate LS_CTRL.REBASE.off = .made) (hp : s.phase = 0) :
    exec .rebase s = .next { (s.ctrlWritten s.rebaseWord).set LS_STATUS.REVOLUTION_VALID 0 with resp := .written } := by
  rw [exec_rebase_made hg, State.writeLsCtrl_eq, if_pos ⟨s.bitOf_rebaseWord, hp⟩]

theorem exec_rebase_working {s : State} (hg : s.writeGate LS_CTRL.REBASE.off = .made) (hp : s.phase ≠ 0) :
    exec .rebase s = .next { s.ctrlWritten s.rebaseWord with resp := .written } := by
  rw [exec_rebase_made hg, State.writeLsCtrl_eq, if_neg (fun h => hp h.2)]

/-! ## The statement -/

/-- Settles O17: IN_BOUNDARY falls beside the other fields of LS_STATUS, and REBASE is a write of LS_CTRL that in the IDLE phase clears
REVOLUTION_VALID as well. -/
theorem boundaryEndsAndRebaseActsInIdle : Obligations.BoundaryEndsAndRebaseActsInIdle := by
  intro s
  refine ⟨fun hp hb hr => ?_, exec_boundaryComplete_outside, fun hg => ?_⟩
  · refine ⟨_, exec_boundaryComplete_atRest hp hb hr, rewrites_set s _ _, State.flag_set_zero s _ (by decide) (by decide), ?_, ?_⟩
    · exact State.get_set_apart s LS_STATUS.IN_BOUNDARY LS_STATUS.PHASE 0 (by decide) (by decide) (by decide)
    · exact congrArg (· != 0)
        (State.get_set_apart s LS_STATUS.IN_BOUNDARY LS_STATUS.REVOLUTION_VALID 0 (by decide) (by decide) (by decide))
  · have hrebase := s.get_ctrlWritten_rebase s.rebaseWord
    have hcards := (s.get_ctrlWritten_cardsEnable s.rebaseWord).trans s.bitsOf_rebaseWord_cardsEnable
    have hctrl := rewrites_ctrlWritten s s.rebaseWord
    by_cases hp : s.phase = 0
    · refine ⟨_, exec_rebase_idle hg hp, ?_, ?_, fun _ => ⟨?_, ?_, ?_⟩, absurd hp⟩
      · exact (State.get_set_revValid_apart _ LS_CTRL.REBASE 0 (by decide)).trans hrebase
      · exact (State.get_set_revValid_apart _ LS_CTRL.CARDS_ENABLE 0 (by decide)).trans hcards
      · exact rewrites_written (rewrites_trans hctrl (rewrites_set _ LS_STATUS.REVOLUTION_VALID 0) (by simp) (by decide))
      · exact State.flag_set_zero (s.ctrlWritten s.rebaseWord) LS_STATUS.REVOLUTION_VALID (by decide) (by decide)
      · exact ((State.get_set_revValid_apart _ LS_STATUS.PHASE 0 (by decide)).trans (s.ctrlWritten_phase s.rebaseWord)).trans hp
    · exact ⟨_, exec_rebase_working hg hp, hrebase, hcards, fun h => absurd h hp, fun _ => rewrites_written hctrl⟩

end Sys2Proof.Machine

/-! The Loom Sequencer's words, watchdog and card commits (family 02_loom_angle): the statements O13, O16 and O18, with the rules they
rest on: fields of the window set one after another, a fault record read back, and the words of the angle port. -/

namespace Sys2Proof.Machine

/-! ## Fields of the window set one after another -/

theorem rewrites_refl (s : State) (l : List Nat) : rewrites s s l := ⟨rfl, fun _ _ => rfl⟩

theorem rewrites.set {s t : State} {l : List Nat} (h : rewrites s t l) (f : Fld) (v : Nat) (hf : f.off ∈ l) :
    rewrites s (t.set f v) l :=
  rewrites_trans h (rewrites_set t f v) (List.Subset.refl l) (by simpa using hf)

theorem rewrites.bump {s t : State} {l : List Nat} (h : rewrites s t l) (f : Fld) (n : Nat) (hf : f.off ∈ l) :
    rewrites s (t.bump f n) l := h.set f _ hf

theorem rewrites.setWord {s t : State} {l : List Nat} (h : rewrites s t l) (off : Nat) (v : W64) (hf : off ∈ l) :
    rewrites s (t.setWord off v) l :=
  rewrites_trans (m := [off]) h ⟨rfl, fun o ho => State.word_setWord_ne t v (by simpa using ho)⟩ (List.Subset.refl l)
    (by simpa using hf)

/-- What touches the window alone passes the seal of a command. -/
theorem onlyRegs.after {s t : State} (h : onlyRegs s t) : s.after t = t := State.after_eq s t h.pending h.fuses

/-- The port's answer to a write lies beside the window. -/
theorem State.get_written (s : State) (f : Fld) : ({ s with resp := .written } : State).get f = s.get f := rfl

/-! ## Power states -/

/-- Table 15.8: a booted engine that is neither OFF nor in HOLD. -/
theorem State.powered_iff {s : State} : s.powered = true ↔ s.boot.stage = .up ∧ s.pm.st ≠ .off ∧ s.pm.st ≠ .hold := by
  simp [State.powered, and_assoc]

theorem State.powered_of_serving {s : State} (h : s.serving = true) : s.powered = true := by
  simp only [State.serving, Bool.and_eq_true] at h
  exact h.1

theorem State.engineReady_iff {s : State} :
    s.engineReady = true ↔ s.boot.stage = .up ∧ s.pm.st ≠ .off ∧ s.cust.engineFailed = false := by
  simp [State.engineReady, and_assoc]

/-! ## Fault records read back (R341, Table 14.3) -/

/-- R341: the four words of a record, as the ring holds them. -/
theorem State.word_recordFault_ring (s : State) (f : FaultInfo) {i : Nat} (hi : i < 4) :
    (s.recordFault f).word (CU_FAULT_RING.RECORD (s.get CU_FAULT_PTR.SEQ_NEXT % 256) i).off =
      (faultWords s (s.get CU_FAULT_PTR.SEQ_NEXT) f).getD i 0 := by
  obtain ⟨u, -, hw, -, ht⟩ := State.recordFault_shape s f
  have hring : (CU_FAULT_RING.RECORD (s.get CU_FAULT_PTR.SEQ_NEXT % 256) i).off =
      0x2000 + s.get CU_FAULT_PTR.SEQ_NEXT % 256 * 32 + i * 8 := rfl
  have hstand : ∀ (t : State) (g : Fld) (v : Nat), g.off < 0x2000 →
      (t.set g v).word (CU_FAULT_RING.RECORD (s.get CU_FAULT_PTR.SEQ_NEXT % 256) i).off =
        t.word (CU_FAULT_RING.RECORD (s.get CU_FAULT_PTR.SEQ_NEXT % 256) i).off :=
    fun t g v hg => State.word_set_ne t g v _ (by rw [hring]; omega)
  rw [ht, ← hw i hi]
  unfold State.bump
  dsimp only
  split <;> simp (disch := decide) only [hstand]

/-- A record is judged against the pointers of the ring alone. -/
theorem notesFault_of_word {s u t : State} {cls source : Nat}
    (h : u.word CU_FAULT_PTR.SEQ_NEXT.off = s.word CU_FAULT_PTR.SEQ_NEXT.off) (hn : notesFault u t cls source) :
    notesFault s t cls source := by
  have hseq : u.get CU_FAULT_PTR.SEQ_NEXT = s.get CU_FAULT_PTR.SEQ_NEXT := State.get_of_word h
  have hhead : u.get CU_FAULT_PTR.HEAD = s.get CU_FAULT_PTR.HEAD := State.get_of_word h
  simpa only [notesFault, hseq, hhead] using hn

/-- R341: a fault recorded in a state whose ring stands as in `s`: it touches the window alone, and the record holds its detail. -/
theorem State.recordFault_from {s u : State} (f : FaultInfo) (hu : onlyRegs s u)
    (hptr : u.word CU_FAULT_PTR.SEQ_NEXT.off = s.word CU_FAULT_PTR.SEQ_NEXT.off) (hc : f.cls < 256) (hs : f.source < 16)
    (ha : f.action < 16) :
    onlyRegs s (u.recordFault f) ∧ notesFault s (u.recordFault f) f.cls f.source ∧
      (u.recordFault f).word (CU_FAULT_RING.RECORD (s.get CU_FAULT_PTR.SEQ_NEXT % 256) 3).off = BitVec.ofNat 64 f.detail := by
  have hseq : u.get CU_FAULT_PTR.SEQ_NEXT = s.get CU_FAULT_PTR.SEQ_NEXT := State.get_of_word hptr
  have hdetail := State.word_recordFault_ring u f (i := 3) (by decide)
  rw [hseq] at hdetail
  exact ⟨onlyRegs_trans hu (onlyRegs_recordFault u f), notesFault_of_word hptr (notesFault_recordFault u f hc hs ha), hdetail⟩

/-! ## Words of the angle port (R34, R35) -/

theorem exec_angleWord (w : W64) (s : State) : exec (.angleWord w) s = execAngleWord w s := rfl

/-- R34, R35: a ready engine outside HOLD meets a word with its queue. -/
theorem exec_angleWord_ready {s : State} (w : W64) (hr : s.engineReady = true) (hh : s.pm.st ≠ .hold) :
    exec (.angleWord w) s = .next (s.after <| if 4 ≤ s.loom.queue.length then
      ((s.bump LS_ANGLE_EVENTS.OVERRUN).set LS_STATUS.ANGLE_OVERRUN 1).recordFault { cls := 1, source := 1, detail := w.toNat }
    else { s with loom := { s.loom with queue := s.loom.queue ++ [w] } }) := by
  obtain ⟨hb, ho, -⟩ := State.engineReady_iff.mp hr
  simp [exec_angleWord, execAngleWord, hr, hh, hb, ho]

/-- R34: before ENGINE_READY a word is counted. -/
theorem exec_angleWord_early {s : State} (w : W64) (hr : s.engineReady = false) (ho : s.pm.st ≠ .off) (hh : s.pm.st ≠ .hold)
    (hb : s.boot.stage ≠ .inReset) : exec (.angleWord w) s = .next (s.bump LS_ANGLE_EVENTS.EARLY) := by
  have hexec : exec (.angleWord w) s = .next (s.after (s.bump LS_ANGLE_EVENTS.EARLY)) := by
    simp [exec_angleWord, execAngleWord, hr, hh, hb, ho]
  exact hexec

theorem exec_angleWord_closed {s : State} (w : W64) (h : s.pm.st = .off ∨ s.boot.stage = .inReset ∨ s.pm.st = .hold) :
    exec (.angleWord w) s = .next s := by
  rw [exec_angleWord, execAngleWord, if_pos (by simpa [or_assoc] using h), State.after_self]

/-- Settles O13: the word joins the queue, overruns it or comes early, by the state of the engine. -/
theorem angleWordsEnterTheQueue : Obligations.AngleWordsEnterTheQueue := by
  intro s w
  refine ⟨fun hr hh hq => ?_, fun hr hh hq => ?_, fun hr ho hh hb => ?_, exec_angleWord_closed w⟩
  · rw [exec_angleWord_ready w hr hh, if_neg (by omega)]
    rfl
  · have hcount := rewrites.set (rewrites.bump (rewrites_refl s [LS_ANGLE_EVENTS.OVERRUN.off, LS_STATUS.ANGLE_OVERRUN.off])
      LS_ANGLE_EVENTS.OVERRUN 1 (by decide)) LS_STATUS.ANGLE_OVERRUN 1 (by decide)
    obtain ⟨honly, hnote, hdetail⟩ := State.recordFault_from { cls := 1, source := 1, detail := w.toNat } hcount.1
      (hcount.2 CU_FAULT_PTR.SEQ_NEXT.off (by decide)) (by simp) (by simp) (by simp)
    rw [exec_angleWord_ready w hr hh, if_pos hq, honly.after]
    refine ⟨_, rfl, honly, ?_, ?_, hnote, hdetail.trans (by simp)⟩
    · rw [State.get_recordFault_apart _ _ _ (by decide) (by decide) (by decide) (by decide),
        State.get_set_apart _ _ _ _ (by decide) (by decide) (by decide), State.get_bump_self s _ _ (by decide) (by decide)]
      rfl
    · rw [State.get_recordFault_apart _ _ _ (by decide) (by decide) (by decide) (by decide)]
      exact State.get_set_self _ _ _ (by decide) (by decide)
  · exact ⟨_, exec_angleWord_early w hr ho hh hb, rewrites_set s _ _, State.get_bump_self s _ _ (by decide) (by decide)⟩

/-! ## The watchdog (R43, R44) -/

theorem exec_angleWatchdogExpiry (s : State) : exec .angleWatchdogExpiry s = execAngleWatchdogExpiry s := rfl

/-- R43, R44: the expiry of a watchdog that runs and has not expired. -/
theorem exec_angleWatchdogExpiry_runs {s : State} (hs : s.serving = true) (hv : s.revValid = true) (hp : s.phase ≠ 0)
    (hl : s.get LS_ANGLE_WATCHDOG.LIMIT_US ≠ 0) (hh : s.engineHalted = false) (hst : s.flag LS_STATUS.ANGLE_STALL = false) :
    exec .angleWatchdogExpiry s = .next (s.after
      ((s.set LS_STATUS.ANGLE_STALL 1).recordFault { cls := 2, source := 1, detail := s.angle.toNat })) := by
  simp [exec_angleWatchdogExpiry, execAngleWatchdogExpiry, hs, hv, hp, hl, hh, hst]

/-- Settles O16: the expiry is one fault record after ANGLE_STALL, or nothing. -/
theorem angleWatchdogExpiryIsRecorded : Obligations.AngleWatchdogExpiryIsRecorded := by
  intro s
  refine ⟨fun hs hv hp hl hh hst => ?_, fun h => ?_⟩
  · have hstall := rewrites_set s LS_STATUS.ANGLE_STALL 1
    obtain ⟨honly, hnote, hdetail⟩ := State.recordFault_from { cls := 2, source := 1, detail := s.angle.toNat } hstall.1
      (hstall.2 CU_FAULT_PTR.SEQ_NEXT.off (by decide)) (by simp) (by simp) (by simp)
    rw [exec_angleWatchdogExpiry_runs hs hv hp hl hh hst, honly.after]
    refine ⟨_, rfl, honly, ?_, ?_, hnote, hdetail.trans (by simp)⟩
    · rw [State.get_recordFault_apart _ _ _ (by decide) (by decide) (by decide) (by decide)]
      exact State.get_set_self _ _ _ (by decide) (by decide)
    · exact (State.word_recordFault_apart _ _ LS_ANGLE_CURRENT.ANGLE.off (by decide) (by decide) (by decide) (by decide)).trans
        (State.word_set_ne _ _ _ _ (by decide))
  · rw [exec_angleWatchdogExpiry, execAngleWatchdogExpiry, if_neg, State.after_self]
    rcases h with h | h | h <;> simp [h]

/-! ## Card commits (R49, R50) -/

theorem exec_cardCommit (s : State) : exec .cardCommit s = execCardCommit s := rfl

@[simp] theorem State.writeCardCommit_pending (s : State) (v : W64) : (s.writeCardCommit v).pending = s.pending := by
  unfold State.writeCardCommit
  split
  · rfl
  · split <;> simp only [State.set_pending]

@[simp] theorem State.writeCardCommit_fuses (s : State) (v : W64) : (s.writeCardCommit v).fuses = s.fuses := by
  unfold State.writeCardCommit
  split
  · rfl
  · split <;> simp only [State.set_fuses]

/-- R49: a request, where the port lets it through, is a write of COMMIT at 1. -/
theorem exec_cardCommit_made {s : State} (hg : s.writeGate LS_CARD_COMMIT.COMMIT.off = .made) :
    exec .cardCommit s = .next { s.writeCardCommit 1 with resp := .written } := by
  rw [exec_cardCommit, execCardCommit, State.atPort_made _ hg]
  exact congrArg _ (State.after_eq s _ (s.writeCardCommit_pending 1) (s.writeCardCommit_fuses 1))

/-- R50: while a validated commit waits, a request changes nothing. -/
theorem State.writeCardCommit_waiting {s : State} (h : s.loom.commitValid = true) : s.writeCardCommit 1 = s := by
  simp [State.writeCardCommit, h]

/-- R49: no card of the shadow bank fails. -/
theorem State.writeCardCommit_valid {s : State} (h : s.loom.commitValid = false)
    (hc : ∀ c ∈ s.cards shadowBank, cardReason c.2 = 0) : s.writeCardCommit 1 =
      ({ s with loom := { s.loom with commitValid := true } }.set LS_CARD_COMMIT.COMMIT 1).set LS_STATUS.CARD_COMMIT_PENDING 1 := by
  have hnone : (s.cards shadowBank).find? (fun c => cardReason c.2 != 0) = none :=
    List.find?_eq_none.mpr (fun c hm => by simp [hc c hm])
  rw [State.writeCardCommit, if_neg (by simp [h]; decide), hnone]

/-- R49: the first card that fails, with its reason. -/
theorem State.writeCardCommit_failed {s : State} {c : Nat × Nat} (h : s.loom.commitValid = false)
    (hc : (s.cards shadowBank).find? (fun c => cardReason c.2 != 0) = some c) : s.writeCardCommit 1 =
      (((s.set LS_CARD_COMMIT.COMMIT 0).set LS_CARD_STATUS.FIRST_BAD_INDEX c.1).set LS_CARD_STATUS.REASON
        (cardReason c.2)).set LS_CARD_STATUS.COMMIT_FAILED 1 := by
  rw [State.writeCardCommit, if_neg (by simp [h]; decide), hc]

/-- R49: what a failed validation leaves in the window. -/
theorem State.writeCardCommit_failed_shows {s : State} {c : Nat × Nat} (h : s.loom.commitValid = false)
    (hc : (s.cards shadowBank).find? (fun c => cardReason c.2 != 0) = some c) :
    let t := s.writeCardCommit 1
    rewrites s t [LS_CARD_COMMIT.COMMIT.off, LS_CARD_STATUS.COMMIT_FAILED.off] ∧ t.get LS_CARD_COMMIT.COMMIT = 0 ∧
      t.get LS_CARD_STATUS.COMMIT_FAILED = 1 ∧ t.get LS_CARD_STATUS.FIRST_BAD_INDEX = c.1 % 2 ^ 13 ∧
      t.get LS_CARD_STATUS.REASON = cardReason c.2 % 2 ^ 8 := by
  dsimp only
  rw [State.writeCardCommit_failed h hc]
  refine ⟨((((rewrites_refl s _).set _ _ (by decide)).set _ _ (by decide)).set _ _ (by decide)).set _ _ (by decide), ?_⟩
  simp (disch := decide) only [State.get_set_self, State.get_set_apart]
  exact ⟨rfl, rfl, rfl, rfl⟩

/-- Settles O18: the shadow bank is searched for the first card that fails. -/
theorem cardCommitValidatesTheShadowBank : Obligations.CardCommitValidatesTheShadowBank := by
  intro s hg
  refine ⟨fun h => ?_, fun h hc => ?_, fun c h hc => ?_⟩
  · rw [exec_cardCommit_made hg, State.writeCardCommit_waiting h]
  · rw [exec_cardCommit_made hg, State.writeCardCommit_valid h hc]
    refine ⟨_, rfl, rewrites_written (((rewrites_refl _ _).set _ _ (by decide)).set _ _ (by decide)), ?_, ?_⟩
    · exact (State.get_set_apart _ LS_STATUS.CARD_COMMIT_PENDING LS_CARD_COMMIT.COMMIT _ (by decide) (by decide) (by decide)).trans
        (State.get_set_self _ LS_CARD_COMMIT.COMMIT 1 (by decide) (by decide))
    · exact State.get_set_self _ LS_STATUS.CARD_COMMIT_PENDING 1 (by decide) (by decide)
  · obtain ⟨hrewrites, hcommit, hfailed, hindex, hreason⟩ := State.writeCardCommit_failed_shows h hc
    exact ⟨_, exec_cardCommit_made hg, rewrites_written hrewrites, hcommit, hfailed, hindex, hreason⟩

end Sys2Proof.Machine

/-! Classification of angle words (family 02_loom_angle): the statements O14 and O15, with the rules they rest on: an attempt that asks
for no tile, the classes of Table 2.4, a rejected word, and an accepted word that finds no bolt, no breakpoint and no card. -/

namespace Sys2Proof.Machine

/-! ## Attempts that ask for no tile (R249) -/

/-- R249: the state in which an attempt tries its operation. -/
def State.opened (s : State) : State := { s with tiers := { s.tiers with trying := true, wanted := [], starved := false } }

theorem State.opened_set (s : State) (f : Fld) (v : Nat) : s.opened.set f v = (s.set f v).opened := rfl
theorem State.opened_bump (s : State) (f : Fld) (n : Nat) : s.opened.bump f n = (s.bump f n).opened := rfl
theorem State.opened_setWord (s : State) (off : Nat) (v : W64) : s.opened.setWord off v = (s.setWord off v).opened := rfl

/-- R249: an attempt of an operation that asks for no tile takes the operation's effect. -/
theorem State.attempt_opened {s t : State} {op : State → State} (ht : s.tiers.trying = false) (hop : op s.opened = t.opened)
    (htt : t.tiers.trying = false) (htw : t.tiers.wanted = []) (hts : t.tiers.starved = false) : s.attempt op = (t, true) := by
  have hend : s.attempt op = ({ t with tiers := { t.tiers with trying := false, wanted := [], starved := false } }, true) := by
    unfold State.opened at hop
    simp [State.attempt, ht, hop]
  rw [hend, State.marks_same htt htw hts]

/-- A state stands at rest by its tiers, its tables and its exchange. -/
theorem State.atRest_of {s t : State} (h : s.atRest) (ht : t.tiers = s.tiers) (hk : t.skein = s.skein) (he : t.exch = s.exch) :
    t.atRest := by
  unfold State.atRest State.workIdle exchangeIdle at *
  rwa [ht, hk, he]

/-! ## The classes (Table 2.4) -/

theorem State.classOf_unadmitted {s : State} {w : W64} (h : admits (anglePhase w) (anglePass w) = false) :
    s.classOf w = .illegal := by
  simp [State.classOf, h]

theorem State.classOf_opening {s : State} {w : W64} (ha : admits (anglePhase w) (anglePass w) = true)
    (h : s.revValid = false ∨ s.revolution < angleRev w) : s.classOf w = .opening := by
  rcases h with h | h <;> simp [State.classOf, ha, h]

theorem State.classOf_earlier {s : State} {w : W64} (ha : admits (anglePhase w) (anglePass w) = true) (hv : s.revValid = true)
    (h : angleRev w < s.revolution) : s.classOf w = .backward := by
  simp [State.classOf, ha, hv, h, Nat.lt_asymm h]

/-- Table 2.4: within the current revolution the phase decides, then the ordinal. -/
theorem State.classOf_within {s : State} {w : W64} (ha : admits (anglePhase w) (anglePass w) = true) (hv : s.revValid = true)
    (h : angleRev w = s.revolution) : s.classOf w =
      if anglePhase w = s.phase then
        if s.phase = 0 then .again
        else if angleOrdinal s.angle < angleOrdinal w then .advance
        else if angleOrdinal w = angleOrdinal s.angle then .again else .backward
      else .illegal := by
  by_cases hp : anglePhase w = s.phase
  · rw [hp] at ha
    simp [State.classOf, ha, hv, h, hp]
  · simp [State.classOf, ha, hv, h, hp]

/-- An advance word is one of the current revolution and phase. -/
theorem State.classOf_advance_phase {s : State} {w : W64} (h : s.classOf w = .advance) : anglePhase w = s.phase := by
  by_contra hp
  have hbad : s.classOf w ≠ .advance := by
    simp only [State.classOf, bne_iff_ne.mpr hp, if_true]
    split_ifs <;> simp
  exact hbad h

/-! ## A word at the head of the queue (R36 to R41) -/

theorem exec_angleClassify (s : State) : exec .angleClassify s = execAngleClassify s := rfl

/-- R36 to R41, R249: with nothing waiting, a word whose acceptance asks for no tile takes its effect and nothing follows it. -/
theorem exec_angleClassify_free {s t : State} {w : W64} {rest : List W64} (hs : s.serving = true) (hr : s.atRest)
    (ha : s.loom.actions = []) (hf : s.flag BD_DBG_CTRL.FREEZE_ANGLE = false) (hq : s.loom.queue = w :: rest)
    (hop : s.opened.classifyWord w rest = t.opened) (ht : t.atRest) (hp : t.pending = s.pending) (hfu : t.fuses = s.fuses) :
    exec .angleClassify s = .next t := by
  obtain ⟨⟨htry, -⟩, -⟩ := hr
  obtain ⟨htt, htw, hts, -⟩ := id ht.1
  have hmade : exec .angleClassify s = .next (s.after (s.attempt (fun s => s.classifyWord w rest)).1.carryOn) := by
    simp [exec_angleClassify, execAngleClassify, hs, ha, hf, hq]
  rw [hmade, State.attempt_opened htry hop htt htw hts, State.carryOn_atRest ht, State.after_eq s t hp hfu]

/-- R36: the word leaves the queue. -/
def State.dequeued (s : State) (rest : List W64) : State := { s with loom := { s.loom with queue := rest } }

theorem State.classifyWord_opened (s : State) (w : W64) (rest : List W64) :
    s.opened.classifyWord w rest = ((s.dequeued rest).opened).takeWord w (s.classOf w) := rfl

/-- R37: what a rejected word leaves, by the counter of its class. -/
theorem State.rejectWord_shows (s : State) (w : W64) {c : Fld} (hc : c = LS_ANGLE_EVENTS.ILLEGAL ∨ c = LS_ANGLE_EVENTS.BACKWARD) :
    let t := s.rejectWord w c
    rewrites s t [LS_ANGLE_REJECTED.ANGLE.off, LS_ANGLE_EVENTS.ILLEGAL.off, LS_STATUS.ANGLE_REJECT.off] ∧
      t.word LS_ANGLE_REJECTED.ANGLE.off = w ∧ t.get c = min (s.get c + 1) 65535 ∧ t.get LS_STATUS.ANGLE_REJECT = 1 ∧
      t.angle = s.angle ∧ t.phase = s.phase ∧ t.revValid = s.revValid := by
  have hoff : c.off = LS_ANGLE_EVENTS.ILLEGAL.off := by rcases hc with rfl | rfl <;> rfl
  have htop : 2 ^ fldWidth c - 1 = 65535 := by rcases hc with rfl | rfl <;> rfl
  have hlo : c.lo ≤ c.hi + 1 := by rcases hc with rfl | rfl <;> decide
  have hhi : c.hi < 64 := by rcases hc with rfl | rfl <;> decide
  have hcount : (s.setWord LS_ANGLE_REJECTED.ANGLE.off w).get c = s.get c :=
    State.get_of_word (State.word_setWord_ne s w (by rw [hoff]; decide))
  have hstatus : ∀ g : Fld, g.off = LS_STATUS.ANGLE_REJECT.off → g.hi < LS_STATUS.ANGLE_REJECT.lo ∨ LS_STATUS.ANGLE_REJECT.hi < g.lo →
      (s.rejectWord w c).get g = s.get g := fun g hg hb =>
    (State.get_set_apart _ LS_STATUS.ANGLE_REJECT g 1 (by decide) (by decide) (.inr hb)).trans (State.get_of_word
      ((State.word_bump_ne _ c 1 g.off (by rw [hg, hoff]; decide)).trans (State.word_setWord_ne s w (by rw [hg]; decide))))
  refine ⟨(((rewrites_refl s _).setWord _ w (by decide)).bump c 1 (by rw [hoff]; decide)).set _ 1 (by decide), ?_, ?_,
    State.get_set_self _ _ 1 (by decide) (by decide), ?_, hstatus LS_STATUS.PHASE rfl (by decide), ?_⟩
  · exact (State.word_set_ne _ LS_STATUS.ANGLE_REJECT 1 _ (by decide)).trans
      ((State.word_bump_ne _ c 1 _ (by rw [hoff]; decide)).trans (State.word_setWord_self s _ w))
  · rw [State.rejectWord, State.get_set_apart _ _ c 1 (by decide) (by decide) (.inl (by rw [hoff]; decide)),
      State.get_bump_self _ c 1 hlo hhi, hcount, htop]
  · exact (State.word_set_ne _ LS_STATUS.ANGLE_REJECT 1 _ (by decide)).trans
      ((State.word_bump_ne _ c 1 _ (by rw [hoff]; decide)).trans (State.word_setWord_ne s w (by decide)))
  · exact congrArg (· != 0) (hstatus LS_STATUS.REVOLUTION_VALID rfl (by decide))

theorem State.takeWord_rejected {s : State} {w : W64} {k : WordClass} {c : Fld}
    (h : (k = .illegal ∧ c = LS_ANGLE_EVENTS.ILLEGAL) ∨ (k = .backward ∧ c = LS_ANGLE_EVENTS.BACKWARD)) :
    s.opened.takeWord w k = (s.rejectWord w c).opened := by
  rcases h with ⟨rfl, rfl⟩ | ⟨rfl, rfl⟩ <;>
    rw [State.takeWord, State.rejectWord, State.opened_setWord, State.opened_bump, State.opened_set, State.rejectWord]

/-- A step that rewrites words of a state at rest leaves it at rest. -/
theorem State.atRest_of_rewrites {s t : State} {l : List Nat} (h : s.atRest) (ht : rewrites s t l) : t.atRest := by
  obtain ⟨ht, -⟩ := ht
  exact State.atRest_of h (by rw [ht]) (by rw [ht]) (by rw [ht])

/-- Settles O14: the table by its rows, and a rejected or repeated word as the rewriting of its counters. -/
theorem wordsAreClassedAndTheRejectedChangeNothing : Obligations.WordsAreClassedAndTheRejectedChangeNothing := by
  intro s w
  refine ⟨State.classOf_unadmitted, State.classOf_opening, fun ha hv => ⟨State.classOf_earlier ha hv, fun hr hp => ?_,
    fun hr hp h0 => ?_, fun hr hp h0 => ⟨fun ho => ?_, fun ho => ?_, fun ho => ?_⟩⟩, fun rest hs hr ha hf hq => ⟨fun c hc => ?_,
    fun hc => ?_⟩⟩
  · rw [State.classOf_within ha hv hr, if_neg hp]
  · rw [State.classOf_within ha hv hr, if_pos hp, if_pos h0]
  · rw [State.classOf_within ha hv hr, if_pos hp, if_neg h0, if_pos ho]
  · rw [State.classOf_within ha hv hr, if_pos hp, if_neg h0, if_neg (by omega), if_pos ho]
  · rw [State.classOf_within ha hv hr, if_pos hp, if_neg h0, if_neg (by omega), if_neg (by omega)]
  · have hshows := (s.dequeued rest).rejectWord_shows w (c := c) (hc.imp And.right And.right)
    have honly : onlyRegs (s.dequeued rest) ((s.dequeued rest).rejectWord w c) := hshows.1.1
    have hrest : (s.dequeued rest).atRest := State.atRest_of hr rfl rfl rfl
    refine ⟨_, exec_angleClassify_free hs hr ha hf hq ?_ (State.atRest_of_rewrites hrest hshows.1) ?_ ?_, hshows⟩
    · rw [State.classifyWord_opened, State.takeWord_rejected hc]
    · exact honly.pending
    · exact honly.fuses
  · have hcount := rewrites_set (s.dequeued rest) LS_ANGLE_EVENTS.REPEAT
      (min ((s.dequeued rest).get LS_ANGLE_EVENTS.REPEAT + 1) (2 ^ fldWidth LS_ANGLE_EVENTS.REPEAT - 1))
    have hrest : (s.dequeued rest).atRest := State.atRest_of hr rfl rfl rfl
    refine ⟨_, exec_angleClassify_free hs hr ha hf hq ?_ (State.atRest_of_rewrites hrest hcount) rfl rfl, hcount,
      State.get_bump_self (s.dequeued rest) _ 1 (by decide) (by decide), State.word_set_ne _ _ _ _ (by decide)⟩
    rw [State.classifyWord_opened, hc]
    rfl

/-! ## An accepted word (R40, R285) -/

/-- R40: what the accepted word leaves in the window. -/
theorem State.setAngle_shows (s : State) (w : W64) :
    let t := s.setAngle w
    rewrites s t [LS_ANGLE_CURRENT.ANGLE.off, LS_STATUS.PHASE.off] ∧ t.angle = w ∧ t.phase = anglePhase w ∧
      t.get LS_STATUS.PASS = anglePass w ∧ t.revValid = true ∧ t.get LS_STATUS.ANGLE_STALL = 0 := by
  have hphase : anglePhase w % 2 ^ fldWidth LS_STATUS.PHASE = anglePhase w := Nat.mod_eq_of_lt (bitsOf_lt w.toNat 63 62)
  have hpass : anglePass w % 2 ^ fldWidth LS_STATUS.PASS = anglePass w := Nat.mod_eq_of_lt (bitsOf_lt w.toNat 61 60)
  refine ⟨?_, ?_, ?_, ?_, ?_, State.get_set_self _ _ 0 (by decide) (by decide)⟩
  · exact (((((rewrites_refl s _).setWord _ w (by decide)).set _ _ (by decide)).set _ _ (by decide)).set _ _ (by decide)).set _ _
      (by decide)
  · simp (disch := decide) only [State.angle, State.setAngle, State.word_set_ne]
    exact State.word_setWord_self s _ w
  · simp (disch := decide) only [State.phase, State.setAngle, State.get_set_apart, State.get_set_self, hphase]
  · simp (disch := decide) only [State.setAngle, State.get_set_apart, State.get_set_self, hpass]
  · simp (disch := decide) only [State.revValid, State.flag, State.setAngle, State.get_set_apart, State.get_set_self]
    rfl

theorem State.openBolts_none {s : State} (h : s.weft.bolts = []) : s.openBolts = s := by simp [State.openBolts, h]

theorem State.openedOrders_none {s : State} (h : s.weft.bolts = []) : s.openedOrders = s := by
  simp [State.openedOrders, h, sortBy]

theorem State.learnWord_other {s : State} {w : W64} (h : s.phase ≠ 2) : s.learnWord w = s := by simp [State.learnWord, h]

/-- R417: without an enabled breakpoint none is hit. -/
theorem State.breakAngle_none {s : State} {w : W64} (h : ∀ i < 16, s.flag (BD_DBG_BP.ENABLE i) = false) : s.breakAngle w = s := by
  have hfold : ∀ l : List Nat, (∀ i ∈ l, i < 16) → l.foldl (fun s i =>
      if s.flag (BD_DBG_BP.ENABLE i) && s.get (BD_DBG_BP.KIND i) == 0 &&
          (w ^^^ s.word (BD_DBG_BP.VALUE i).off) &&& s.word (BD_DBG_BP.MASK i).off == 0 then
        s.debugHit 1 i (BD_DBG_BP.ENABLE i).off none
      else s) s = s := by
    intro l hl
    induction l with
    | nil => rfl
    | cons i l ih =>
      rw [List.forall_mem_cons] at hl
      simpa [h i hl.1] using ih hl.2
  unfold State.breakAngle
  split
  · rfl
  · exact hfold _ (fun i hi => List.mem_range.mp hi)

theorem State.matchCards_disabled {s : State} {w : W64} (h : s.flag LS_CTRL.CARDS_ENABLE = false) : s.matchCards w = s := by
  simp [State.matchCards, h]

theorem State.launchMain_none {s : State} (h : s.exch.rounds = []) :
    s.launchMain = { s with exch := { s.exch with roundDone := true } } := by
  simp [State.launchMain, h]

/-- R286: the deadline of an accepted word begins anew. -/
def State.newRound (s : State) : State := { s with exch := { s.exch with roundDone := false, deadlineNs := 0 } }

theorem State.word_newRound (s : State) (off : Nat) : s.newRound.word off = s.word off := rfl
theorem State.flag_newRound (s : State) (f : Fld) : s.newRound.flag f = s.flag f := rfl
theorem State.get_newRound (s : State) (f : Fld) : s.newRound.get f = s.get f := rfl
theorem State.phase_newRound (s : State) : s.newRound.phase = s.phase := rfl
theorem State.revValid_newRound (s : State) : s.newRound.revValid = s.revValid := rfl
theorem State.angle_newRound (s : State) : s.newRound.angle = s.angle := rfl

theorem State.broadcast_eq (s : State) (w : W64) :
    s.broadcast w = (((s.setAngle w).openBolts.openedOrders.newRound.learnWord w).breakAngle w).matchCards w := rfl

theorem breakpoint_off_ne {i : Nat} (hi : i < 16) :
    (BD_DBG_BP.ENABLE i).off ∉ [LS_ANGLE_CURRENT.ANGLE.off, LS_STATUS.PHASE.off] := by
  have hall : ∀ i < 16, (BD_DBG_BP.ENABLE i).off ∉ [LS_ANGLE_CURRENT.ANGLE.off, LS_STATUS.PHASE.off] := by decide
  exact hall i hi

/-- R40, R285: a word outside the LEARN phase that finds no bolt, no breakpoint and no card becomes the current word. -/
theorem State.broadcast_alone {s : State} {w : W64} (hb : s.weft.bolts = []) (hp : anglePhase w ≠ 2)
    (hc : s.flag LS_CTRL.CARDS_ENABLE = false) (hbp : ∀ i < 16, s.flag (BD_DBG_BP.ENABLE i) = false) :
    s.broadcast w = (s.setAngle w).newRound := by
  obtain ⟨⟨hframe, hword⟩, -, hphase, -⟩ := s.setAngle_shows w
  have hbolts : (s.setAngle w).weft.bolts = [] := by rw [hframe]; exact hb
  have hflag : ∀ f : Fld, f.off ∉ [LS_ANGLE_CURRENT.ANGLE.off, LS_STATUS.PHASE.off] → s.flag f = false →
      (s.setAngle w).newRound.flag f = false := fun f hf h => by
    rw [State.flag_newRound, State.flag_of_word (hword f.off hf), h]
  have hlearn : (s.setAngle w).newRound.phase ≠ 2 := by rwa [State.phase_newRound, hphase]
  have hbreak : ∀ i < 16, (s.setAngle w).newRound.flag (BD_DBG_BP.ENABLE i) = false := fun i hi =>
    hflag _ (breakpoint_off_ne hi) (hbp i hi)
  rw [State.broadcast_eq, State.openBolts_none hbolts, State.openedOrders_none hbolts, State.learnWord_other hlearn,
    State.breakAngle_none hbreak, State.matchCards_disabled (hflag _ (by decide) hc)]

/-- R285: the round of the word before is over. -/
def State.roundOver (s : State) : State := { s with exch := { s.exch with roundDone := true } }

theorem State.takeWord_advance {s : State} {w : W64} (h : s.exch.rounds = []) :
    s.opened.takeWord w .advance = s.roundOver.opened.broadcast w := by
  rw [State.takeWord, State.launchMain_none (s := s.opened) h]
  rfl

theorem State.opened_setAngle (s : State) (w : W64) : s.opened.setAngle w = (s.setAngle w).opened := by
  unfold State.setAngle
  dsimp only
  rw [State.opened_setWord, State.opened_set, State.opened_set, State.opened_set, State.opened_set]

theorem State.opened_newRound (s : State) : s.opened.newRound = s.newRound.opened := rfl

theorem State.roundOver_set (s : State) (f : Fld) (v : Nat) : s.roundOver.set f v = (s.set f v).roundOver := rfl
theorem State.roundOver_setWord (s : State) (off : Nat) (v : W64) : s.roundOver.setWord off v = (s.setWord off v).roundOver := rfl

theorem State.roundOver_setAngle (s : State) (w : W64) : s.roundOver.setAngle w = (s.setAngle w).roundOver := by
  unfold State.setAngle
  dsimp only
  rw [State.roundOver_setWord, State.roundOver_set, State.roundOver_set, State.roundOver_set, State.roundOver_set]

/-- An accepted word's new round forgets that the one before it is over. -/
theorem State.roundOver_newRound (s : State) : s.roundOver.newRound = s.newRound := rfl

/-- R40, R285: an advance word under the same conditions, tried in a state whose exchange has no round. -/
theorem State.takeWord_advance_alone {s : State} {w : W64} (hx : s.exch.rounds = []) (hb : s.weft.bolts = [])
    (hp : anglePhase w ≠ 2) (hc : s.flag LS_CTRL.CARDS_ENABLE = false) (hbp : ∀ i < 16, s.flag (BD_DBG_BP.ENABLE i) = false) :
    s.opened.takeWord w .advance = (s.setAngle w).newRound.opened := by
  rw [State.takeWord_advance hx, State.broadcast_alone (s := s.roundOver.opened) hb hp hc hbp, State.opened_setAngle,
    State.roundOver_setAngle, State.opened_newRound, State.roundOver_newRound]

/-- Settles O15: the advance word is `setAngle`, with the deadline of its round begun anew. -/
theorem advanceWordBecomesCurrent : Obligations.AdvanceWordBecomesCurrent := by
  intro s w rest hs hr ha hf hq hclass hphase hb hc hbp
  have hp1 : anglePhase w = 1 := (State.classOf_advance_phase hclass).trans hphase
  obtain ⟨⟨hframe, hword⟩, hangle, hph, hpass, hrev, hstall⟩ := (s.dequeued rest).setAngle_shows w
  obtain ⟨hwork, hidle⟩ := id hr
  have hend : ∀ u : State, onlyRegs (s.dequeued rest) u → u.newRound.atRest ∧ u.newRound.pending = s.pending ∧
      u.newRound.fuses = s.fuses ∧ u.newRound.loom = { s.loom with queue := rest } := fun u hu => by
    rw [hu]
    exact ⟨⟨hwork, hidle⟩, rfl, rfl, rfl⟩
  obtain ⟨hrest, hpending, hfuses, hloom⟩ := hend _ hframe
  have hop : s.opened.classifyWord w rest = ((s.dequeued rest).setAngle w).newRound.opened := by
    rw [State.classifyWord_opened, hclass]
    exact State.takeWord_advance_alone hidle.1 hb (by omega) hc hbp
  refine ⟨_, exec_angleClassify_free hs hr ha hf hq hop hrest hpending hfuses, ?_, ?_, ?_, ?_, ?_, ?_, ?_, fun off h1 h2 => ?_⟩
  · rw [State.angle_newRound, hangle]
  · rw [State.phase_newRound, hph, hp1]
  · rw [State.get_newRound, hpass]
  · rw [State.revValid_newRound, hrev]
  · rw [State.get_newRound, hstall]
  · rw [hloom]
  · rw [hloom, ha]
  · rw [State.word_newRound, hword off (by simp [h1, h2])]
    rfl

end Sys2Proof.Machine

/-! What an admitted order does (Table 2.7; family 02_loom_angle): the rules on which O19 and O20 rest. The pins of a set, Harnesses
held on, the Tally drain and the snapshots, and one piece of work that goes on in a state at rest. -/

namespace Sys2Proof.Machine

/-! ## Work that goes on at once (R249) -/

theorem State.addWork_rest {s : State} {w : Work} (h : s.tiers.work = []) :
    s.addWork w = { s with tiers := { s.tiers with work := [w] } } := by
  simp [State.addWork, h]

/-- R249: in a state at rest, a piece of work that asks for no tile is done at once, and nothing goes on after it. -/
theorem State.carryOn_addWork {s t : State} {w : Work} (hs : s.atRest) (hp : s.powered = true) (hready : (s.addWork w).workReady w = true)
    (hwork : s.opened.doWork w = t.opened) (ht : t.atRest) (hpt : t.powered = true) : (s.addWork w).carryOn = t := by
  obtain ⟨⟨htry, -, -, hnone, hdrop, -⟩, -⟩ := hs
  obtain ⟨⟨htt, htw, hts, htwork, htdrop, -⟩, -⟩ := id ht
  have hpend : (s.addWork w).tiers.work = [w] := by simp [State.addWork, hnone]
  have hpow : (s.addWork w).powered = true := hp
  have hemptied : ({ (s.addWork w).opened with tiers := { (s.addWork w).opened.tiers with
      work := (s.addWork w).opened.tiers.work.erase w } } : State) = s.opened := by
    simp [State.addWork, State.opened, hnone]
  have htried : (s.addWork w).tryWork w = (t, true) :=
    State.attempt_opened htry (by rw [hemptied, hwork]) htt htw hts
  have hitems : State.runItems (s.addWork w).tiers.work [] (s.addWork w).takeDropped = t := by
    rw [State.takeDropped_same (s := s.addWork w) hdrop, hpend]
    simp [State.runItems, hpend, hready, htried]
  have htail := State.carryOn_atRest ht
  simp only [State.carryOn, hpt, htwork, State.takeDropped_same htdrop, State.runItems] at htail
  simp only [State.carryOn, hpow, hitems]
  exact htail

/-! ## The pins of a set (R257, R262) -/

/-- A state that differs from another at most in the pages' records, the slices, the pin lists and the fills. -/
def onlyPins (s t : State) : Prop :=
  t = { s with tiers := { s.tiers with pages := t.tiers.pages, slices := t.tiers.slices, sets := t.tiers.sets, fills := t.tiers.fills } }

theorem onlyPins_trans {s t u : State} (a : onlyPins s t) (b : onlyPins t u) : onlyPins s u := by
  unfold onlyPins at *; rw [b, a]

theorem onlyPins.atRest {s t : State} (h : onlyPins s t) (hs : s.atRest) : t.atRest := by
  rw [h]; exact hs

theorem onlyPins.powered {s t : State} (h : onlyPins s t) (hs : s.powered = true) : t.powered = true := by
  rw [h]; exact hs

theorem onlyPins_foldl {α : Type} {f : State → α → State} (hf : ∀ s a, onlyPins s (f s a)) (l : List α) (s : State) :
    onlyPins s (l.foldl f s) := by
  induction l generalizing s with
  | nil => rfl
  | cons a l ih => exact onlyPins_trans (hf s a) (ih _)

theorem onlyPins_pinPageList (s : State) (l : List Nat) (up : Bool) : onlyPins s (s.pinPageList l up) := by
  unfold State.pinPageList
  refine onlyPins_foldl (fun s p => ?_) l s
  rfl

/-- R249: raising and lowering pins is the same while an operation is tried. -/
theorem State.opened_pinPageList (s : State) (l : List Nat) (up : Bool) :
    s.opened.pinPageList l up = (s.pinPageList l up).opened := by
  unfold State.pinPageList
  induction l generalizing s with
  | nil => rfl
  | cons p l ih =>
    rw [List.foldl_cons, List.foldl_cons, ← ih]
    rfl

/-- R262: what a release leaves, where the set is pinned. -/
def State.unpinned (s : State) (k : Nat) (ps : PinSet) : State :=
  let t := (s.pinPageList (sortNub (ps.exts.flatMap PinExt.pages)) false).markFrames k ps.tiles false
  { t with tiers := { t.tiers with
      sets := mapDel t.tiers.sets k, fills := t.tiers.fills.map (fun f => { f with sets := f.sets.filter (· != k) }) } }

theorem State.releaseSet_eq (s : State) (k : Nat) :
    s.releaseSet k = match mapFind s.tiers.sets k with | none => s | some ps => s.unpinned k ps := rfl

theorem onlyPins_releaseSet (s : State) (k : Nat) : onlyPins s (s.releaseSet k) := by
  rw [State.releaseSet_eq]
  cases mapFind s.tiers.sets k with
  | none => rfl
  | some ps => exact onlyPins_trans (onlyPins_pinPageList s _ false) rfl

theorem State.opened_releaseSet (s : State) (k : Nat) : s.opened.releaseSet k = (s.releaseSet k).opened := by
  have hsets : s.opened.tiers.sets = s.tiers.sets := rfl
  rw [State.releaseSet_eq, State.releaseSet_eq, hsets]
  cases mapFind s.tiers.sets k with
  | none => rfl
  | some ps =>
    dsimp only
    rw [State.unpinned, State.opened_pinPageList]
    rfl

/-- R262: a set that has been released is not pinned. -/
theorem State.setPinned_releaseSet (s : State) (k : Nat) : (s.releaseSet k).setPinned k = false := by
  rw [State.releaseSet_eq]
  cases hk : mapFind s.tiers.sets k with
  | none => simp [State.setPinned, hk]
  | some ps => simp [State.setPinned, State.unpinned, mapFind_mapDel_self]

/-- R260, R262: the pins of a set whose list has no extents. -/
def State.pinnedEmpty (s : State) (k : Nat) : State := (s.pinExtents k []).fillExtents [] (some k)

theorem onlyPins_pinnedEmpty (s : State) (k : Nat) : onlyPins s (s.pinnedEmpty k) := rfl

theorem State.opened_pinnedEmpty (s : State) (k : Nat) : s.opened.pinnedEmpty k = (s.pinnedEmpty k).opened := rfl

theorem State.setPinned_pinnedEmpty (s : State) (k : Nat) : (s.pinnedEmpty k).setPinned k = true := by
  have hsets : (s.pinnedEmpty k).tiers.sets = mapIns s.tiers.sets k
      ⟨(mapGet {} s.tiers.sets k).exts ++ [], (mapGet {} s.tiers.sets k).tiles ++ []⟩ := rfl
  simp [State.setPinned, hsets, mapFind_mapIns_self]

/-- R260, R262: a prefetch while TM_SET_BASE is not valid finds no extents. -/
theorem State.prefetchSet_invalid {s : State} {k : Nat} {pin : Bool} (h : s.flag TM_SET_BASE.VALID = false) :
    s.prefetchSet k pin = if s.setPinned k || !pin then s else s.pinnedEmpty k := by
  by_cases hk : s.setPinned k = true
  · simp [State.prefetchSet, hk]
  · cases pin with
    | false => simp [State.prefetchSet, State.setExtents, h, hk, State.fillExtents, sortBy]
    | true => simp [State.prefetchSet, State.setExtents, h, hk, State.pinnedEmpty]

/-! ## Harnesses held on (R112, R113, R382) -/

theorem getElem?_modAt {α : Type} (l : List α) (h i : Nat) (f : α → α) :
    (modAt l h f)[i]? = if i = h then l[i]?.map f else l[i]? := by
  induction l generalizing h i with
  | nil => simp [modAt]
  | cons x l ih => cases h <;> cases i <;> simp [modAt, ih]

theorem State.core_modCore_self (s : State) (h c : Nat) (f : Core → Core) : (s.modCore h c f).core h c = f (s.core h c) :=
  mapGet_mapPut_self _ _ _ _

theorem State.core_modCore_ne (s : State) {h c h' c' : Nat} (f : Core → Core) (hk : coreKey h' c' ≠ coreKey h c) :
    (s.modCore h c f).core h' c' = s.core h' c' := mapGet_mapPut_ne _ _ _ hk

/-- The core positions of the engine have keys of their own. -/
theorem coreKey_inj {h c h' c' : Nat} (hc : c < 66) (hc' : c' < 66) : coreKey h' c' = coreKey h c ↔ h' = h ∧ c' = c := by
  unfold coreKey
  omega

theorem State.core_modCores (s : State) (h : Nat) (f : Nat → Core → Core) {h' c' : Nat} (hc : c' < 66) :
    (s.modCores h f).core h' c' = if h' = h then f c' (s.core h' c') else s.core h' c' := by
  have hfold : ∀ n ≤ 66, ((List.range n).foldl (fun s c => s.modCore h c (f c)) s).core h' c' =
      if h' = h ∧ c' < n then f c' (s.core h' c') else s.core h' c' := by
    intro n hn
    induction n with
    | zero => simp
    | succ n ih =>
      have ih := ih (by omega)
      rw [List.range_succ, List.foldl_append, List.foldl_cons, List.foldl_nil]
      by_cases hk : h' = h ∧ c' = n
      · obtain ⟨rfl, rfl⟩ := hk
        rw [State.core_modCore_self, ih, if_neg (by omega), if_pos (by omega)]
      · rw [State.core_modCore_ne _ _ (by rw [Ne, coreKey_inj (by omega) hc]; exact hk), ih]
        by_cases hh : h' = h ∧ c' < n
        · rw [if_pos hh, if_pos (by omega)]
        · rw [if_neg hh, if_neg (by omega)]
  have h66 := hfold 66 (by omega)
  simpa only [State.modCores, hc, and_true] using h66

/-- A state that differs from another at most in the Heddle array. -/
def onlyHeddle (s t : State) : Prop := t = { s with heddle := t.heddle }

theorem onlyHeddle_trans {s t u : State} (a : onlyHeddle s t) (b : onlyHeddle t u) : onlyHeddle s u := by
  unfold onlyHeddle at *; rw [b, a]

theorem onlyHeddle_foldl {α : Type} {f : State → α → State} (hf : ∀ s a, onlyHeddle s (f s a)) (l : List α) (s : State) :
    onlyHeddle s (l.foldl f s) := by
  induction l generalizing s with
  | nil => rfl
  | cons a l ih => exact onlyHeddle_trans (hf s a) (ih (f s a))

theorem onlyHeddle_modHarness (s : State) (h : Nat) (f : Harness → Harness) : onlyHeddle s (s.modHarness h f) := rfl

theorem onlyHeddle_modCores (s : State) (h : Nat) (f : Nat → Core → Core) : onlyHeddle s (s.modCores h f) := by
  unfold State.modCores
  refine onlyHeddle_foldl (fun s c => ?_) _ s
  rfl

theorem State.harnesses_modCores (s : State) (h : Nat) (f : Nat → Core → Core) :
    (s.modCores h f).heddle.harnesses = s.heddle.harnesses := by
  unfold State.modCores
  induction List.range 66 generalizing s with
  | nil => rfl
  | cons c l ih => rw [List.foldl_cons, ih]; rfl

/-- R382: a core that a held Harness makes ramp. -/
def Core.ramped (k : Core) : Core :=
  if k.power == .gated && (k.service == .active || k.service == .retirePending) then { k with power := .ramping } else k

/-- R382: HELD_ON of one Harness. -/
def State.markHeld (s : State) (up : Bool) (h : Nat) : State := s.modHarness h (fun x => { x with heldOn := up })

theorem State.core_markHeld (s : State) (up : Bool) (h h' c : Nat) : (s.markHeld up h).core h' c = s.core h' c := rfl

/-- R382: one Harness is held on, and its gated cores ramp, or it is held on no longer. -/
def State.holdHarness (s : State) (up : Bool) (h : Nat) : State :=
  if up then (s.markHeld up h).modCores h (fun _ k => k.ramped) else s.markHeld up h

theorem State.rampHarness_eq (s : State) (mask : Nat) (up : Bool) :
    s.rampHarness mask up = (setBits 8 mask).foldl (fun s h => s.holdHarness up h) s := rfl

theorem onlyHeddle_holdHarness (s : State) (up : Bool) (h : Nat) : onlyHeddle s (s.holdHarness up h) := by
  unfold State.holdHarness
  split
  · exact onlyHeddle_trans (onlyHeddle_modHarness s h _) (onlyHeddle_modCores (s.markHeld up h) h _)
  · rfl

theorem onlyHeddle_rampHarness (s : State) (mask : Nat) (up : Bool) : onlyHeddle s (s.rampHarness mask up) := by
  rw [State.rampHarness_eq]
  exact onlyHeddle_foldl (fun s h => onlyHeddle_holdHarness s up h) _ s

theorem State.harnesses_holdHarness (s : State) (up : Bool) (h : Nat) :
    (s.holdHarness up h).heddle.harnesses = modAt s.heddle.harnesses h (fun x => { x with heldOn := up }) := by
  unfold State.holdHarness
  split
  · rw [State.harnesses_modCores]; rfl
  · rfl

theorem State.core_holdHarness (s : State) (up : Bool) (h : Nat) {h' c : Nat} (hc : c < 66) :
    (s.holdHarness up h).core h' c = if up = true ∧ h' = h then (s.core h' c).ramped else s.core h' c := by
  unfold State.holdHarness
  by_cases hup : up = true
  · simp only [hup, if_true, true_and, State.core_modCores _ h _ hc, State.core_markHeld]
  · rw [if_neg hup, if_neg (fun h => hup h.1), State.core_markHeld]

/-- R382: the Harnesses after a list of them has been held on, or no longer. -/
theorem State.harnesses_holdList (up : Bool) (l : List Nat) (s : State) {i : Nat} {y : Harness} (hy : s.heddle.harnesses[i]? = some y) :
    (l.foldl (fun s h => s.holdHarness up h) s).heddle.harnesses[i]? = some { y with heldOn := if i ∈ l then up else y.heldOn } := by
  induction l generalizing s y with
  | nil => simpa using hy
  | cons h l ih =>
    have hstep : (s.holdHarness up h).heddle.harnesses[i]? = some { y with heldOn := if i = h then up else y.heldOn } := by
      rw [State.harnesses_holdHarness, getElem?_modAt, hy]
      split <;> rfl
    rw [List.foldl_cons, ih _ hstep]
    by_cases hi : i ∈ l <;> simp [hi]

/-- R382: the cores after a list of Harnesses has been held on, or no longer. -/
theorem State.core_holdList (up : Bool) {l : List Nat} (hl : l.Nodup) (s : State) {h c : Nat} (hc : c < 66) :
    (l.foldl (fun s h => s.holdHarness up h) s).core h c = if up = true ∧ h ∈ l then (s.core h c).ramped else s.core h c := by
  induction l generalizing s with
  | nil => simp
  | cons x l ih =>
    obtain ⟨hx, hl⟩ := List.nodup_cons.mp hl
    rw [List.foldl_cons, ih hl, State.core_holdHarness s up x hc]
    by_cases hup : up = true
    · by_cases he : h = x
      · subst he; simp [hup, hx]
      · simp [hup, he]
    · simp [hup]

theorem nodup_setBits (n x : Nat) : (setBits n x).Nodup := List.nodup_range.filter _

theorem mem_setBits {n x i : Nat} : i ∈ setBits n x ↔ i < n ∧ bitOf x i = true := by simp [setBits]

theorem bitOf_of_lt {x n i : Nat} (hx : x < 2 ^ n) (hi : n ≤ i) : bitOf x i = false := by
  have hdiv : x / 2 ^ i = 0 := Nat.div_eq_of_lt (lt_of_lt_of_le hx (Nat.pow_le_pow_right (by omega) hi))
  simp [bitOf, hdiv]

/-! ## The Tally drain (R361) -/

theorem State.tallyStop_draining {s : State} (h : s.cust.draining = true) :
    s.tallyStop.cust.draining = (s.tallyRoom || s.cust.drainLeft != 0) := by
  unfold State.tallyStop
  split
  · next hr => rw [h, hr]
  · next hr => simpa using hr

theorem State.startTallyDrain_draining (s : State) :
    s.startTallyDrain.cust.draining = (s.tallyRoom || s.cust.drainLeft != 0) :=
  State.tallyStop_draining (s := { s with cust := { s.cust with draining := true } }) rfl

theorem State.startTallyDrain_frame (s : State) :
    s.startTallyDrain = { s with regs := s.startTallyDrain.regs, cust := s.startTallyDrain.cust } := by
  unfold State.startTallyDrain State.tallyStop
  split <;> rfl

theorem State.word_startTallyDrain_ne (s : State) {off : Nat} (ho : off ≠ CU_TALLY_CTRL.DRAIN.off) :
    s.startTallyDrain.word off = s.word off := by
  unfold State.startTallyDrain State.tallyStop
  split
  · rfl
  · exact State.word_set_ne { s with cust := { s.cust with draining := true } } CU_TALLY_CTRL.DRAIN 0 off ho

/-! ## Snapshots (R280, R431) -/

/-- The counters of a snapshot by their offsets, each with its snapshot register: BC, TM and CU. -/
def snapSlices : List (Nat × Nat) := (List.range 8).map (fun h => ((BC_SLICE_EVENTS.HITS h).off, (BC_SLICE_SNAP.EVENTS h).off))
def snapStalls : List (Nat × Nat) := (List.range 16).flatMap (fun i =>
  [((TM_STALL_CORE.CYCLES i).off, (TM_STALL_SNAP.CORE i).off), ((TM_STALL_BOLT.CYCLES i).off, (TM_STALL_SNAP.BOLT i).off)])
def snapFaults : List (Nat × Nat) := [(CU_FAULT_EVENTS.RECORDS.off, (CU_FAULT_SNAP.EVENTS 0).off),
  (CU_LOSS_EVENTS.LOST_RESULTS.off, (CU_FAULT_SNAP.EVENTS 1).off)]

/-- The counters that a mask selects. -/
def snapPairs (mask : Nat) : List (Nat × Nat) :=
  (if bitOf mask 6 then snapSlices else []) ++ ((if bitOf mask 7 then snapStalls else []) ++ (if bitOf mask 11 then snapFaults else []))

/-- The offsets of a list of counters and their snapshot registers. -/
def snapOffsets (l : List (Nat × Nat)) : List Nat := l.flatMap (fun p => [p.1, p.2])

/-- A list of counters is copied, one after another. -/
def State.snapAll (s : State) (l : List (Nat × Nat)) : State := l.foldl (fun s p => s.snapWord p.1 p.2) s

theorem State.snapAll_append (s : State) (l m : List (Nat × Nat)) : s.snapAll (l ++ m) = (s.snapAll l).snapAll m :=
  List.foldl_append

theorem State.snapshot_eq (s : State) (mask : Nat) : s.snapshot mask = s.snapAll (snapPairs mask) := by
  have h6 : ∀ s : State, (List.range 8).foldl (fun s h => s.snapWord (BC_SLICE_EVENTS.HITS h).off (BC_SLICE_SNAP.EVENTS h).off) s =
      s.snapAll snapSlices := fun s => by
    simp only [State.snapAll, snapSlices, List.foldl_map]
  have h7 : ∀ s : State, (List.range 16).foldl (fun s i => (s.snapWord (TM_STALL_CORE.CYCLES i).off (TM_STALL_SNAP.CORE i).off).snapWord
      (TM_STALL_BOLT.CYCLES i).off (TM_STALL_SNAP.BOLT i).off) s = s.snapAll snapStalls := fun s => by
    simp only [State.snapAll, snapStalls, List.foldl_flatMap, List.foldl_cons, List.foldl_nil]
  have h11 : ∀ s : State, (s.snapWord CU_FAULT_EVENTS.RECORDS.off (CU_FAULT_SNAP.EVENTS 0).off).snapWord
      CU_LOSS_EVENTS.LOST_RESULTS.off (CU_FAULT_SNAP.EVENTS 1).off = s.snapAll snapFaults := fun _ => rfl
  unfold State.snapshot snapPairs
  rw [State.snapAll_append, State.snapAll_append]
  simp only [h6, h7, h11]
  by_cases h1 : bitOf mask 6 = true <;> by_cases h2 : bitOf mask 7 = true <;> by_cases h3 : bitOf mask 11 = true <;>
    simp [h1, h2, h3, State.snapAll]

theorem onlyRegs_snapAll (s : State) (l : List (Nat × Nat)) : onlyRegs s (s.snapAll l) := by
  unfold State.snapAll
  exact onlyRegs_foldl _ (fun s p => onlyRegs_trans (onlyRegs_setWord s p.2 (s.word p.1)) (onlyRegs_setWord _ p.1 0)) l s

theorem State.word_snapAll_ne (s : State) {l : List (Nat × Nat)} {off : Nat} (h : off ∉ snapOffsets l) :
    (s.snapAll l).word off = s.word off := by
  induction l generalizing s with
  | nil => rfl
  | cons p l ih =>
    simp only [snapOffsets, List.flatMap_cons, List.mem_append, List.mem_cons, List.not_mem_nil, or_false, not_or] at h
    obtain ⟨⟨h1, h2⟩, hl⟩ := h
    have hstep : (s.snapWord p.1 p.2).word off = s.word off := by
      rw [State.snapWord, State.word_setWord_ne _ _ h1, State.word_setWord_ne _ _ h2]
    exact (ih (s.snapWord p.1 p.2) hl).trans hstep

/-- R280, R431: where the offsets lie apart, each snapshot register takes its counter, which then reads 0. -/
theorem State.word_snapAll (s : State) {l : List (Nat × Nat)} (hl : (snapOffsets l).Nodup) {p : Nat × Nat} (hp : p ∈ l) :
    (s.snapAll l).word p.2 = s.word p.1 ∧ (s.snapAll l).word p.1 = 0 := by
  induction l generalizing s with
  | nil => cases hp
  | cons q l ih =>
    have hcons : snapOffsets (q :: l) = q.1 :: q.2 :: snapOffsets l := rfl
    rw [hcons, List.nodup_cons, List.nodup_cons, List.mem_cons, not_or] at hl
    obtain ⟨⟨h12, h1⟩, h2, hl⟩ := hl
    have hfold : s.snapAll (q :: l) = (s.snapWord q.1 q.2).snapAll l := rfl
    have hstep : ∀ off, off ≠ q.1 → off ≠ q.2 → (s.snapWord q.1 q.2).word off = s.word off := fun off ha hb => by
      rw [State.snapWord, State.word_setWord_ne _ _ ha, State.word_setWord_ne _ _ hb]
    rw [hfold]
    rcases List.mem_cons.mp hp with rfl | hp
    · rw [State.word_snapAll_ne _ h2, State.word_snapAll_ne _ h1]
      exact ⟨by rw [State.snapWord, State.word_setWord_ne _ _ (Ne.symm h12), State.word_setWord_self],
        State.word_setWord_self _ _ _⟩
    · have hmem : p.1 ∈ snapOffsets l ∧ p.2 ∈ snapOffsets l :=
        ⟨List.mem_flatMap.mpr ⟨p, hp, by simp⟩, List.mem_flatMap.mpr ⟨p, hp, by simp⟩⟩
      obtain ⟨hsnap, hzero⟩ := ih (s.snapWord q.1 q.2) hl hp
      exact ⟨hsnap.trans (hstep _ (fun e => h1 (e ▸ hmem.1)) (fun e => h2 (e ▸ hmem.1))), hzero⟩

theorem snapPairs_sublist (mask : Nat) : (snapPairs mask).Sublist (snapSlices ++ (snapStalls ++ snapFaults)) := by
  unfold snapPairs
  refine List.Sublist.append ?_ (List.Sublist.append ?_ ?_) <;> split <;> simp

theorem snapPairs_nodup (mask : Nat) : (snapOffsets (snapPairs mask)).Nodup := by
  have hall : (snapOffsets (snapSlices ++ (snapStalls ++ snapFaults))).Nodup := by decide +kernel
  unfold snapOffsets at *
  exact hall.sublist ((snapPairs_sublist mask).flatMap _)

end Sys2Proof.Machine

/-! The orders of Table 2.7 (family 02_loom_angle): which orders are dispatched and how, and what a dispatched order leaves. The
statements O19, O20 and O21 rest on these rules. -/

namespace Sys2Proof.Machine

/-! ## Dispatch (R48, R51, R55) -/

/-- R48, R32, R55: the orders that a dispatch refuses. -/
theorem State.dispatch_refuses_iff (s : State) {x : Waiting} (mailbox : Bool) (h8 : x.action ≤ 8) :
    (!targetOk x.action x.target x.argument || (mailbox && !argumentOk x.action x.argument) || (x.action == 4 && s.phase != 3)) =
      !s.orderAdmitted x mailbox := by
  unfold State.orderAdmitted
  cases targetOk x.action x.target x.argument <;> cases argumentOk x.action x.argument <;> cases mailbox <;> simp [h8, bne]

theorem State.dispatch_refused {s : State} {x : Waiting} {mailbox : Bool} (rank : Nat) (rival : Option Rival) (mask : Nat)
    (h8 : x.action ≤ 8) (h : s.orderAdmitted x mailbox = false) :
    s.dispatch rank x.action x.target x.argument mailbox rival mask = (s, .refused) := by
  unfold State.dispatch
  rw [State.dispatch_refuses_iff s mailbox h8, h]
  rfl

theorem State.orderAdmitted_le {s : State} {x : Waiting} {mailbox : Bool} (h : s.orderAdmitted x mailbox = true) : x.action ≤ 8 := by
  simp only [State.orderAdmitted, Bool.and_eq_true, decide_eq_true_eq] at h
  exact h.1.1.1

theorem State.dispatch_admitted {s : State} {x : Waiting} {mailbox : Bool} (rank : Nat) (rival : Option Rival) (mask : Nat)
    (h : s.orderAdmitted x mailbox = true) : s.dispatch rank x.action x.target x.argument mailbox rival mask =
      if rival == some .same then (s, .done) else
      match if contradicts x.action then defeatedBy rank rival else none with
      | none => s.obey x.action x.target x.argument
      | some r =>
        if x.action == 6 && x.target &&& mask == 0 then s.obey x.action x.target x.argument
        else if x.action == 6 then
          ((s.obey x.action (x.target &&& (255 - mask % 256)) x.argument).1, .lost (rivalCode r))
        else (s, .lost (rivalCode r)) := by
  unfold State.dispatch
  rw [State.dispatch_refuses_iff s mailbox (State.orderAdmitted_le h), h]
  rfl

/-- R51: without a contradicting order an admitted order is obeyed. -/
theorem State.dispatch_unrivalled {s : State} {x : Waiting} {mailbox : Bool} (rank mask : Nat) (h : s.orderAdmitted x mailbox = true) :
    s.dispatch rank x.action x.target x.argument mailbox none mask = s.obey x.action x.target x.argument := by
  rw [State.dispatch_admitted rank none mask h]
  cases contradicts x.action <;> rfl

/-- R51: an order identical to one that has taken effect is done. -/
theorem State.dispatch_same {s : State} {x : Waiting} {mailbox : Bool} (rank mask : Nat) (h : s.orderAdmitted x mailbox = true) :
    s.dispatch rank x.action x.target x.argument mailbox (some .same) mask = (s, .done) := by
  rw [State.dispatch_admitted rank _ mask h]
  rfl

theorem defeatedBy_not_same {rank : Nat} {rival : Option Rival} {r : Rival} (hrank : rank ≤ 6) (h : defeatedBy rank rival = some r) :
    rival ≠ some .same := by
  rintro rfl
  have hnone : defeatedBy rank (some .same) = none := if_neg (by simp only [rivalRank]; omega)
  rw [hnone] at h
  cases h

/-- R51: an order that may be contradicted loses against a master of a higher rank. -/
theorem State.dispatch_lost {s : State} {x : Waiting} {mailbox : Bool} {rank : Nat} {rival : Option Rival} {r : Rival} (mask : Nat)
    (hrank : rank ≤ 6) (h : s.orderAdmitted x mailbox = true) (hc : contradicts x.action = true) (h6 : x.action ≠ 6)
    (hr : defeatedBy rank rival = some r) :
    s.dispatch rank x.action x.target x.argument mailbox rival mask = (s, .lost (rivalCode r)) := by
  have hsame : (rival == some .same) = false := by simpa using defeatedBy_not_same hrank hr
  rw [State.dispatch_admitted rank rival mask h, hsame, hc, if_pos rfl, hr]
  simp [h6]

/-! ## What a dispatched order leaves (Table 2.7) -/

/-- What an order leaves once what it waits for has gone on: the set of a prefetch or a release is pinned or not at once. -/
def State.obeyed (s : State) (x : Waiting) : State :=
  match x.action with
  | 1 => s.prefetchSet x.target (bitOf x.argument.toNat 0)
  | 2 => s.releaseSet x.target
  | _ => (s.obey x.action x.target x.argument).1

section
variable {s : State} {x : Waiting}

theorem State.obeyed_nop (h : x.action = 0) : s.obeyed x = s := by simp [State.obeyed, State.obey, h]
theorem State.obeyed_prefetch (h : x.action = 1) : s.obeyed x = s.prefetchSet x.target (bitOf x.argument.toNat 0) := by
  simp [State.obeyed, h]
theorem State.obeyed_release (h : x.action = 2) : s.obeyed x = s.releaseSet x.target := by simp [State.obeyed, h]
theorem State.obeyed_commit (h : x.action = 3) : s.obeyed x = s.commitVersion x.target x.argument := by
  simp [State.obeyed, State.obey, h]
theorem State.obeyed_deadline (h : x.action = 5) :
    s.obeyed x = { s with exch := { s.exch with deadlineNs := bitsOf x.argument.toNat 31 0 } } := by
  simp [State.obeyed, State.obey, h]
theorem State.obeyed_ramp (h : x.action = 6) : s.obeyed x = s.rampHarness x.target (bitOf x.argument.toNat 0) := by
  simp [State.obeyed, State.obey, h]
theorem State.obeyed_drain (h : x.action = 7) : s.obeyed x = s.startTallyDrain := by simp [State.obeyed, State.obey, h]
theorem State.obeyed_snapshot (h : x.action = 8) : s.obeyed x = s.snapshot x.target := by simp [State.obeyed, State.obey, h]

/-- Orders that read nothing of the Loom range are obeyed at once. -/
theorem State.obey_eq (h1 : x.action ≠ 1) (h2 : x.action ≠ 2) (h4 : x.action ≠ 4) (h8 : x.action ≤ 8) :
    s.obey x.action x.target x.argument = (s.obeyed x, .done) := by
  have hcases : x.action = 0 ∨ x.action = 3 ∨ x.action = 5 ∨ x.action = 6 ∨ x.action = 7 ∨ x.action = 8 := by omega
  rcases hcases with h | h | h | h | h | h <;> simp [State.obeyed, State.obey, h]

end

/-- The words of the Loom Sequencer that tell of an order's end. -/
def orderWords : List Nat := [LS_CARD_EVENTS.FIRED.off, LS_MBOX_ORDER.GO.off, LS_MBOX_STATUS.BUSY.off]

/-- What no order but BEGIN_RESHARD touches: the Loom Sequencer, the power states, and the words that tell of its end. -/
def orderFrame (s t : State) : Prop :=
  t = { s with regs := t.regs, heddle := t.heddle, skein := t.skein, tiers := t.tiers, exch := t.exch, cust := t.cust } ∧
    ∀ off ∈ orderWords, t.word off = s.word off

theorem onlyPins.orderFrame {s t : State} (h : onlyPins s t) : orderFrame s t := by
  rw [h]; exact ⟨rfl, fun _ _ => rfl⟩

theorem onlyHeddle.orderFrame {s t : State} (h : onlyHeddle s t) : orderFrame s t := by
  rw [h]; exact ⟨rfl, fun _ _ => rfl⟩

theorem snapPairs_subset (mask : Nat) : snapOffsets (snapPairs mask) ⊆ snapOffsets (snapSlices ++ (snapStalls ++ snapFaults)) := by
  unfold snapOffsets
  exact ((snapPairs_sublist mask).flatMap _).subset

theorem onlyPins_prefetchSet {s : State} {k : Nat} {pin : Bool} (h : s.flag TM_SET_BASE.VALID = false) :
    onlyPins s (s.prefetchSet k pin) := by
  rw [State.prefetchSet_invalid h]
  split
  · rfl
  · exact onlyPins_pinnedEmpty s k

/-- An order other than BEGIN_RESHARD leaves the Loom Sequencer alone. -/
theorem State.obeyed_frame {s : State} {x : Waiting} (h4 : x.action ≠ 4) (h8 : x.action ≤ 8)
    (h1 : x.action = 1 → s.flag TM_SET_BASE.VALID = false) : orderFrame s (s.obeyed x) := by
  have hcases : x.action = 0 ∨ x.action = 1 ∨ x.action = 2 ∨ x.action = 3 ∨ x.action = 5 ∨ x.action = 6 ∨ x.action = 7 ∨
    x.action = 8 := by omega
  rcases hcases with h | h | h | h | h | h | h | h
  · rw [State.obeyed_nop h]; exact ⟨rfl, fun _ _ => rfl⟩
  · rw [State.obeyed_prefetch h]; exact (onlyPins_prefetchSet (h1 h)).orderFrame
  · rw [State.obeyed_release h]; exact (onlyPins_releaseSet s _).orderFrame
  · rw [State.obeyed_commit h]; exact ⟨rfl, fun _ _ => rfl⟩
  · rw [State.obeyed_deadline h]; exact ⟨rfl, fun _ _ => rfl⟩
  · rw [State.obeyed_ramp h]; exact (onlyHeddle_rampHarness s _ _).orderFrame
  · have hdrain : ∀ off ∈ orderWords, off ≠ CU_TALLY_CTRL.DRAIN.off := by decide
    rw [State.obeyed_drain h]
    refine ⟨?_, fun off ho => State.word_startTallyDrain_ne s (hdrain off ho)⟩
    rw [State.startTallyDrain_frame]
  · have hsnap : ∀ off ∈ orderWords, off ∉ snapOffsets (snapSlices ++ (snapStalls ++ snapFaults)) := by decide +kernel
    have honly := onlyRegs_snapAll s (snapPairs x.target)
    rw [State.obeyed_snapshot h, State.snapshot_eq]
    refine ⟨?_, fun off ho => State.word_snapAll_ne s (fun hm => hsnap off ho (snapPairs_subset x.target hm))⟩
    rw [honly]

/-- R382: RAMP_HARNESS as `orderTakes` says it. -/
theorem State.rampHarness_shows (s : State) {mask : Nat} (up : Bool) (hm : mask < 256) :
    (∀ (h : Nat) (y : Harness), s.heddle.harnesses[h]? = some y →
      (s.rampHarness mask up).heddle.harnesses[h]? = some { y with heldOn := if bitOf mask h then up else y.heldOn }) ∧
    (∀ h < 8, ∀ c < 66, (s.rampHarness mask up).core h c =
      if bitOf mask h && up then (s.core h c).ramped else s.core h c) := by
  refine ⟨fun h y hy => ?_, fun h hh c hc => ?_⟩
  · have hmem : (h ∈ setBits 8 mask) ↔ bitOf mask h = true := by
      rw [mem_setBits]
      refine ⟨And.right, fun hb => ⟨?_, hb⟩⟩
      by_contra h8
      rw [bitOf_of_lt (n := 8) hm (by omega)] at hb
      cases hb
    rw [State.rampHarness_eq, State.harnesses_holdList up _ s hy]
    simp only [hmem]
  · rw [State.rampHarness_eq, State.core_holdList up (nodup_setBits 8 mask) s hc]
    simp only [mem_setBits, hh, true_and, Bool.and_eq_true, and_comm]

/-- Table 2.7: an order does what it is said to do. -/
theorem orderTakes_obeyed {p : State} {x : Waiting} (hset : x.action = 1 → p.flag TM_SET_BASE.VALID = false)
    (hmask : x.action = 6 → x.target < 256) : orderTakes p (p.obeyed x) x := by
  refine ⟨fun h => ?_, fun h => ?_, fun h => ?_, fun h => ?_, fun h => ?_, fun h => ?_, fun h => ?_⟩
  · rw [State.obeyed_prefetch h, State.prefetchSet_invalid (hset h)]
    refine ⟨fun hon _ => ?_, fun hp => by simp [hp]⟩
    by_cases hp : p.setPinned x.target = true
    · simp [hp]
    · simp [hp, hon, State.setPinned_pinnedEmpty]
  · rw [State.obeyed_release h, State.setPinned_releaseSet]
  · rw [State.obeyed_commit h]; rfl
  · rw [State.obeyed_deadline h]
  · obtain ⟨hharness, hcore⟩ := p.rampHarness_shows (bitOf x.argument.toNat 0) (hmask h)
    rw [State.obeyed_ramp h]
    refine ⟨hharness, fun i hi c hc => ?_⟩
    rw [hcore i hi c hc]
    unfold Core.ramped
    cases bitOf x.target i <;> cases bitOf x.argument.toNat 0 <;> simp
  · rw [State.obeyed_drain h, State.startTallyDrain_draining]
  · have hsnap : ∀ q ∈ snapPairs x.target, (p.obeyed x).word q.2 = p.word q.1 ∧ (p.obeyed x).word q.1 = 0 := fun q hq => by
      rw [State.obeyed_snapshot h, State.snapshot_eq]
      exact State.word_snapAll p (snapPairs_nodup x.target) hq
    refine ⟨fun hb i hi => hsnap (_, _) ?_, fun hb i hi => ?_, fun hb => ?_⟩
    · exact List.mem_append_left _ (by rw [if_pos hb]; exact List.mem_map.mpr ⟨i, List.mem_range.mpr hi, rfl⟩)
    · have hmem : ∀ q ∈ snapStalls, q ∈ snapPairs x.target := fun q hq =>
        List.mem_append_right _ (List.mem_append_left _ (by rwa [if_pos hb]))
      have hstall : ∀ q ∈ [((TM_STALL_CORE.CYCLES i).off, (TM_STALL_SNAP.CORE i).off),
          ((TM_STALL_BOLT.CYCLES i).off, (TM_STALL_SNAP.BOLT i).off)], q ∈ snapStalls := fun q hq =>
        List.mem_flatMap.mpr ⟨i, List.mem_range.mpr hi, hq⟩
      obtain ⟨hcore, hcore0⟩ := hsnap _ (hmem _ (hstall _ List.mem_cons_self))
      obtain ⟨hbolt, hbolt0⟩ := hsnap _ (hmem _ (hstall _ (List.mem_cons_of_mem _ List.mem_cons_self)))
      exact ⟨hcore, hbolt, hcore0, hbolt0⟩
    · have hmem : ∀ q ∈ snapFaults, q ∈ snapPairs x.target := fun q hq =>
        List.mem_append_right _ (List.mem_append_right _ (by rwa [if_pos hb]))
      obtain ⟨hrec, hrec0⟩ := hsnap _ (hmem _ List.mem_cons_self)
      obtain ⟨hloss, hloss0⟩ := hsnap _ (hmem _ (List.mem_cons_of_mem _ List.mem_cons_self))
      exact ⟨hrec, hloss, hrec0, hloss0⟩

end Sys2Proof.Machine

/-! Cards (family 02_loom_angle): how the rows of Table 2.7 dispatch the oldest fired action and the mailbox order, and the statement
O19. -/

namespace Sys2Proof.Machine

/-! ## The rows (Table 2.7) -/

/-- The rival mask that a row has: RAMP_HARNESS alone is given one. -/
def rowMask (m : BitVec 8) (a : Nat) : Nat := if a = 6 then m.toNat else 0

/-- The rows after which what waits goes on: those whose orders read the Loom range. -/
def rowCarries (a : Nat) : Prop := a = 1 ∨ a = 2 ∨ a = 4

theorem exec_orderRow_carries (o : Order) (m : BitVec 8) (s : State) {a : Nat} (h : rowCarries a) :
    exec (orderRow o m a) s = .next (s.after (s.order a o (rowMask m a)).carryOn) := by
  rcases h with rfl | rfl | rfl <;> rfl

theorem exec_orderRow_plain (o : Order) (m : BitVec 8) (s : State) {a : Nat} (h : ¬ rowCarries a) (h8 : a ≤ 8) :
    exec (orderRow o m a) s = .next (s.after (s.order a o (rowMask m a))) := by
  have hcases : a = 0 ∨ a = 3 ∨ a = 5 ∨ a = 6 ∨ a = 7 ∨ a = 8 := by unfold rowCarries at h; omega
  rcases hcases with rfl | rfl | rfl | rfl | rfl | rfl <;> rfl

/-- A row whose order leaves a state at rest ends with it. -/
theorem exec_orderRow_rest {o : Order} {m : BitVec 8} {s t : State} {a : Nat} (h8 : a ≤ 8)
    (ho : s.order a o (rowMask m a) = t) (ht : t.atRest) (hp : t.pending = s.pending) (hf : t.fuses = s.fuses) :
    exec (orderRow o m a) s = .next t := by
  by_cases h : rowCarries a
  · rw [exec_orderRow_carries o m s h, ho, State.carryOn_atRest ht, State.after_eq s t hp hf]
  · rw [exec_orderRow_plain o m s h h8, ho, State.after_eq s t hp hf]

section
variable {s : State} {x : Waiting} {rest : List Waiting} {o : Order}

/-- R41, R48: the row of the oldest fired action. -/
theorem State.order_card (k : Nat) (hs : s.serving = true) (hv : o.via = .card) (hq : s.loom.actions = x :: rest) :
    s.order x.action o k =
      let r := (s.popAction rest).dispatch 4 x.action x.target x.argument false o.rival k
      if r.2 == .done then r.1 else r.1.dropAction x r.2.winner := by
  simp [State.order, hs, hv, hq, State.popAction]

theorem State.order_card_other (k : Nat) {a : Nat} (hs : s.serving = true) (hv : o.via = .card) (hq : s.loom.actions = x :: rest)
    (ha : a ≠ x.action) : s.order a o k = s := by
  simp [State.order, hs, hv, hq, ha.symm]

/-- R55: the row of the mailbox order. -/
theorem State.order_mailbox (k : Nat) (hs : s.serving = true) (hv : o.via = .mailbox) (hq : s.loom.mbox = some x) :
    s.order x.action o k =
      let r := (s.set LS_MBOX_ORDER.GO 0).dispatch 3 x.action x.target x.argument true o.rival k
      r.1.mboxDone r.2 := by
  simp [State.order, hs, hv, hq]

end

theorem State.orderAdmitted_of_phase {s t : State} {x : Waiting} {mailbox : Bool} (h : t.phase = s.phase) :
    t.orderAdmitted x mailbox = s.orderAdmitted x mailbox := by
  unfold State.orderAdmitted; rw [h]

/-! ## A card's order (R41, R48, R51) -/

/-- R41: the state from which the oldest fired action is dispatched, before FIRED counts it. -/
def State.popped (s : State) (rest : List Waiting) : State := { s with loom := { s.loom with actions := rest } }

theorem State.popAction_eq (s : State) (rest : List Waiting) : s.popAction rest = (s.popped rest).bump LS_CARD_EVENTS.FIRED := rfl

theorem State.popAction_fired (s : State) (rest : List Waiting) :
    (s.popAction rest).get LS_CARD_EVENTS.FIRED = min (s.get LS_CARD_EVENTS.FIRED + 1) (2 ^ 32 - 1) :=
  State.get_bump_self (s.popped rest) LS_CARD_EVENTS.FIRED 1 (by decide) (by decide)

theorem State.popAction_phase (s : State) (rest : List Waiting) : (s.popAction rest).phase = s.phase :=
  State.get_bump_apart (s.popped rest) LS_CARD_EVENTS.FIRED LS_STATUS.PHASE 1 (by decide) (by decide) (by decide)

theorem State.popAction_flag (s : State) (rest : List Waiting) {f : Fld} (h : f.off ≠ LS_CARD_EVENTS.FIRED.off) :
    (s.popAction rest).flag f = s.flag f :=
  State.flag_of_word (State.word_bump_ne (s.popped rest) LS_CARD_EVENTS.FIRED 1 f.off h)

theorem State.popAction_atRest {s : State} (rest : List Waiting) (h : s.atRest) : (s.popAction rest).atRest :=
  State.atRest_of h rfl rfl rfl

/-- R48, R51: what the drop of a card's action leaves in the window. -/
theorem State.dropAction_shows (s : State) (x : Waiting) {w : Nat} (hw : w < 16) (h8 : x.action ≤ 8) :
    let t := s.dropAction x w
    rewrites s t [LS_CARD_EVENTS.FIRED.off, LS_CARD_REJECT.WINNER.off] ∧
      t.get LS_CARD_EVENTS.DROPPED = min (s.get LS_CARD_EVENTS.DROPPED + 1) 65535 ∧
      t.get LS_CARD_EVENTS.FIRED = s.get LS_CARD_EVENTS.FIRED ∧ t.get LS_CARD_REJECT.WINNER = w ∧
      t.get LS_CARD_REJECT.INDEX = x.index % 2 ^ 13 ∧ t.get LS_CARD_REJECT.ACTION = x.action ∧
      t.get LS_CARD_REJECT.TARGET = x.target % 2 ^ 16 := by
  have hwinner : w % 2 ^ fldWidth LS_CARD_REJECT.WINNER = w := Nat.mod_eq_of_lt hw
  have haction : x.action % 2 ^ fldWidth LS_CARD_REJECT.ACTION = x.action :=
    Nat.mod_eq_of_lt (lt_of_le_of_lt h8 (by decide))
  have hdropped : 2 ^ fldWidth LS_CARD_EVENTS.DROPPED - 1 = 65535 := rfl
  have hindex : fldWidth LS_CARD_REJECT.INDEX = 13 := rfl
  have htarget : fldWidth LS_CARD_REJECT.TARGET = 16 := rfl
  refine ⟨(((((rewrites_refl s _).bump _ 1 (by decide)).set _ _ (by decide)).set _ _ (by decide)).set _ _ (by decide)).set _ _
    (by decide), ?_⟩
  simp (disch := decide) only [State.dropAction, State.get_set_self, State.get_set_apart, State.get_bump_self, State.get_bump_apart,
    hwinner, haction, hdropped, hindex, htarget, and_self]

section
variable {s : State} {x : Waiting} {rest : List Waiting} {o : Order}

/-- Table 2.7: a piece of work of an order that pins or releases a set is done at once. -/
theorem State.carryOn_prefetch {p : State} {k : Nat} {pin : Bool} (hr : p.atRest) (hp : p.powered = true)
    (h : p.flag TM_SET_BASE.VALID = false) : (p.addWork (.prefetch k pin)).carryOn = p.prefetchSet k pin := by
  have honly := onlyPins_prefetchSet (k := k) (pin := pin) h
  refine State.carryOn_addWork hr hp rfl ?_ (honly.atRest hr) (honly.powered hp)
  have hopen : p.opened.flag TM_SET_BASE.VALID = false := h
  change p.opened.prefetchSet k pin = _
  rw [State.prefetchSet_invalid hopen, State.prefetchSet_invalid h, State.opened_pinnedEmpty]
  have hpinned : p.opened.setPinned k = p.setPinned k := rfl
  rw [hpinned]
  split <;> rfl

theorem State.carryOn_release {p : State} {k : Nat} (hr : p.atRest) (hp : p.powered = true) :
    (p.addWork (.release k)).carryOn = p.releaseSet k :=
  State.carryOn_addWork hr hp rfl (State.opened_releaseSet p k) ((onlyPins_releaseSet p k).atRest hr)
    ((onlyPins_releaseSet p k).powered hp)

/-- Table 2.7: the work of an order that pins or releases a set. -/
def orderWork (x : Waiting) : Work :=
  if x.action = 1 then .prefetch x.target (bitOf x.argument.toNat 0) else .release x.target

/-- Table 2.7: what waits of an order that is not BEGIN_RESHARD goes on at once. -/
theorem State.obey_carries {p : State} (hr : p.atRest) (hp : p.powered = true) (hc : rowCarries x.action) (h4 : x.action ≠ 4)
    (hset : x.action = 1 → p.flag TM_SET_BASE.VALID = false) :
    p.obey x.action x.target x.argument = (p.addWork (orderWork x), .done) ∧ (p.addWork (orderWork x)).carryOn = p.obeyed x := by
  rcases hc with h | h | h
  · refine ⟨by simp [State.obey, orderWork, h], ?_⟩
    rw [State.obeyed_prefetch h, orderWork, if_pos h, State.carryOn_prefetch hr hp (hset h)]
  · refine ⟨by simp [State.obey, orderWork, h], ?_⟩
    rw [State.obeyed_release h, orderWork, if_neg (by omega), State.carryOn_release hr hp]
  · exact absurd h h4

/-- R41: an admitted action without a rival is obeyed. -/
theorem exec_card_obeyed (m : BitVec 8) (hs : s.serving = true) (hr : s.atRest) (hv : o.via = .card) (hn : o.rival = none)
    (hq : s.loom.actions = x :: rest) (ha : s.orderAdmitted x false = true) (h4 : x.action ≠ 4)
    (hset : x.action = 1 → s.flag TM_SET_BASE.VALID = false) :
    exec (orderRow o m x.action) s = .next (s.after ((s.popAction rest).obeyed x)) := by
  have h8 := State.orderAdmitted_le ha
  have hset' : x.action = 1 → (s.popAction rest).flag TM_SET_BASE.VALID = false := fun h =>
    (s.popAction_flag rest (by decide)).trans (hset h)
  have hdispatch : ∀ k, (s.popAction rest).dispatch 4 x.action x.target x.argument false o.rival k =
      (s.popAction rest).obey x.action x.target x.argument := fun k => by
    rw [hn, State.dispatch_unrivalled 4 k ((State.orderAdmitted_of_phase (s.popAction_phase rest)).trans ha)]
  by_cases hc : rowCarries x.action
  · obtain ⟨hobey, hcarry⟩ := State.obey_carries (x := x) (State.popAction_atRest rest hr)
      (State.powered_of_serving hs : (s.popAction rest).powered = true) hc h4 hset'
    rw [exec_orderRow_carries o m s hc, State.order_card _ hs hv hq, hdispatch, hobey, ← hcarry]
    rfl
  · have hobey := State.obey_eq (s := s.popAction rest) (fun h => hc (.inl h)) (fun h => hc (.inr (.inl h))) h4 h8
    rw [exec_orderRow_plain o m s hc h8, State.order_card _ hs hv hq, hdispatch, hobey]
    rfl

/-- R300: a BEGIN_RESHARD of a host without a reshard and with its plans. -/
theorem State.beginReshard_begins {p : State} {plan : Nat} (hx : p.exch.reshard = none) (hv : p.flag SX_PLAN_BASE.VALID = true) :
    p.beginReshard plan = (p.beginPlan plan, .done) := by
  simp [State.beginReshard, hx, hv]

theorem State.beginReshard_refused {p : State} {plan : Nat} (hv : p.flag SX_PLAN_BASE.VALID = false) :
    p.beginReshard plan = (p.bump SX_EVENTS.BEGIN_REFUSED, .refused) := by
  simp [State.beginReshard, hv]

/-- R300: a plan that begins where no work waits. -/
theorem State.beginPlan_eq {p : State} (plan : Nat) (h : p.tiers.work = []) : p.beginPlan plan =
    { p.set SX_STATUS.PLAN plan with
      exch := { p.exch with reshard := some { plan := plan } }, tiers := { p.tiers with work := [.reshard plan] } } :=
  State.addWork_rest (s := { p.set SX_STATUS.PLAN plan with exch := { p.exch with reshard := some { plan := plan } } }) h

theorem targetOk_ramp {s : State} {mailbox : Bool} (ha : s.orderAdmitted x mailbox = true) (h6 : x.action = 6) : x.target < 256 := by
  simp only [State.orderAdmitted, Bool.and_eq_true] at ha
  obtain ⟨⟨⟨-, ht⟩, -⟩, -⟩ := ha
  rw [h6] at ht
  simpa [targetOk] using ht

end

/-- R300: without its plans a card's BEGIN_RESHARD is refused and counted. -/
theorem exec_card_beginRefused {s : State} {x : Waiting} {rest : List Waiting} {o : Order} (hs : s.serving = true) (hr : s.atRest)
    (hv : o.via = .card) (hn : o.rival = none) (hq : s.loom.actions = x :: rest) (ha : s.orderAdmitted x false = true)
    (h4 : x.action = 4) (hp : s.flag SX_PLAN_BASE.VALID = false) :
    exec (.beginReshard o) s = .next (((s.popAction rest).bump SX_EVENTS.BEGIN_REFUSED).dropAction x 0) := by
  have hflag : (s.popAction rest).flag SX_PLAN_BASE.VALID = false := (s.popAction_flag rest (by decide)).trans hp
  have hobey : (s.popAction rest).obey x.action x.target x.argument = ((s.popAction rest).bump SX_EVENTS.BEGIN_REFUSED, .refused) := by
    simp [State.obey, h4, State.beginReshard_refused hflag]
  have hdispatch : (s.popAction rest).dispatch 4 x.action x.target x.argument false none 0 =
      ((s.popAction rest).bump SX_EVENTS.BEGIN_REFUSED, .refused) := by
    rw [State.dispatch_unrivalled 4 0 ((State.orderAdmitted_of_phase (s.popAction_phase rest)).trans ha), hobey]
  have horder : s.order x.action o 0 = ((s.popAction rest).bump SX_EVENTS.BEGIN_REFUSED).dropAction x 0 := by
    rw [State.order_card 0 hs hv hq, hn, hdispatch]
    rfl
  rw [h4] at horder
  obtain ⟨hdrop, -⟩ := ((s.popAction rest).bump SX_EVENTS.BEGIN_REFUSED).dropAction_shows x (w := 0) (by decide)
    (State.orderAdmitted_le ha)
  have hrest : ((s.popAction rest).bump SX_EVENTS.BEGIN_REFUSED).atRest := State.atRest_of hr rfl rfl rfl
  have honly : onlyRegs ((s.popAction rest).bump SX_EVENTS.BEGIN_REFUSED) _ := hdrop.1
  exact exec_orderRow_rest (a := 4) (m := 0) (by decide) horder (State.atRest_of_rewrites hrest hdrop)
    honly.pending honly.fuses

/-- Settles O19: a card's order is dispatched from `popAction`, and obeyed. -/
theorem cardActionsTakeEffectInOrder : Obligations.CardActionsTakeEffectInOrder := by
  intro s x rest o m hs hr hv hn hq
  refine ⟨fun a h8 ha => exec_orderRow_rest h8 (State.order_card_other _ hs hv hq ha) hr rfl rfl, fun hadm => ?_⟩
  have h8 := State.orderAdmitted_le hadm
  have hdispatch : (s.popAction rest).dispatch 4 x.action x.target x.argument false o.rival 0 =
      (s.popAction rest).obey x.action x.target x.argument := by
    rw [hn, State.dispatch_unrivalled 4 0 ((State.orderAdmitted_of_phase (s.popAction_phase rest)).trans hadm)]
  obtain ⟨⟨-, -, -, hwork, -⟩, -, -, -, -, -, hreshard⟩ := State.popAction_atRest rest hr
  refine ⟨fun h => ?_, fun h4 hset => ?_, fun h4 hp => ?_, fun h4 hp => ?_⟩
  · have hobey : (s.popAction rest).obey x.action x.target x.argument =
        ((s.popAction rest).addWork (.prefetch x.target (bitOf x.argument.toNat 0)), .done) := by simp [State.obey, h]
    have horder := State.order_card (o := o) 0 hs hv hq
    rw [hdispatch, hobey, State.addWork_rest hwork] at horder
    have hrow := exec_orderRow_carries o m s (.inl rfl : rowCarries 1)
    rw [← h, rowMask, if_neg (by omega), horder, h] at hrow
    exact hrow
  · have hset' : x.action = 1 → (s.popAction rest).flag TM_SET_BASE.VALID = false := fun h =>
      (s.popAction_flag rest (by decide)).trans (hset h)
    obtain ⟨hframe, hword⟩ := State.obeyed_frame h4 h8 hset'
    have hseal : s.after ((s.popAction rest).obeyed x) = (s.popAction rest).obeyed x := by
      rw [hframe]; rfl
    have hexec := exec_card_obeyed m hs hr hv hn hq hadm h4 hset
    rw [hseal] at hexec
    refine ⟨_, hexec, orderTakes_obeyed hset' (targetOk_ramp hadm), ?_, ?_, fun h => State.obeyed_nop h, fun h => ?_⟩
    · rw [hframe]; rfl
    · rw [State.get_of_word (hword LS_CARD_EVENTS.FIRED.off (by decide)), State.popAction_fired]
    · rcases h with h | h
      · rw [State.obeyed_commit h]; rfl
      · rw [State.obeyed_deadline h]
  · have hflag : (s.popAction rest).flag SX_PLAN_BASE.VALID = true := (s.popAction_flag rest (by decide)).trans hp
    have hobey : (s.popAction rest).obey x.action x.target x.argument = ((s.popAction rest).beginPlan x.target, .done) := by
      simp [State.obey, h4, State.beginReshard_begins hreshard hflag]
    have horder := State.order_card (o := o) 0 hs hv hq
    rw [hdispatch, hobey, State.beginPlan_eq _ hwork] at horder
    have hrow := exec_orderRow_carries o m s (.inr (.inr rfl) : rowCarries 4)
    rw [← h4, rowMask, if_neg (by omega), horder, h4] at hrow
    exact hrow
  · have hdrop := ((s.popAction rest).bump SX_EVENTS.BEGIN_REFUSED).dropAction_shows x (w := 0) (by decide) h8
    obtain ⟨⟨hframe, hword⟩, -⟩ := hdrop
    refine ⟨_, exec_card_beginRefused hs hr hv hn hq hadm h4 hp, ?_, ?_⟩
    · rw [hframe]; rfl
    · rw [State.get_of_word (hword SX_EVENTS.BEGIN_REFUSED.off (by decide)), State.get_bump_self _ _ 1 (by decide) (by decide)]
      have hcount : (s.popAction rest).get SX_EVENTS.BEGIN_REFUSED = s.get SX_EVENTS.BEGIN_REFUSED :=
        State.get_of_word (State.word_bump_ne (s.popped rest) LS_CARD_EVENTS.FIRED 1 _ (by decide))
      rw [hcount]

end Sys2Proof.Machine

/-! The mailbox (family 02_loom_angle): how its order ends, and the statements O20 and O21. -/

namespace Sys2Proof.Machine

/-! ## How a mailbox order ends (R51, R55) -/

/-- R55: what the end of a mailbox order leaves in the window. -/
theorem State.mboxDone_shows (s : State) (e : OrderEnd) (hw : e.winner < 16) :
    let t := s.mboxDone e
    rewrites { s with loom := { s.loom with mbox := none } } t [LS_MBOX_STATUS.BUSY.off] ∧ t.get LS_MBOX_STATUS.BUSY = 0 ∧
      t.get LS_MBOX_STATUS.STATUS = (if e == .done then 0 else orderRejected) ∧ t.get LS_MBOX_STATUS.WINNER = e.winner := by
  have hstatus : (if e == .done then 0 else orderRejected) % 2 ^ fldWidth LS_MBOX_STATUS.STATUS =
      if e == .done then 0 else orderRejected := by
    split <;> rfl
  have hwinner : e.winner % 2 ^ fldWidth LS_MBOX_STATUS.WINNER = e.winner := Nat.mod_eq_of_lt hw
  have hzero : 0 % 2 ^ fldWidth LS_MBOX_STATUS.BUSY = 0 := rfl
  refine ⟨(((rewrites_refl { s with loom := { s.loom with mbox := none } } _).set _ _ (by decide)).set _ _ (by decide)).set _ _
    (by decide), ?_⟩
  simp (disch := decide) only [State.mboxDone, State.get_set_self, State.get_set_apart, hstatus, hwinner, hzero, and_self]

theorem State.word_mboxDone (s : State) (e : OrderEnd) {off : Nat} (h : off ≠ LS_MBOX_STATUS.BUSY.off) :
    (s.mboxDone e).word off = s.word off := by
  have hr : rewrites { s with loom := { s.loom with mbox := none } } (s.mboxDone e) [LS_MBOX_STATUS.BUSY.off] :=
    (((rewrites_refl { s with loom := { s.loom with mbox := none } } _).set _ _ (by decide)).set _ _ (by decide)).set _ _
      (by decide)
  exact hr.2 off (by simpa using h)

theorem State.mboxDone_frame (s : State) (e : OrderEnd) :
    s.mboxDone e = { s with regs := (s.mboxDone e).regs, loom := { s.loom with mbox := none } } := rfl

/-- R55: the mailbox order has completed with OK. -/
def mboxEnded (t : State) : Prop :=
  t.loom.mbox = none ∧ t.get LS_MBOX_ORDER.GO = 0 ∧ t.get LS_MBOX_STATUS.BUSY = 0 ∧ t.get LS_MBOX_STATUS.STATUS = 0 ∧
    t.get LS_MBOX_STATUS.WINNER = 0

theorem mboxEnded_mboxDone {s : State} (h : s.get LS_MBOX_ORDER.GO = 0) : mboxEnded (s.mboxDone .done) := by
  obtain ⟨-, hbusy, hstatus, hwinner⟩ := s.mboxDone_shows .done (by decide)
  exact ⟨rfl, (State.get_of_word (s.word_mboxDone .done (by decide))).trans h, hbusy, hstatus, hwinner⟩

/-- What an order of Table 2.7 leaves does not undo the completion. -/
theorem mboxEnded_orderFrame {s t : State} (h : mboxEnded s) (ht : orderFrame s t) : mboxEnded t := by
  obtain ⟨hmbox, hgo, hbusy, hstatus, hwinner⟩ := h
  obtain ⟨hframe, hword⟩ := ht
  have hstat := hword LS_MBOX_STATUS.BUSY.off (by decide)
  refine ⟨by rw [hframe]; exact hmbox, ?_, ?_, ?_, ?_⟩
  · rwa [State.get_of_word (hword LS_MBOX_ORDER.GO.off (by decide))]
  · rwa [State.get_of_word hstat]
  · rwa [State.get_of_word (f := LS_MBOX_STATUS.STATUS) hstat]
  · rwa [State.get_of_word (f := LS_MBOX_STATUS.WINNER) hstat]

/-- The completion takes nothing back of what an order leaves. -/
theorem orderTakes_mboxDone {p t : State} {x : Waiting} (e : OrderEnd) (h : orderTakes p t x) : orderTakes p (t.mboxDone e) x := by
  have hslice : ∀ i < 8, (BC_SLICE_SNAP.EVENTS i).off ≠ LS_MBOX_STATUS.BUSY.off ∧
      (BC_SLICE_EVENTS.HITS i).off ≠ LS_MBOX_STATUS.BUSY.off := by decide
  have hstall : ∀ i < 16, (TM_STALL_SNAP.CORE i).off ≠ LS_MBOX_STATUS.BUSY.off ∧
      (TM_STALL_SNAP.BOLT i).off ≠ LS_MBOX_STATUS.BUSY.off ∧ (TM_STALL_CORE.CYCLES i).off ≠ LS_MBOX_STATUS.BUSY.off ∧
      (TM_STALL_BOLT.CYCLES i).off ≠ LS_MBOX_STATUS.BUSY.off := by decide
  obtain ⟨hprefetch, hrelease, hcommit, hdeadline, hramp, hdrain, hsnap⟩ := h
  refine ⟨hprefetch, hrelease, hcommit, hdeadline, hramp, hdrain, fun ha => ?_⟩
  obtain ⟨h6, h7, h11⟩ := hsnap ha
  refine ⟨fun hb i hi => ?_, fun hb i hi => ?_, fun hb => ?_⟩
  · obtain ⟨hsnapOff, hhitsOff⟩ := hslice i hi
    rw [t.word_mboxDone e hsnapOff, t.word_mboxDone e hhitsOff]
    exact h6 hb i hi
  · obtain ⟨hcoreSnap, hboltSnap, hcore, hbolt⟩ := hstall i hi
    rw [t.word_mboxDone e hcoreSnap, t.word_mboxDone e hboltSnap, t.word_mboxDone e hcore, t.word_mboxDone e hbolt]
    exact h7 hb i hi
  · rw [t.word_mboxDone e (by decide), t.word_mboxDone e (by decide), t.word_mboxDone e (by decide), t.word_mboxDone e (by decide)]
    exact h11 hb

/-- Of the orders that pin or release a set, it does not matter whether they have completed before. -/
theorem orderTakes_of_mboxDone {p t : State} {x : Waiting} {e : OrderEnd} (hx : x.action = 1 ∨ x.action = 2)
    (h : orderTakes (p.mboxDone e) t x) : orderTakes p t x := by
  have hset : (p.mboxDone e).flag TM_SET_BASE.VALID = p.flag TM_SET_BASE.VALID :=
    State.flag_of_word (p.word_mboxDone e (by decide))
  obtain ⟨hprefetch, hrelease, -⟩ := h
  refine ⟨fun h1 => ?_, hrelease, ?_, ?_, ?_, ?_, ?_⟩
  · rw [hset] at hprefetch
    exact hprefetch h1
  all_goals intro ha; omega

theorem State.set_addWork (s : State) (w : Work) (f : Fld) (v : Nat) : (s.addWork w).set f v = (s.set f v).addWork w := rfl

theorem State.mboxDone_addWork (s : State) (w : Work) (e : OrderEnd) : (s.addWork w).mboxDone e = (s.mboxDone e).addWork w := by
  have hmbox : { s.addWork w with loom := { s.loom with mbox := none } } =
      { s with loom := { s.loom with mbox := none } }.addWork w := rfl
  unfold State.mboxDone
  dsimp only [State.addWork_loom]
  rw [hmbox, State.set_addWork, State.set_addWork, State.set_addWork]

theorem State.mboxDone_atRest {s : State} (e : OrderEnd) (h : s.atRest) : (s.mboxDone e).atRest := State.atRest_of h rfl rfl rfl

theorem State.phase_taken (s : State) : (s.set LS_MBOX_ORDER.GO 0).phase = s.phase :=
  State.get_set_apart s LS_MBOX_ORDER.GO LS_STATUS.PHASE 0 (by decide) (by decide) (by decide)

section
variable {s : State} {x : Waiting} {o : Order}

/-- R55: an admitted order without a rival takes its effect and completes. -/
theorem exec_mailbox_obeyed (m : BitVec 8) (hs : s.serving = true) (hr : s.atRest) (hv : o.via = .mailbox)
    (hq : s.loom.mbox = some x) (ha : s.orderAdmitted x true = true) (hn : o.rival = none) (h4 : x.action ≠ 4)
    (hset : x.action = 1 → s.flag TM_SET_BASE.VALID = false) :
    ∃ t, exec (orderRow o m x.action) s = .next t ∧ mboxEnded t ∧ orderTakes (s.set LS_MBOX_ORDER.GO 0) t x := by
  have h8 := State.orderAdmitted_le ha
  have hgo : (s.set LS_MBOX_ORDER.GO 0).get LS_MBOX_ORDER.GO = 0 := State.get_set_self s _ 0 (by decide) (by decide)
  have hphase : (s.set LS_MBOX_ORDER.GO 0).phase = s.phase := s.phase_taken
  have hset' : x.action = 1 → (s.set LS_MBOX_ORDER.GO 0).flag TM_SET_BASE.VALID = false := fun h =>
    (State.flag_of_word (State.word_set_ne s _ 0 _ (by decide))).trans (hset h)
  have hdispatch : ∀ k, (s.set LS_MBOX_ORDER.GO 0).dispatch 3 x.action x.target x.argument true o.rival k =
      (s.set LS_MBOX_ORDER.GO 0).obey x.action x.target x.argument := fun k => by
    rw [hn, State.dispatch_unrivalled 3 k ((State.orderAdmitted_of_phase hphase).trans ha)]
  have hrest : (s.set LS_MBOX_ORDER.GO 0).atRest := State.atRest_of hr rfl rfl rfl
  have hpow : (s.set LS_MBOX_ORDER.GO 0).powered = true := State.powered_of_serving hs
  by_cases hc : rowCarries x.action
  · have hset1 : x.action = 1 → ((s.set LS_MBOX_ORDER.GO 0).mboxDone .done).flag TM_SET_BASE.VALID = false := fun h =>
      (State.flag_of_word (State.word_mboxDone _ .done (by decide))).trans (hset' h)
    obtain ⟨hobey, -⟩ := State.obey_carries hrest hpow hc h4 hset'
    obtain ⟨-, hcarry⟩ := State.obey_carries (State.mboxDone_atRest .done hrest) hpow hc h4 hset1
    have hframe := State.obeyed_frame h4 h8 hset1
    have hexec := exec_orderRow_carries o m s hc
    rw [State.order_mailbox _ hs hv hq, hdispatch, hobey] at hexec
    dsimp only at hexec
    rw [State.mboxDone_addWork, hcarry, State.after_eq s _ (by rw [hframe.1]; rfl) (by rw [hframe.1]; rfl)] at hexec
    have hx : x.action = 1 ∨ x.action = 2 := by unfold rowCarries at hc; omega
    exact ⟨_, hexec, mboxEnded_orderFrame (mboxEnded_mboxDone hgo) hframe,
      orderTakes_of_mboxDone hx (orderTakes_obeyed hset1 (targetOk_ramp ha))⟩
  · have hobey := State.obey_eq (s := s.set LS_MBOX_ORDER.GO 0) (fun h => hc (.inl h)) (fun h => hc (.inr (.inl h))) h4 h8
    obtain ⟨hframe, hword⟩ := State.obeyed_frame h4 h8 hset'
    have hexec := exec_orderRow_plain o m s hc h8
    have hpend : ((s.set LS_MBOX_ORDER.GO 0).obeyed x).pending = s.pending := by rw [hframe]; rfl
    have hfuse : ((s.set LS_MBOX_ORDER.GO 0).obeyed x).fuses = s.fuses := by rw [hframe]; rfl
    rw [State.order_mailbox _ hs hv hq, hdispatch, hobey] at hexec
    dsimp only at hexec
    rw [State.after_eq s (((s.set LS_MBOX_ORDER.GO 0).obeyed x).mboxDone .done) hpend hfuse] at hexec
    refine ⟨_, hexec, mboxEnded_mboxDone ?_, orderTakes_mboxDone .done (orderTakes_obeyed hset' (targetOk_ramp ha))⟩
    exact (State.get_of_word (hword LS_MBOX_ORDER.GO.off (by decide))).trans hgo

end

/-- R55: an order that ends without an effect leaves its end alone. -/
theorem exec_mailbox_ends {s : State} {x : Waiting} {o : Order} {m : BitVec 8} {e : OrderEnd} (hr : s.atRest) (h8 : x.action ≤ 8)
    (h : s.order x.action o (rowMask m x.action) = (s.set LS_MBOX_ORDER.GO 0).mboxDone e) :
    exec (orderRow o m x.action) s = .next ((s.set LS_MBOX_ORDER.GO 0).mboxDone e) :=
  exec_orderRow_rest h8 h (State.mboxDone_atRest e (State.atRest_of hr rfl rfl rfl)) rfl rfl

theorem State.mailboxEnds_shows (s : State) (e : OrderEnd) (hw : e.winner < 16) :
    let t := (s.set LS_MBOX_ORDER.GO 0).mboxDone e
    rewrites { s with loom := { s.loom with mbox := none } } t [LS_MBOX_ORDER.GO.off, LS_MBOX_STATUS.BUSY.off] ∧
      t.get LS_MBOX_STATUS.BUSY = 0 ∧ t.get LS_MBOX_STATUS.STATUS = (if e == .done then 0 else orderRejected) ∧
      t.get LS_MBOX_STATUS.WINNER = e.winner := by
  obtain ⟨hdone, hshows⟩ := (s.set LS_MBOX_ORDER.GO 0).mboxDone_shows e hw
  have hgo : rewrites { s with loom := { s.loom with mbox := none } }
      ({ s with loom := { s.loom with mbox := none } }.set LS_MBOX_ORDER.GO 0) [LS_MBOX_ORDER.GO.off] :=
    rewrites_set _ _ _
  exact ⟨rewrites_trans hgo hdone (by decide) (by decide), hshows⟩

theorem rivalCode_lt (r : Rival) : rivalCode r < 16 := by cases r <;> decide

theorem State.popAction_dropped (s : State) (rest : List Waiting) :
    (s.popAction rest).get LS_CARD_EVENTS.DROPPED = s.get LS_CARD_EVENTS.DROPPED :=
  State.get_bump_apart (s.popped rest) LS_CARD_EVENTS.FIRED LS_CARD_EVENTS.DROPPED 1 (by decide) (by decide) (by decide)

/-- R32, R48, R51: a dispatch that refuses or defeats an order changes nothing, and says by whom. -/
theorem State.dispatch_turned {p : State} {x : Waiting} {mailbox : Bool} {rank : Nat} {rival : Option Rival} {winner : Nat} (mask : Nat)
    (hrank : rank ≤ 6) (h8 : x.action ≤ 8)
    (h : (p.orderAdmitted x mailbox = false ∧ winner = 0) ∨ (p.orderAdmitted x mailbox = true ∧ contradicts x.action = true ∧
      x.action ≠ 6 ∧ ∃ r, defeatedBy rank rival = some r ∧ winner = rivalCode r)) :
    ∃ e : OrderEnd, e ≠ .done ∧ e.winner = winner ∧ winner < 16 ∧
      p.dispatch rank x.action x.target x.argument mailbox rival mask = (p, e) := by
  rcases h with ⟨ha, rfl⟩ | ⟨ha, hc, h6, r, hr, rfl⟩
  · exact ⟨.refused, by decide, rfl, by decide, State.dispatch_refused rank rival mask h8 ha⟩
  · exact ⟨.lost (rivalCode r), nofun, rfl, rivalCode_lt r, State.dispatch_lost mask hrank ha hc h6 hr⟩

/-- Settles O20: an admitted mailbox order is obeyed and completes, and what it leaves waiting goes on from the completed state. -/
theorem mailboxOrdersTakeEffect : Obligations.MailboxOrdersTakeEffect := by
  intro s x o m hs hr hv hq ha
  have h8 := State.orderAdmitted_le ha
  have hphase : (s.set LS_MBOX_ORDER.GO 0).phase = s.phase := s.phase_taken
  have hadm : (s.set LS_MBOX_ORDER.GO 0).orderAdmitted x true = true := (State.orderAdmitted_of_phase hphase).trans ha
  have hrest : (s.set LS_MBOX_ORDER.GO 0).atRest := State.atRest_of hr rfl rfl rfl
  obtain ⟨⟨-, -, -, hwork, -⟩, -, -, -, -, -, hreshard⟩ := hrest
  have horder := fun k => State.order_mailbox (o := o) k hs hv hq
  refine ⟨fun hn h => ?_, fun hn h4 hset => exec_mailbox_obeyed m hs hr hv hq ha hn h4 hset, fun hn h4 hp => ?_, fun hsame => ?_⟩
  · have hobey : (s.set LS_MBOX_ORDER.GO 0).obey x.action x.target x.argument =
        ((s.set LS_MBOX_ORDER.GO 0).addWork (.prefetch x.target (bitOf x.argument.toNat 0)), .done) := by simp [State.obey, h]
    have hrow := exec_orderRow_carries o m s (.inl rfl : rowCarries 1)
    rw [← h, rowMask, if_neg (by omega), horder, hn, State.dispatch_unrivalled 3 0 hadm, hobey, State.addWork_rest hwork, h] at hrow
    exact hrow
  · have hflag : (s.set LS_MBOX_ORDER.GO 0).flag SX_PLAN_BASE.VALID = true :=
      (State.flag_of_word (State.word_set_ne s _ 0 _ (by decide))).trans hp
    have hobey : (s.set LS_MBOX_ORDER.GO 0).obey x.action x.target x.argument =
        ((s.set LS_MBOX_ORDER.GO 0).beginPlan x.target, .done) := by
      simp [State.obey, h4, State.beginReshard_begins hreshard hflag]
    have hrow := exec_orderRow_carries o m s (.inr (.inr rfl) : rowCarries 4)
    rw [← h4, rowMask, if_neg (by omega), horder, hn, State.dispatch_unrivalled 3 0 hadm, hobey, State.beginPlan_eq _ hwork, h4] at hrow
    exact hrow
  · have hdone : s.order x.action o (rowMask m x.action) = (s.set LS_MBOX_ORDER.GO 0).mboxDone .done := by
      rw [horder, hsame, State.dispatch_same 3 _ hadm]
    exact ⟨_, exec_mailbox_ends hr h8 hdone, mboxEnded_mboxDone (State.get_set_self s LS_MBOX_ORDER.GO 0 (by decide) (by decide)),
      (s.mailboxEnds_shows .done (by decide)).1⟩

/-- Settles O21: a dispatch that refuses or defeats an order leaves the state it was given, and the order ends from there. -/
theorem refusedOrdersTakeNoEffect : Obligations.RefusedOrdersTakeNoEffect := by
  intro s x rest o m winner hs hr h8
  refine ⟨fun hv hq hcase => ?_, fun hv hq hcase => ?_⟩
  · have hphase := s.popAction_phase rest
    obtain ⟨e, hdone, hwinner, hwin, hend⟩ := State.dispatch_turned (rank := 4) (x := x) (p := s.popAction rest)
      (rowMask m x.action) (by decide) h8 (by rwa [State.orderAdmitted_of_phase hphase])
    have horder : s.order x.action o (rowMask m x.action) = (s.popAction rest).dropAction x winner := by
      rw [State.order_card _ hs hv hq, hend]
      simp [hdone, hwinner]
    obtain ⟨hdrop, hdropped, hfired, hreject⟩ := (s.popAction rest).dropAction_shows x hwin h8
    have hpop : rewrites (s.popped rest) (s.popAction rest) [LS_CARD_EVENTS.FIRED.off] :=
      (rewrites_refl (s.popped rest) _).bump _ 1 (by decide)
    refine ⟨_, exec_orderRow_rest h8 horder (State.atRest_of_rewrites (State.popAction_atRest rest hr) hdrop) rfl rfl,
      rewrites_trans hpop hdrop (by decide) (List.Subset.refl _), ?_, hfired.trans (s.popAction_fired rest), hreject⟩
    rw [hdropped, s.popAction_dropped rest]
  · have hphase : (s.set LS_MBOX_ORDER.GO 0).phase = s.phase := s.phase_taken
    obtain ⟨e, hdone, hwinner, hwin, hend⟩ := State.dispatch_turned (rank := 3) (x := x) (p := s.set LS_MBOX_ORDER.GO 0)
      (rowMask m x.action) (by decide) h8 (by rwa [State.orderAdmitted_of_phase hphase])
    have horder : s.order x.action o (rowMask m x.action) = (s.set LS_MBOX_ORDER.GO 0).mboxDone e := by
      rw [State.order_mailbox _ hs hv hq, hend]
    obtain ⟨hwrites, hbusy, hstatus, hwins⟩ := s.mailboxEnds_shows e (hwinner ▸ hwin)
    refine ⟨_, exec_mailbox_ends hr h8 horder, hwrites, hbusy, ?_, hwins.trans hwinner⟩
    rw [hstatus, if_neg (by simpa using hdone)]
    rfl

end Sys2Proof.Machine

/-! The exchange's registers (family 02_loom_angle): ABORT of a reshard, and the write-locked SX_NODE and SX_EPOCH; the statement
O48. -/

namespace Sys2Proof.Machine

/-! ## Write-locked registers (R12) -/

/-- The register of the field has a WL field there. -/
def wlField (g : Fld) : Bool :=
  (findReg g.off).any (fun r => r.fields.any (fun f => f.acc == .wl && f.hi == g.hi && f.lo == g.lo))

theorem wlField_iff {g : Fld} (h : wlField g = true) :
    ∃ r, findReg g.off = some r ∧ ∃ f ∈ r.fields, f.acc = .wl ∧ f.hi = g.hi ∧ f.lo = g.lo := by
  obtain ⟨r, hr, hf⟩ := (Option.any_eq_true _ _).mp h
  obtain ⟨f, hmem, hf⟩ := List.any_eq_true.mp hf
  simp only [Bool.and_eq_true, beq_iff_eq] at hf
  exact ⟨r, hr, f, hmem, hf.1.1, hf.1.2, hf.2⟩

/-- R12: a WL field takes its first write. -/
theorem State.get_writeFields_first {s : State} {v : W64} {g : Fld} (h : wlField g = true)
    (hl : s.locked.contains (g.off * 64 + g.lo) = false) : (s.writeFields g.off v).get g = bitsOf v.toNat g.hi g.lo := by
  obtain ⟨r, hr, f, hf, hacc, hhi, hlo⟩ := wlField_iff h
  unfold State.get
  rw [State.word_writeFields_self hr, ← hhi, ← hlo, bitsOf_foldl_writeField _ _ _ _ (findReg_apart hr) f hf, hacc, hlo]
  simp only [fieldAfter, hl, Bool.false_eq_true, if_false]

theorem State.wl_locked_writeFields {s : State} {v : W64} {g : Fld} (h : wlField g = true) :
    (s.writeFields g.off v).locked.contains (g.off * 64 + g.lo) = true := by
  obtain ⟨r, hr, f, hf, hacc, -, hlo⟩ := wlField_iff h
  rw [← hlo]
  exact State.locked_writeFields hr hf hacc

/-- R12: a register all of whose fields are WL and locked keeps its word. -/
theorem State.word_writeFields_locked {s : State} {v : W64} {off : Nat} (r : RegWord) (h : findReg off = some r)
    (hl : ∀ f ∈ r.fields, f.acc = .wl ∧ s.locked.contains (off * 64 + f.lo) = true) (off' : Nat) :
    (s.writeFields off v).word off' = s.word off' := by
  by_cases ho : off' = off
  · have hkeep : ∀ (l : List FieldDesc) (w : W64), (∀ f ∈ l, f ∈ r.fields) →
        l.foldl (writeField v (fun lo => s.locked.contains (off * 64 + lo))) w = w := by
      intro l
      induction l with
      | nil => exact fun _ _ => rfl
      | cons f l ih =>
        intro w hsub
        obtain ⟨hacc, hlock⟩ := hl f (hsub f List.mem_cons_self)
        have hfield : writeField v (fun lo => s.locked.contains (off * 64 + lo)) w f = w := by
          simp only [writeField, hacc, hlock, if_true]
        rw [List.foldl_cons, hfield]
        exact ih w (fun g hg => hsub g (List.mem_cons_of_mem _ hg))
    rw [ho, State.word_writeFields_self h]
    exact hkeep _ _ (fun _ hf => hf)
  · exact State.word_writeFields_apart s v ho

/-- Every field of the register is a WL field, and one of those listed. -/
def wlCovered (off : Nat) (l : List Fld) : Bool :=
  (findReg off).any (fun r => r.fields.all (fun f => f.acc == .wl && l.any (fun g => g.off == off && g.lo == f.lo)))

theorem State.word_writeFields_taken {s : State} {v : W64} {off : Nat} {l : List Fld} (h : wlCovered off l = true)
    (hl : ∀ f ∈ l, s.locked.contains (f.off * 64 + f.lo) = true) (off' : Nat) : (s.writeFields off v).word off' = s.word off' := by
  obtain ⟨r, hr, hall⟩ := (Option.any_eq_true _ _).mp h
  refine State.word_writeFields_locked r hr (fun f hf => ?_) off'
  have hfield := List.all_eq_true.mp hall f hf
  rw [Bool.and_eq_true, beq_iff_eq, List.any_eq_true] at hfield
  obtain ⟨hacc, g, hg, hsame⟩ := hfield
  rw [Bool.and_eq_true, beq_iff_eq, beq_iff_eq] at hsame
  obtain ⟨hoff, hlo⟩ := hsame
  exact ⟨hacc, by rw [← hoff, ← hlo]; exact hl g hg⟩

/-- A write of the registers of chapter 11 that the port makes. -/
theorem State.after_port {s : State} {off : Nat} {f : State → State} (hg : s.writeGate off = .made) (hp : (f s).pending = s.pending)
    (hf : (f s).fuses = s.fuses) : s.after (s.atPort off f) = { f s with resp := .written } := by
  rw [State.atPort_made f hg]
  exact State.after_eq s _ hp hf

/-- A one-bit field, once it holds a bit of a word. -/
theorem State.flag_of_first {s : State} {f : Fld} {v : W64} {b : Bool} (h : s.get f = bitsOf v.toNat 63 63)
    (hb : bitOf v.toNat 63 = b) : s.flag f = b := by
  rw [← hb, bitOf_eq_bitsOf]
  unfold State.flag
  rw [h]

/-! ## SX_NODE and SX_EPOCH (R281, R291) -/

theorem wlField_sxNode : ∀ f ∈ [SX_NODE.VALID, SX_NODE.MILL, SX_NODE.HOST, SX_NODE.HOSTS], wlField f = true := by decide +kernel
theorem wlField_sxEpoch : ∀ f ∈ [SX_EPOCH.VALID, SX_EPOCH.EPOCH], wlField f = true := by decide +kernel

theorem wlCovered_sxNode : wlCovered SX_NODE.VALID.off [SX_NODE.VALID, SX_NODE.MILL, SX_NODE.HOST, SX_NODE.HOSTS] = true := by
  decide +kernel
theorem wlCovered_sxEpoch : wlCovered SX_EPOCH.VALID.off [SX_EPOCH.VALID, SX_EPOCH.EPOCH] = true := by decide +kernel

/-- R281: the nodes that a write of SX_NODE does not take. -/
def nodeIllFormed (v : W64) : Bool :=
  bitOf v.toNat 63 && (bitsOf v.toNat 3 0 == 0 || decide (8 < bitsOf v.toNat 3 0) || decide (bitsOf v.toNat 3 0 ≤ bitsOf v.toNat 6 4))

theorem State.writeSxNode_eq (s : State) (v : W64) :
    s.writeSxNode v = if nodeIllFormed v then s else s.writeFields SX_NODE.VALID.off v := rfl

theorem exec_sxNodeWrite {s : State} {v : W64} (hg : s.writeGate SX_NODE.VALID.off = .made) :
    exec (.sxNodeWrite v) s =
      .next { if nodeIllFormed v then s else s.writeFields SX_NODE.VALID.off v with resp := .written } := by
  have hstep : exec (.sxNodeWrite v) s = .next (s.after (s.atPort SX_NODE.VALID.off (fun s => s.writeSxNode v))) := rfl
  have hp : (s.writeSxNode v).pending = s.pending := by
    rw [State.writeSxNode_eq]; split <;> simp only [State.writeFields_pending]
  have hf : (s.writeSxNode v).fuses = s.fuses := by
    rw [State.writeSxNode_eq]; split <;> simp only [State.writeFields_fuses]
  rw [hstep, State.after_port hg hp hf, State.writeSxNode_eq]

theorem exec_sxEpochWrite {s : State} {v : W64} (hg : s.writeGate SX_EPOCH.VALID.off = .made) :
    exec (.sxEpochWrite v) s = .next { s.writeFields SX_EPOCH.VALID.off v with resp := .written } := by
  have hstep : exec (.sxEpochWrite v) s =
    .next (s.after (s.atPort SX_EPOCH.VALID.off (fun s => s.writeFields SX_EPOCH.VALID.off v))) := rfl
  rw [hstep, State.after_port hg (s.writeFields_pending _ v) (s.writeFields_fuses _ v)]

/-! ## ABORT (R303) -/

/-- What the end of a reshard may touch: registers, the work that waits, and the exchange. -/
def onlyExchange (s t : State) : Prop := t = { s with regs := t.regs, tiers := t.tiers, exch := t.exch }

theorem State.addWork_bump_exch (s : State) (w : Work) (f : Fld) : ((s.addWork w).bump f).exch = s.exch := rfl

theorem onlyExchange_foldl {α : Type} {f : State → α → State} (h : ∀ s a, onlyExchange s (f s a) ∧ (f s a).exch = s.exch) (l : List α)
    (s : State) : onlyExchange s (l.foldl f s) ∧ (l.foldl f s).exch = s.exch := by
  induction l generalizing s with
  | nil => exact ⟨rfl, rfl⟩
  | cons a l ih =>
    obtain ⟨hframe, hexch⟩ := ih (f s a)
    obtain ⟨hframe', hexch'⟩ := h s a
    refine ⟨?_, hexch.trans hexch'⟩
    unfold onlyExchange at hframe hframe' ⊢
    rw [List.foldl_cons, hframe, hframe']

theorem rewrites_sxLog (s : State) (kind host adapter seq : Nat) :
    rewrites s (s.sxLog kind host adapter seq) [SX_FAULT_LOG.VALID.off, SX_FAULT_LOG.SEQ.off] := by
  unfold State.sxLog
  split
  · exact rewrites_refl s _
  · exact ((((((rewrites_refl s _).set _ _ (by decide)).set _ _ (by decide)).set _ _ (by decide)).set _ _ (by decide)).set _ _
      (by decide)).set _ _ (by decide)

/-- R303: the work that a reshard has waiting. -/
def reshardWork : Work → Bool
  | .payload k _ _ _ => k == 5 || k == 6
  | .reshard _ => true
  | _ => false

/-- R303: the state of an engine whose reshard is gone, before the lost adapters are discarded. -/
def State.dropReshard (s : State) (r : Reshard) : State :=
  { s with tiers := { s.tiers with work := s.tiers.work.filter (fun w => !reshardWork w) },
           exch := { s.exch with reshard := none,
                                 outstanding := s.exch.outstanding.filter (fun m => !r.sends.contains m.id) } }

/-- R303: the adapters that a reshard ending as failed loses. -/
def State.lostAdapters (s : State) (r : Reshard) : List Nat :=
  sortNub (r.gathers.map (·.1) ++ (s.exch.outstanding.filter (fun m => r.sends.contains m.id && m.kind == 5)).filterMap (·.adapter))

/-- R303: an adapter whose gather is incomplete loses its pending version. -/
def State.loseAdapter (s : State) (a : Nat) : State := (s.addWork (.discard a true)).bump SX_GATHER_EVENTS.ADAPTERS_LOST

theorem State.failReshard_eq {s : State} {r : Reshard} (kind host adapter seq : Nat) (h : s.exch.reshard = some r) :
    s.failReshard kind host adapter seq =
      (((s.lostAdapters r).foldl State.loseAdapter (s.dropReshard r)).sxLog kind host adapter seq).set SX_STATUS.RESHARD_FAILED 1 := by
  unfold State.failReshard
  rw [h]
  rfl

/-- R303: a reshard that ends as failed leaves nothing of it. -/
theorem State.failReshard_shows {s : State} {r : Reshard} (kind host adapter seq : Nat) (h : s.exch.reshard = some r) :
    let t := s.failReshard kind host adapter seq
    onlyExchange s t ∧ t.exch.reshard = none ∧
      t.exch.outstanding = s.exch.outstanding.filter (fun m => !r.sends.contains m.id) ∧ t.get SX_STATUS.RESHARD_FAILED = 1 := by
  obtain ⟨hframe, hexch⟩ := onlyExchange_foldl (f := State.loseAdapter) (fun _ _ => ⟨rfl, rfl⟩) (s.lostAdapters r) (s.dropReshard r)
  obtain ⟨hlog, -⟩ := rewrites_sxLog ((s.lostAdapters r).foldl State.loseAdapter (s.dropReshard r)) kind host adapter seq
  have hall : (s.failReshard kind host adapter seq).exch = (s.dropReshard r).exch := by
    rw [State.failReshard_eq _ _ _ _ h, State.set_exch, hlog]; exact hexch
  refine ⟨?_, by rw [hall]; rfl, by rw [hall]; rfl, ?_⟩
  · unfold onlyExchange at hframe ⊢
    rw [State.failReshard_eq _ _ _ _ h, hlog, hframe]
    rfl
  · rw [State.failReshard_eq _ _ _ _ h, State.get_set_self _ _ 1 (by decide) (by decide)]
    rfl

/-- R303: ABORT as the mailbox gives it. -/
def abortWord : W64 := cmdWord [(SX_RESHARD_CMD.ABORT, 1)]

theorem exec_reshardAbort {s : State} {rival : Option Rival} (hg : s.writeGate SX_RESHARD_CMD.ABORT.off = .made)
    (hp : (s.writeReshardCmd abortWord rival).pending = s.pending) (hf : (s.writeReshardCmd abortWord rival).fuses = s.fuses) :
    exec (.reshardAbort rival) s = .next { s.writeReshardCmd abortWord rival with resp := .written } := by
  have hstep : exec (.reshardAbort rival) s =
    .next (s.after (s.atPort SX_RESHARD_CMD.ABORT.off (fun s => s.writeReshardCmd abortWord rival))) := rfl
  rw [hstep, State.after_port hg hp hf]

theorem State.writeReshardCmd_abort (s : State) (rival : Option Rival) : s.writeReshardCmd abortWord rival =
    if rival == some .same then (s.set SX_RESHARD_CMD.WINNER 0).set SX_RESHARD_CMD.STATUS 0 else
    match defeatedBy 3 rival with
    | some r => (s.set SX_RESHARD_CMD.STATUS orderRejected).set SX_RESHARD_CMD.WINNER (rivalCode r)
    | none =>
      if s.exch.reshard.isSome then
        ((s.set SX_RESHARD_CMD.WINNER 0).failReshard 4 (s.set SX_RESHARD_CMD.WINNER 0).self 0 0).set SX_RESHARD_CMD.STATUS 0
      else (s.set SX_RESHARD_CMD.WINNER 0).set SX_RESHARD_CMD.STATUS 1 := by
  have habort : bitOf abortWord.toNat 63 = true := by decide
  unfold State.writeReshardCmd
  rw [habort]
  rfl

theorem rewrites.abort {s : State} {rival : Option Rival} (hg : s.writeGate SX_RESHARD_CMD.ABORT.off = .made)
    (h : rewrites s (s.writeReshardCmd abortWord rival) [SX_RESHARD_CMD.ABORT.off]) :
    exec (.reshardAbort rival) s = .next { s.writeReshardCmd abortWord rival with resp := .written } ∧
      rewrites { s with resp := .written } { s.writeReshardCmd abortWord rival with resp := .written } [SX_RESHARD_CMD.ABORT.off] :=
  ⟨exec_reshardAbort hg (onlyRegs.pending h.1) (onlyRegs.fuses h.1), rewrites_written h⟩

/-- Settles O48: ABORT by its four ends, and the two write-locked registers by their access codes. -/
theorem exchangeRegistersObeyTheirRules : Obligations.ExchangeRegistersObeyTheirRules := by
  intro s v rival hb hst
  have hgate : ∀ off, s.writeGate off = .made := fun off => State.writeGate_up hb (by simp [hst]) (by simp [hst])
  have habort := s.writeReshardCmd_abort
  have hzero : 0 % 2 ^ fldWidth SX_RESHARD_CMD.WINNER = 0 := rfl
  have hvalid : SX_EPOCH.VALID.off * 64 + 63 = SX_EPOCH.VALID.off * 64 + SX_EPOCH.VALID.lo := rfl
  have hepoch : SX_EPOCH.VALID.off * 64 = SX_EPOCH.EPOCH.off * 64 + SX_EPOCH.EPOCH.lo := rfl
  refine ⟨fun r hr => ?_, ?_, fun hsame hr hnone => ?_, fun r hsame hr hsome => ?_, ?_, fun hv he => ?_, fun hv he => ?_⟩
  · have hlose : s.writeReshardCmd abortWord rival =
        (s.set SX_RESHARD_CMD.STATUS orderRejected).set SX_RESHARD_CMD.WINNER (rivalCode r) := by
      rw [habort, if_neg (by simpa using defeatedBy_not_same (by decide) hr), hr]
    have hrw : rewrites s (s.writeReshardCmd abortWord rival) [SX_RESHARD_CMD.ABORT.off] := by
      rw [hlose]; exact ((rewrites_refl s _).set _ _ (by decide)).set _ _ (by decide)
    obtain ⟨hexec, hwrites⟩ := hrw.abort (hgate _)
    refine ⟨_, hexec, hwrites, ?_, ?_⟩ <;> rw [State.get_written, hlose]
    · rw [State.get_set_apart _ _ _ _ (by decide) (by decide) (by decide), State.get_set_self _ _ _ (by decide) (by decide)]
      rfl
    · rw [State.get_set_self _ _ _ (by decide) (by decide)]
      exact Nat.mod_eq_of_lt (rivalCode_lt r)
  · have hdone : s.writeReshardCmd abortWord (some .same) = (s.set SX_RESHARD_CMD.WINNER 0).set SX_RESHARD_CMD.STATUS 0 := by
      rw [habort, if_pos (beq_self_eq_true _)]
    have hrw : rewrites s (s.writeReshardCmd abortWord (some .same)) [SX_RESHARD_CMD.ABORT.off] := by
      rw [hdone]; exact ((rewrites_refl s _).set _ _ (by decide)).set _ _ (by decide)
    obtain ⟨hexec, hwrites⟩ := hrw.abort (hgate _)
    refine ⟨_, hexec, hwrites, ?_, ?_⟩ <;> rw [State.get_written, hdone]
    · rw [State.get_set_self _ _ _ (by decide) (by decide)]
      rfl
    · rw [State.get_set_apart _ _ _ _ (by decide) (by decide) (by decide), State.get_set_self _ _ _ (by decide) (by decide), hzero]
  · have hidle : s.writeReshardCmd abortWord rival = (s.set SX_RESHARD_CMD.WINNER 0).set SX_RESHARD_CMD.STATUS 1 := by
      rw [habort, if_neg (by simpa using hsame), hr, hnone]
      rfl
    have hrw : rewrites s (s.writeReshardCmd abortWord rival) [SX_RESHARD_CMD.ABORT.off] := by
      rw [hidle]; exact ((rewrites_refl s _).set _ _ (by decide)).set _ _ (by decide)
    obtain ⟨hexec, hwrites⟩ := hrw.abort (hgate _)
    refine ⟨_, hexec, hwrites, ?_, ?_⟩ <;> rw [State.get_written, hidle]
    · rw [State.get_set_self _ _ _ (by decide) (by decide)]
      rfl
    · rw [State.get_set_apart _ _ _ _ (by decide) (by decide) (by decide), State.get_set_self _ _ _ (by decide) (by decide), hzero]
  · have hends : s.writeReshardCmd abortWord rival =
        ((s.set SX_RESHARD_CMD.WINNER 0).failReshard 4 (s.set SX_RESHARD_CMD.WINNER 0).self 0 0).set SX_RESHARD_CMD.STATUS 0 := by
      rw [habort, if_neg (by simpa using hsame), hr, hsome]
      rfl
    obtain ⟨hframe, hnone, hout, hfailed⟩ := State.failReshard_shows (s := s.set SX_RESHARD_CMD.WINNER 0) 4
      (s.set SX_RESHARD_CMD.WINNER 0).self 0 0 hsome
    have hpend : (s.writeReshardCmd abortWord rival).pending = s.pending := by
      rw [hends, State.set_pending, hframe]; rfl
    have hfuse : (s.writeReshardCmd abortWord rival).fuses = s.fuses := by
      rw [hends, State.set_fuses, hframe]; rfl
    refine ⟨_, exec_reshardAbort (hgate _) hpend hfuse, ?_, ?_, ?_, ?_⟩
    · rw [hends]; exact hnone
    · rw [hends]; exact hout
    · rw [State.get_written, hends, State.get_set_self _ _ _ (by decide) (by decide)]
      rfl
    · rw [State.get_written, hends, State.get_set_apart _ _ _ _ (by decide) (by decide) (by decide)]
      exact hfailed
  · refine ⟨fun h63 hbad => ?_, fun h63 hgood hfresh => ?_, fun htaken => ?_⟩
    · have hill : nodeIllFormed v = true := by
        simp only [nodeIllFormed, h63, Bool.true_and, Bool.or_eq_true, beq_iff_eq, decide_eq_true_eq, or_assoc]
        exact hbad
      rw [exec_sxNodeWrite (hgate _), if_pos hill]
    · have hwell : ¬ nodeIllFormed v = true := by
        simp only [nodeIllFormed, h63, Bool.true_and, Bool.or_eq_true, beq_iff_eq, decide_eq_true_eq, or_assoc]
        exact hgood
      have hexec := exec_sxNodeWrite (v := v) (hgate SX_NODE.VALID.off)
      rw [if_neg hwell] at hexec
      have hfirst : ∀ f ∈ [SX_NODE.VALID, SX_NODE.MILL, SX_NODE.HOST, SX_NODE.HOSTS],
          (s.writeFields f.off v).get f = bitsOf v.toNat f.hi f.lo := fun f hf =>
        State.get_writeFields_first (wlField_sxNode f hf) (hfresh f hf)
      refine ⟨_, hexec, ?_, hfirst SX_NODE.MILL (by simp), hfirst SX_NODE.HOST (by simp), hfirst SX_NODE.HOSTS (by simp),
        State.wl_locked_writeFields (wlField_sxNode SX_NODE.VALID (by simp))⟩
      exact State.flag_of_first (hfirst SX_NODE.VALID (by simp)) h63
    · have hexec := exec_sxNodeWrite (v := v) (hgate SX_NODE.VALID.off)
      refine ⟨_, hexec, fun off => ?_⟩
      split
      · rfl
      · exact State.word_writeFields_taken wlCovered_sxNode htaken off
  · rw [hvalid] at hv
    rw [hepoch] at he
    refine ⟨_, exec_sxEpochWrite (hgate _), ?_, ?_, fun off ho => State.word_writeFields_apart s v ho⟩
    · exact State.flag_of_first (State.get_writeFields_first (wlField_sxEpoch SX_EPOCH.VALID (by simp)) hv) rfl
    · have hfirst : (s.writeFields SX_EPOCH.EPOCH.off v).get SX_EPOCH.EPOCH = bitsOf v.toNat SX_EPOCH.EPOCH.hi SX_EPOCH.EPOCH.lo :=
        State.get_writeFields_first (wlField_sxEpoch SX_EPOCH.EPOCH (by simp)) he
      exact hfirst
  · rw [hvalid] at hv
    rw [hepoch] at he
    refine ⟨_, exec_sxEpochWrite (hgate _), State.word_writeFields_taken wlCovered_sxEpoch fun f hf => ?_⟩
    rcases List.mem_pair.mp hf with rfl | rfl
    · exact hv
    · exact he

end Sys2Proof.Machine

/-! Commands that meet a busy unit (family 02_loom_angle): the statement O12. -/

namespace Sys2Proof.Machine

/-! ## Command words (R51) -/

/-- The command words, each with its BUSY bit, that hardware alone changes, in a register without WL fields. -/
def commandWords : List (Fld × Fld) :=
  [(ST_DESC_CMD.GO, ST_DESC_CMD.BUSY), (ST_REPLACE_CMD.GO, ST_REPLACE_CMD.BUSY), (TM_PAGE_CMD.GO, TM_PAGE_CMD.BUSY),
   (SS_KEY_CMD.GO, SS_KEY_CMD.BUSY), (SS_LIFECYCLE_CMD.GO, SS_LIFECYCLE_CMD.BUSY), (SS_UNLOCK_CMD.GO, SS_UNLOCK_CMD.BUSY),
   (CU_SERVICE_CMD.GO, CU_SERVICE_CMD.BUSY), (PM_POWER_CMD.GO, PM_POWER_CMD.BUSY), (BD_FLASH_CMD.GO, BD_FLASH_CMD.BUSY)]

theorem commandWords_plain : ∀ p ∈ commandWords, plainReg p.1.off = true ∧ p.2.off = p.1.off ∧ plainAcc p.2 = some .ro := by
  decide +kernel

section
variable {s : State} {go busy : Fld} {f : State → State} {v : W64}

/-- R51: GO written while BUSY is 1 begins nothing. -/
theorem State.issue_busy (h : s.flag busy = true) : s.issue v go busy f = s.writeFields go.off v := by
  simp [State.issue, h]

/-- What a write of a command word leaves that begins nothing. -/
def wroteCommandWord (s : State) (go busy : Fld) (t : State) : Prop :=
  rewrites { s with resp := .written } t [go.off] ∧ t.flag busy = true

theorem wroteCommandWord_writeFields (h : (go, busy) ∈ commandWords) (hb : s.flag busy = true) :
    wroteCommandWord s go busy { s.writeFields go.off v with resp := .written } := by
  obtain ⟨hplain, hoff, hacc⟩ := commandWords_plain _ h
  have hbusy : (s.writeFields go.off v).get busy = s.get busy := by
    rw [← hoff]
    exact State.get_writeFields_acc hacc
  refine ⟨rewrites_written (rewrites_writeFields hplain), ?_⟩
  have hget : ({ s.writeFields go.off v with resp := .written } : State).get busy = s.get busy := hbusy
  unfold State.flag at hb ⊢
  rw [hget]
  exact hb

/-- A command whose write makes no more than its word. -/
theorem State.atPort_busy (h : (go, busy) ∈ commandWords) (hg : s.writeGate go.off = .made) (hb : s.flag busy = true)
    (hf : f s = s.writeFields go.off v) :
    ∃ t, (Host.Outcome.next (s.after (s.atPort go.off f)) : Host.Outcome State Fault Refusal) = .next t ∧
      rewrites { s with resp := .written } t [go.off] ∧ t.flag busy = true := by
  have hport : s.after (s.atPort go.off f) = { s.writeFields go.off v with resp := .written } := by
    rw [State.after_port hg (by rw [hf, State.writeFields_pending]) (by rw [hf, State.writeFields_fuses]), hf]
  exact ⟨_, congrArg _ hport, wroteCommandWord_writeFields h hb⟩

theorem State.portWork_busy (h : (go, busy) ∈ commandWords) (hg : s.writeGate go.off = .made) (hb : s.flag busy = true)
    (hf : f s = s.writeFields go.off v) :
    ∃ t, (Host.Outcome.next (s.portWork go.off busy f) : Host.Outcome State Fault Refusal) = .next t ∧
      rewrites { s with resp := .written } t [go.off] ∧ t.flag busy = true := by
  rw [State.portWork, if_pos hb]
  exact State.atPort_busy h hg hb hf

end

/-! ## The commands that do more than issue -/

section
variable {s : State}

/-- R258: a page order issues, whoever its rival is. -/
theorem State.pageOrder_busy (op count : Nat) (rival : Option Rival) (h : s.flag TM_PAGE_CMD.BUSY = true) :
    s.pageOrder op count rival = s.writeFields TM_PAGE_CMD.GO.off (pageWord op count) := by
  unfold State.pageOrder
  split
  · exact State.issue_busy h
  · split
    · exact State.issue_busy h
    · exact State.issue_busy h

/-- R331: an UNLOCK without NEW draws no nonce. -/
theorem State.writeUnlockCmd_busy {v : W64} (hv : bitOf v.toNat 63 = false) (h : s.flag SS_UNLOCK_CMD.BUSY = true) :
    s.writeUnlockCmd v = s.writeFields SS_UNLOCK_CMD.GO.off v := by
  simp [State.writeUnlockCmd, hv, h]

/-- R376: only a RUN order may follow a busy HOLD order. -/
theorem State.writePowerCmd_busy (rival : Option Rival) (h : s.flag PM_POWER_CMD.BUSY = true) :
    s.writePowerCmd (powerWord 0) rival = s.writeFields PM_POWER_CMD.GO.off (powerWord 0) := by
  have hacc : plainAcc PM_POWER_CMD.OP = some .rw := by decide +kernel
  have hop : (s.writeFields PM_POWER_CMD.GO.off (powerWord 0)).get PM_POWER_CMD.OP = 0 := State.get_writeFields_acc hacc
  have hgo : bitOf (powerWord 0).toNat 63 = true := by decide
  simp [State.writePowerCmd, hgo, hop, h]

/-- R325: the burn of a busy unit burns nothing. -/
theorem State.burnCommand_busy {v : W64} (h : s.flag SS_LIFECYCLE_CMD.BUSY = true) :
    s.burnCommand v = s.writeFields SS_LIFECYCLE_CMD.GO.off v := by
  have hwrite : s.writeLifecycleCmd v = s.writeFields SS_LIFECYCLE_CMD.GO.off v := State.issue_busy h
  unfold State.burnCommand
  dsimp only
  rw [if_pos h, hwrite, State.writeFields_frame]

theorem exec_lifecycleBurn_busy {target : BitVec 3} (hg : s.writeGate SS_LIFECYCLE_CMD.GO.off = .made)
    (hb : s.flag SS_LIFECYCLE_CMD.BUSY = true) :
    exec (.lifecycleBurn target) s = .next { s.writeFields SS_LIFECYCLE_CMD.GO.off
      (cmdWord [(SS_LIFECYCLE_CMD.GO, 1), (SS_LIFECYCLE_CMD.TARGET, target.toNat)]) with resp := .written } := by
  have hport := State.atPort_made (fun s => s.burnCommand
    (cmdWord [(SS_LIFECYCLE_CMD.GO, 1), (SS_LIFECYCLE_CMD.TARGET, target.toNat)])) hg
  rw [State.burnCommand_busy hb] at hport
  exact congrArg Host.Outcome.next hport

end

theorem unlockWord_noNew (s : State) :
    bitOf (cmdWord [(SS_UNLOCK_CMD.GO, 1), (SS_UNLOCK_CMD.PURPOSE, s.get SS_UNLOCK_CMD.PURPOSE)]).toNat 63 = false := by
  rw [bitOf_eq_bitsOf]
  unfold cmdWord
  rw [List.foldl_cons, List.foldl_cons, List.foldl_nil]
  dsimp only
  rw [bitsOf_putBits_apart _ _ _ _ 63 63 (by decide) (by decide) (by decide),
    bitsOf_putBits_apart _ _ _ _ 63 63 (by decide) (by decide) (by decide)]
  rfl

/-- Settles O12: each command, whatever its unit, comes down to the write of its word. -/
theorem commandsWrittenWhileBusyAreIgnored : Obligations.CommandsWrittenWhileBusyAreIgnored := by
  intro c s go busy hc hg hb
  cases c
  case dirWrite | dirRead | dirInvalidate | dirUpdate | dirSetPending =>
    obtain ⟨rfl, rfl⟩ := Prod.mk.inj (Option.some.inj hc)
    exact State.portWork_busy (by decide) hg hb (State.issue_busy hb)
  case replaceRow | clearRow =>
    obtain ⟨rfl, rfl⟩ := Prod.mk.inj (Option.some.inj hc)
    exact State.portWork_busy (by decide) hg hb (State.issue_busy hb)
  case flush | unpin | restore | zero | copy | read64 | write64 | clearPoison | returnUnit =>
    obtain ⟨rfl, rfl⟩ := Prod.mk.inj (Option.some.inj hc)
    exact State.atPort_busy (by decide) hg hb (State.issue_busy hb)
  case evict | pageInvalidate | pin =>
    obtain ⟨rfl, rfl⟩ := Prod.mk.inj (Option.some.inj hc)
    exact State.atPort_busy (by decide) hg hb (State.pageOrder_busy _ _ _ hb)
  case loadPlain | loadWrapped | erase | eraseAll =>
    obtain ⟨rfl, rfl⟩ := Prod.mk.inj (Option.some.inj hc)
    exact State.atPort_busy (by decide) hg hb (State.issue_busy hb)
  case lifecycleBurn target =>
    obtain ⟨rfl, rfl⟩ := Prod.mk.inj (Option.some.inj hc)
    exact ⟨_, exec_lifecycleBurn_busy hg hb, wroteCommandWord_writeFields (by decide) hb⟩
  case unlockGo =>
    obtain ⟨rfl, rfl⟩ := Prod.mk.inj (Option.some.inj hc)
    exact State.atPort_busy (by decide) hg hb (State.writeUnlockCmd_busy (unlockWord_noNew s) hb)
  case retireCore | retireHarness | returnCore =>
    obtain ⟨rfl, rfl⟩ := Prod.mk.inj (Option.some.inj hc)
    exact State.atPort_busy (by decide) hg hb (State.issue_busy hb)
  case powerHold rival =>
    obtain ⟨rfl, rfl⟩ := Prod.mk.inj (Option.some.inj hc)
    exact State.atPort_busy (by decide) hg hb (State.writePowerCmd_busy rival hb)
  case flashRead | erase4k | program =>
    obtain ⟨rfl, rfl⟩ := Prod.mk.inj (Option.some.inj hc)
    exact State.atPort_busy (by decide) hg hb (State.issue_busy hb)
  all_goals cases hc

end Sys2Proof.Machine

/-! The power states (family 02_loom_angle): power orders, the way into HOLD and out of it, and IDLE; the statement O57. -/

namespace Sys2Proof.Machine

/-! ## Power orders (R51, R374, R376) -/

/-- R51: how a power order completes. -/
theorem State.powerDone_shows (s : State) {code winner : Nat} (hc : code < 256) (hw : winner < 16) :
    let t := s.powerDone code winner
    rewrites s t [PM_POWER_CMD.GO.off] ∧ t.get PM_POWER_CMD.STATUS = code ∧ t.flag PM_POWER_CMD.BUSY = false ∧
      t.get PM_POWER_CMD.WINNER = winner := by
  have hcode : code % 2 ^ fldWidth PM_POWER_CMD.STATUS = code := Nat.mod_eq_of_lt hc
  have hwinner : winner % 2 ^ fldWidth PM_POWER_CMD.WINNER = winner := Nat.mod_eq_of_lt hw
  have hzero : 0 % 2 ^ fldWidth PM_POWER_CMD.BUSY = 0 := rfl
  refine ⟨((((rewrites_refl s _).set _ _ (by decide)).set _ _ (by decide)).set _ _ (by decide)).set _ _ (by decide), ?_⟩
  simp (disch := decide) only [State.powerDone, State.complete, State.flag, State.get_set_self, State.get_set_apart, hcode, hwinner,
    hzero, bne_self_eq_false, and_self]

theorem plainReg_powerCmd : plainReg PM_POWER_CMD.GO.off = true := by decide +kernel
theorem plainAcc_powerOp : plainAcc PM_POWER_CMD.OP = some .rw := by decide +kernel

/-- The state in which a power order is taken: its word is written. -/
def State.ordered (s : State) (op : Nat) : State := s.writeFields PM_POWER_CMD.GO.off (powerWord op)

theorem State.ordered_rewrites (s : State) (op : Nat) : rewrites s (s.ordered op) [PM_POWER_CMD.GO.off] :=
  rewrites_writeFields plainReg_powerCmd

theorem State.ordered_pm (s : State) (op : Nat) : (s.ordered op).pm = s.pm := by
  rw [(s.ordered_rewrites op).1]

theorem State.ordered_holdRefusal (s : State) (op : Nat) : (s.ordered op).holdRefusal = s.holdRefusal := by
  obtain ⟨hframe, hword⟩ := s.ordered_rewrites op
  have hphase : (s.ordered op).phase = s.phase := State.get_of_word (hword _ (by decide))
  unfold State.holdRefusal
  rw [hphase, hframe]
  rfl

theorem State.holdRefusal_le (s : State) : s.holdRefusal ≤ 4 := by
  unfold State.holdRefusal
  repeat' split
  all_goals decide

/-- R51: GO of a power order at a free unit. -/
theorem State.writePowerCmd_free {s : State} {op : Nat} (rival : Option Rival) (hop : op < 2) (h : s.flag PM_POWER_CMD.BUSY = false) :
    s.writePowerCmd (powerWord op) rival = (s.ordered op).takePower rival := by
  have hgo : ∀ op < 2, bitOf (powerWord op).toNat 63 = true := by decide
  simp [State.writePowerCmd, hgo op hop, h, State.ordered]

theorem State.takePower_hold (s : State) (rival : Option Rival) : (s.ordered 0).takePower rival = (s.ordered 0).orderHold rival := by
  have hop : (s.ordered 0).get PM_POWER_CMD.OP = 0 := State.get_writeFields_acc plainAcc_powerOp
  unfold State.takePower
  rw [hop]
  rfl

theorem State.takePower_run (s : State) (rival : Option Rival) : (s.ordered 1).takePower rival = (s.ordered 1).orderRun rival := by
  have hop : (s.ordered 1).get PM_POWER_CMD.OP = 1 := State.get_writeFields_acc plainAcc_powerOp
  unfold State.takePower
  rw [hop]
  rfl

section
variable {s : State} {rival : Option Rival}

theorem exec_powerHold (hg : s.writeGate PM_POWER_CMD.GO.off = .made) (hb : s.flag PM_POWER_CMD.BUSY = false)
    (hp : ((s.ordered 0).orderHold rival).pending = s.pending) (hf : ((s.ordered 0).orderHold rival).fuses = s.fuses) :
    exec (.powerHold rival) s = .next { (s.ordered 0).orderHold rival with resp := .written } := by
  have horder : s.writePowerCmd (powerWord 0) rival = (s.ordered 0).orderHold rival := by
    rw [State.writePowerCmd_free rival (by decide) hb, State.takePower_hold]
  have hstep : exec (.powerHold rival) s =
    .next (s.after (s.atPort PM_POWER_CMD.GO.off (fun s => s.writePowerCmd (powerWord 0) rival))) := rfl
  rw [hstep, State.after_port hg (by rw [horder, hp]) (by rw [horder, hf]), horder]

theorem exec_powerRun (hg : s.writeGate PM_POWER_CMD.GO.off = .made) (hb : s.flag PM_POWER_CMD.BUSY = false)
    (hp : ((s.ordered 1).orderRun rival).pending = s.pending) (hf : ((s.ordered 1).orderRun rival).fuses = s.fuses) :
    exec (.powerRun rival) s = .next { (s.ordered 1).orderRun rival with resp := .written } := by
  have horder : s.writePowerCmd (powerWord 1) rival = (s.ordered 1).orderRun rival := by
    rw [State.writePowerCmd_free rival (by decide) hb, State.takePower_run]
  have hstep : exec (.powerRun rival) s =
    .next (s.after (s.atPort PM_POWER_CMD.GO.off (fun s => s.writePowerCmd (powerWord 1) rival))) := rfl
  rw [hstep, State.after_port hg (by rw [horder, hp]) (by rw [horder, hf]), horder]

/-- What a power order leaves that completes at once with a code and a winner. -/
def powerEnded (s t : State) (code winner : Nat) : Prop :=
  rewrites { s with resp := .written } t [PM_POWER_CMD.GO.off] ∧ t.get PM_POWER_CMD.STATUS = code ∧
    t.flag PM_POWER_CMD.BUSY = false ∧ t.get PM_POWER_CMD.WINNER = winner

theorem powerEnded_written {u : State} {code winner : Nat} (h : rewrites s u [PM_POWER_CMD.GO.off])
    (hu : u.get PM_POWER_CMD.STATUS = code ∧ u.flag PM_POWER_CMD.BUSY = false ∧ u.get PM_POWER_CMD.WINNER = winner) :
    powerEnded s { u with resp := .written } code winner := ⟨rewrites_written h, hu⟩

theorem State.powerEnded_ordered (s : State) (op : Nat) {code winner : Nat} (hc : code < 256) (hw : winner < 16) :
    powerEnded s { (s.ordered op).powerDone code winner with resp := .written } code winner := by
  obtain ⟨hdone, hshows⟩ := (s.ordered op).powerDone_shows hc hw
  exact powerEnded_written (rewrites_trans (s.ordered_rewrites op) hdone (List.Subset.refl _) (List.Subset.refl _)) hshows

/-- R374: a HOLD order that is turned away, or has no more to do, completes at once. -/
theorem exec_powerHold_ends (hg : s.writeGate PM_POWER_CMD.GO.off = .made) (hb : s.flag PM_POWER_CMD.BUSY = false) {code winner : Nat}
    (h : (s.ordered 0).orderHold rival = (s.ordered 0).powerDone code winner) :
    exec (.powerHold rival) s = .next { (s.ordered 0).powerDone code winner with resp := .written } := by
  obtain ⟨hframe, -⟩ := s.ordered_rewrites 0
  rw [exec_powerHold hg hb (by rw [h, hframe]; rfl) (by rw [h, hframe]; rfl), h]

theorem exec_powerRun_ends (hg : s.writeGate PM_POWER_CMD.GO.off = .made) (hb : s.flag PM_POWER_CMD.BUSY = false) {code winner : Nat}
    (h : (s.ordered 1).orderRun rival = (s.ordered 1).powerDone code winner) :
    exec (.powerRun rival) s = .next { (s.ordered 1).powerDone code winner with resp := .written } := by
  obtain ⟨hframe, -⟩ := s.ordered_rewrites 1
  rw [exec_powerRun hg hb (by rw [h, hframe]; rfl) (by rw [h, hframe]; rfl), h]

end

/-! ## HOLD (R374, R376) -/

theorem exchange_closed {e : Exchange} (hout : e.outstanding = []) (hheld : e.held = []) (hreds : e.reductions = [])
    (hnorms : e.norms = []) : { e with outstanding := [], held := [], reductions := e.reductions.filter (·.done),
                                       norms := e.norms.filter (·.done) } = e := by
  cases e
  simp_all

/-- R295: an idle exchange loses nothing where the fabric closes. -/
theorem State.closeExchange_idle {s : State} (h : exchangeIdle s) : s.closeExchange = s := by
  have hbusy := State.exchangeBusy_idle h
  obtain ⟨hrounds, hout, hheld, hreds, hnorms, hreshard⟩ := h
  have hfail : s.failRemote (fun _ => true) false = s := by
    have hrows : s.remoteRows = [] := by simp [State.remoteRows, hrounds]
    simp only [State.failRemote, hrows, List.filter_nil, List.foldl_nil, State.dropRemote, hrounds, hout, List.map_nil]
    rw [← hrounds, ← hout]
  have hend : s.failReshard 5 0 0 0 = s := by simp [State.failReshard, hreshard]
  have hnone : sortNub (s.exch.reductions.map (·.adapter) ++ s.exch.norms.map (·.adapter)) = [] := by
    rw [hreds, hnorms]; rfl
  unfold State.closeExchange
  dsimp only
  rw [hfail, hend, hbusy, hnone]
  exact congrArg (fun e => { s with exch := e }) (exchange_closed hout hheld hreds hnorms)

/-- R379: with a duty of 0 no Harness is granted. -/
theorem State.applyDuty_none {s : State} (h : s.duty = 0) : s.applyDuty.heddle.harnesses.all (fun x => !x.granted) = true := by
  rw [List.all_eq_true]
  intro x hx
  obtain ⟨i, y, -, rfl⟩ := List.mem_mapIdx.mp hx
  simp [h]

theorem State.duty_holding {s : State} (h : s.pm.st = .enteringHold ∨ s.pm.st = .hold) : s.duty = 0 := by
  rcases h with h | h <;> simp [State.duty, h]

theorem State.applyDuty_frame (s : State) : s.applyDuty = { s with heddle := s.applyDuty.heddle } := rfl

/-- R374: HOLD entry, as it begins in an engine whose exchange is idle. -/
theorem State.beginHold_idle {s : State} (h : exchangeIdle s) :
    s.beginHold = ({ s with pm := { s.pm with st := .enteringHold } } : State).applyDuty := State.closeExchange_idle h

/-- The words that the interrupt lines hang on. -/
def irqWords : List Nat :=
  [WP_CPL_PENDING.COUNT.off, WP_IRQ_CTRL.ENABLE.off, CU_CTRL.IRQ_ENABLE.off, CU_FAULT_PTR.HEAD.off, TM_IRQ_STATUS.RO_WRITE.off,
   TM_IRQ_ENABLE.ENABLE.off, SS_IRQ_STATUS.MISMATCH.off, SS_IRQ_ENABLE.ENABLE.off]

/-- R374: the interrupt lines do not hang on the words that HOLD entry writes. -/
theorem State.irqLevels_of {s t : State} (hw : t.weft = s.weft) (hc : t.cust = s.cust)
    (hword : ∀ off ∈ irqWords, t.word off = s.word off) : t.irqLevels = s.irqLevels := by
  have hctrl := hword WP_IRQ_CTRL.ENABLE.off (by decide)
  have hptr := hword CU_FAULT_PTR.HEAD.off (by decide)
  have hdone : t.irqDone = s.irqDone := by
    unfold State.irqDone
    rw [State.get_of_word (f := WP_CPL_PENDING.COUNT) (hword _ (by decide)), State.flag_of_word hctrl,
      State.get_of_word (f := WP_IRQ_CTRL.THRESHOLD) hctrl, State.get_of_word (f := WP_IRQ_CTRL.HOLDOFF_US) hctrl, hw]
  have hfault : t.irqFault = s.irqFault := by
    unfold State.irqFault
    rw [State.flag_of_word (hword _ (by decide)), State.get_of_word hptr, State.get_of_word (f := CU_FAULT_PTR.TAIL) hptr, hc]
  have htier : t.irqTier = s.irqTier := by
    unfold State.irqTier
    rw [hword _ (by decide), State.get_of_word (f := TM_IRQ_ENABLE.ENABLE) (hword _ (by decide))]
  have hsec : t.irqSec = s.irqSec := by
    unfold State.irqSec
    rw [hword _ (by decide), State.get_of_word (f := SS_IRQ_ENABLE.ENABLE) (hword _ (by decide))]
  unfold State.irqLevels
  rw [hdone, hfault, htier, hsec]

/-- An event whose condition does not hold changes nothing. -/
theorem State.after_event_not {s t : State} {b : Bool} (h : b = false) :
    (Host.Outcome.next (s.after (if b = true then t else s)) : Host.Outcome State Fault Refusal) = .next s := by
  rw [if_neg (by simp [h]), State.after_eq s s rfl rfl]

theorem State.after_event {s t : State} {b : Bool} (h : b = true) (hp : t.pending = s.pending) (hf : t.fuses = s.fuses) :
    (Host.Outcome.next (s.after (if b = true then t else s)) : Host.Outcome State Fault Refusal) = .next t := by
  rw [if_pos h, State.after_eq s t hp hf]

/-- R371: a rail that is back reads in its range. -/
theorem State.inRange_mem (s : State) (k mv : Nat) {lo hi : Nat} (h : lo ≤ hi) :
    lo ≤ s.inRange k mv lo hi ∧ s.inRange k mv lo hi ≤ hi := by
  unfold State.inRange
  split
  · next hmv =>
    simpa using hmv
  · have hlt : (Config.freeWord (s.free + k)).toNat % (hi + 1 - lo) < hi + 1 - lo := Nat.mod_lt _ (by omega)
    omega

/-- R374: what HOLD_REACHED makes of the power unit. -/
def State.heldPm (s : State) : PowerMgr :=
  { s.pm with st := .hold, irqHeld := s.irqLevels, holdCmd := false, exitCmd := s.pm.exitCmd && !s.pm.protect,
              exiting := s.pm.exitCmd && !s.pm.protect }

/-- R374: the order that HOLD_REACHED completes. -/
def State.holdDone (s : State) : State :=
  if s.pm.exitCmd && s.pm.protect then s.powerDone orderRejected 1
  else if !s.pm.exitCmd && s.pm.holdCmd then s.powerDone 0 0
  else s

theorem State.holdDone_pm (s : State) : s.holdDone.pm = s.pm := by
  unfold State.holdDone
  split
  · rfl
  · split <;> rfl

theorem State.holdDone_rewrites (s : State) : rewrites s s.holdDone [PM_POWER_CMD.GO.off] := by
  unfold State.holdDone
  split
  · exact (s.powerDone_shows (by decide) (by decide)).1
  · split
    · exact (s.powerDone_shows (by decide) (by decide)).1
    · exact rewrites_refl s _

theorem State.reachHold_eq (s : State) : s.reachHold = { (s.bump PM_EVENTS.HOLD_ENTRIES).holdDone with pm := s.heldPm } := by
  have hpm : (s.bump PM_EVENTS.HOLD_ENTRIES).holdDone.pm = s.pm := State.holdDone_pm _
  have hreach : s.reachHold = { (s.bump PM_EVENTS.HOLD_ENTRIES).holdDone with
      pm := { (s.bump PM_EVENTS.HOLD_ENTRIES).holdDone.pm with
        st := .hold, irqHeld := s.irqLevels, holdCmd := false,
        exitCmd := s.pm.exitCmd && !(s.bump PM_EVENTS.HOLD_ENTRIES).holdDone.pm.protect,
        exiting := s.pm.exitCmd && !(s.bump PM_EVENTS.HOLD_ENTRIES).holdDone.pm.protect } } := rfl
  rw [hreach, hpm]
  rfl

/-- R374: the words that HOLD_REACHED writes. -/
theorem State.reachHold_rewrites (s : State) :
    rewrites s (s.bump PM_EVENTS.HOLD_ENTRIES).holdDone [PM_EVENTS.HOLD_ENTRIES.off, PM_POWER_CMD.GO.off] :=
  rewrites_trans ((rewrites_refl s [PM_EVENTS.HOLD_ENTRIES.off]).bump _ 1 (by decide)) (State.holdDone_rewrites _) (by decide) (by decide)

/-- R376: the order that the end of HOLD completes. -/
def State.exitDone (s : State) : State := if s.pm.exitCmd then s.powerDone 0 0 else s

/-- R376: the power unit of an engine in RUN again. -/
def PowerMgr.back (p : PowerMgr) : PowerMgr :=
  { p with st := .run, protect := false, exiting := false, reconnecting := false, exitCmd := false }

theorem State.exitDone_pm (s : State) : s.exitDone.pm = s.pm := by
  unfold State.exitDone; split <;> rfl

theorem State.exitDone_rewrites (s : State) : rewrites s s.exitDone [PM_POWER_CMD.GO.off] := by
  unfold State.exitDone
  split
  · exact (s.powerDone_shows (by decide) (by decide)).1
  · exact rewrites_refl s _

/-- R376: an exit from HOLD that no HOLD order waits for, with no stack failed. -/
theorem State.leaveHold_eq (s : State) (h : s.pm.holdCmd = false) :
    s.leaveHold 0 = ({ s.exitDone with pm := s.pm.back } : State).applyDuty := by
  have hleave : s.leaveHold 0 = if s.pm.holdCmd then ({ s.exitDone with pm := s.exitDone.pm.back } : State).applyDuty.beginHold
      else ({ s.exitDone with pm := s.exitDone.pm.back } : State).applyDuty := rfl
  rw [hleave, h, State.exitDone_pm]
  rfl

/-! ## ZQ_WAKE (R373, R384) -/

theorem State.leaveIdle_pm (s : State) : s.leaveIdle.pm = { s.pm with st := if s.pm.st = .idle then .run else s.pm.st } := by
  unfold State.leaveIdle
  by_cases h : s.pm.st = .idle <;> simp [h]

theorem State.leaveIdle_frame (s : State) : s.leaveIdle = { s with pm := s.leaveIdle.pm } := by
  unfold State.leaveIdle
  split <;> rfl

/-- R376: what a counted level of ZQ_WAKE sets. -/
def State.woken (s : State) (high : Bool) : State :=
  { s with pm := { s.pm with wake := high, exiting := s.pm.exiting || (high && !s.pm.wake && s.pm.st == .hold && !s.pm.protect) } }

theorem exec_zqWake {s : State} {l : Level} (h : s.pm.st ≠ .off) (hl : l.chatter = 0) :
    exec (.zqWake l) s = .next (if l.high = true then (s.woken l.high).leaveIdle else s.woken l.high) := by
  have hstep : exec (.zqWake l) s = .next (s.after <| if s.pm.st == .off then s else
      if l.high = true then ((s.chatter 3 l.chatter).woken l.high).leaveIdle else (s.chatter 3 l.chatter).woken l.high) := rfl
  have hquiet : s.chatter 3 0 = s := by simp [State.chatter]
  rw [hstep, if_neg (by simpa using h), hl, hquiet]
  refine congrArg Host.Outcome.next (State.after_eq s _ ?_ ?_)
  · split
    · rw [State.leaveIdle_frame]; rfl
    · rfl
  · split
    · rw [State.leaveIdle_frame]; rfl
    · rfl

/-! ## The orders (R51) -/

theorem State.orderHold_refused {s : State} (rival : Option Rival) (h : s.holdRefusal ≠ 0) :
    s.orderHold rival = s.powerDone s.holdRefusal 0 := by
  unfold State.orderHold
  split
  · next h0 => exact absurd h0 h
  · rfl

theorem State.orderHold_same {s : State} (h : s.holdRefusal = 0) : s.orderHold (some .same) = s.powerDone 0 0 := by
  unfold State.orderHold
  rw [h]
  rfl

theorem State.orderHold_lost {s : State} {rival : Option Rival} {r : Rival} (h : s.holdRefusal = 0) (hr : defeatedBy 3 rival = some r) :
    s.orderHold rival = s.powerDone orderRejected (rivalCode r) := by
  have hsame : (rival == some .same) = false := by simpa using defeatedBy_not_same (by decide) hr
  unfold State.orderHold
  rw [h, hsame, hr]
  rfl

/-- R374: HOLD entry from RUN. -/
theorem State.orderHold_begins {s : State} {rival : Option Rival} (h : s.holdRefusal = 0) (hr : defeatedBy 3 rival = none)
    (hsame : rival ≠ some .same) (hrun : s.pm.st = .run) :
    s.orderHold rival = ({ s.set PM_POWER_CMD.BUSY 1 with pm := { s.pm with holdCmd := true } } : State).beginHold := by
  have hs : (rival == some .same) = false := by simpa using hsame
  unfold State.orderHold
  rw [h, hs, hr, hrun]
  rfl

/-- R376: a RUN order of an engine in RUN has no more to do. -/
theorem State.orderRun_idle {s : State} {rival : Option Rival} (hr : defeatedBy 3 rival = none) (hrun : s.pm.st = .run) :
    s.orderRun rival = s.powerDone 0 0 := by
  unfold State.orderRun
  rw [hr, hrun]
  dsimp only
  split <;> rfl

/-- R374: HOLD entry of an engine whose exchange is idle. -/
theorem exec_powerHold_begins {s : State} {rival : Option Rival} (hg : s.writeGate PM_POWER_CMD.GO.off = .made)
    (hb : s.flag PM_POWER_CMD.BUSY = false) (h : s.holdRefusal = 0) (hr : defeatedBy 3 rival = none) (hsame : rival ≠ some .same)
    (hrun : s.pm.st = .run) (hidle : exchangeIdle s) :
    let t : State := { (s.ordered 0).set PM_POWER_CMD.BUSY 1 with pm := { s.pm with holdCmd := true, st := .enteringHold } }
    exec (.powerHold rival) s = .next { t.applyDuty with resp := .written } := by
  have horder : (s.ordered 0).orderHold rival = ({ (s.ordered 0).set PM_POWER_CMD.BUSY 1 with
      pm := { s.pm with holdCmd := true, st := .enteringHold } } : State).applyDuty := by
    have hidle' : exchangeIdle (s.ordered 0) := by
      rw [(s.ordered_rewrites 0).1]; exact hidle
    rw [State.orderHold_begins ((s.ordered_holdRefusal 0).trans h) hr hsame ((congrArg PowerMgr.st (s.ordered_pm 0)).trans hrun),
      State.beginHold_idle (s := { (s.ordered 0).set PM_POWER_CMD.BUSY 1 with pm := { (s.ordered 0).pm with holdCmd := true } }) hidle',
      s.ordered_pm 0]
  obtain ⟨hframe, -⟩ := s.ordered_rewrites 0
  intro t
  have hpend : ((s.ordered 0).orderHold rival).pending = s.pending := by
    rw [horder, hframe]; rfl
  have hfuse : ((s.ordered 0).orderHold rival).fuses = s.fuses := by
    rw [horder, hframe]; rfl
  rw [exec_powerHold hg hb hpend hfuse, horder]

/-- Settles O57: each order and event by the condition under which it acts. -/
theorem powerStatesFollowTheirOrders : Obligations.PowerStatesFollowTheirOrders := by
  intro s rival l back hb
  refine ⟨fun hrun hbusy => ?_, fun h => ?_, fun hst hset => ?_, fun hst he hr => ?_, fun h => ?_, fun hst hr hc => ?_,
    fun hr => ?_, fun hst hq => ?_, fun h => ?_, fun hst hl hh => ?_, fun hst hl hh => ?_⟩
  · have hg : s.writeGate PM_POWER_CMD.GO.off = .made := State.writeGate_up hb (by simp [hrun]) (by simp [hrun])
    have hpm := s.ordered_pm 0
    have hrefusal := s.ordered_holdRefusal 0
    refine ⟨fun hne => ?_, fun r h0 hr => ?_, fun h0 => ?_, fun h0 hr hsame hidle => ?_, fun hr => ?_⟩
    · have horder := State.orderHold_refused rival (hrefusal.trans_ne hne)
      rw [hrefusal] at horder
      obtain ⟨hwrites, hstatus, hfree, -⟩ := s.powerEnded_ordered 0 (winner := 0) (lt_of_le_of_lt s.holdRefusal_le (by decide)) (by decide)
      exact ⟨_, exec_powerHold_ends hg hbusy horder, hwrites, hstatus, hfree⟩
    · obtain ⟨hwrites, hstatus, -, hwinner⟩ := s.powerEnded_ordered 0 (code := orderRejected) (by decide) (rivalCode_lt r)
      exact ⟨_, exec_powerHold_ends hg hbusy (State.orderHold_lost (hrefusal.trans h0) hr), hwrites, hstatus, hwinner⟩
    · obtain ⟨hwrites, hstatus, hfree, -⟩ := s.powerEnded_ordered 0 (code := 0) (winner := 0) (by decide) (by decide)
      exact ⟨_, exec_powerHold_ends hg hbusy (State.orderHold_same (hrefusal.trans h0)), hwrites, hstatus, hfree⟩
    · obtain ⟨hframe, hword⟩ := s.ordered_rewrites 0
      refine ⟨_, exec_powerHold_begins hg hbusy h0 hr hsame hrun hidle, rfl, ?_, ?_, ?_, ?_, fun off ho => ?_⟩
      · have hset : ((s.ordered 0).set PM_POWER_CMD.BUSY 1).get PM_POWER_CMD.BUSY = 1 :=
          State.get_set_self _ _ 1 (by decide) (by decide)
        change ((s.ordered 0).set PM_POWER_CMD.BUSY 1).flag PM_POWER_CMD.BUSY = true
        unfold State.flag
        rw [hset]
        rfl
      · exact State.applyDuty_none (State.duty_holding (.inl rfl))
      · change (s.ordered 0).weft = s.weft
        rw [hframe]
      · change (s.ordered 0).tiers = s.tiers
        rw [hframe]
      · change ((s.ordered 0).set PM_POWER_CMD.BUSY 1).word off = s.word off
        rw [State.word_set_ne (s.ordered 0) PM_POWER_CMD.BUSY 1 off ho]
        exact hword off (by simpa using ho)
    · obtain ⟨hwrites, hstatus, hfree, -⟩ := s.powerEnded_ordered 1 (code := 0) (winner := 0) (by decide) (by decide)
      have hrun' : (s.ordered 1).pm.st = .run := (congrArg PowerMgr.st (s.ordered_pm 1)).trans hrun
      exact ⟨_, exec_powerRun_ends hg hbusy (State.orderRun_idle hr hrun'), hwrites, hstatus, hfree⟩
  · have hstay : (s.pm.st == .enteringHold && s.settled) = false := by
      rcases h with h | h <;> simp [h]
    exact State.after_event_not hstay
  · have hgo : (s.pm.st == .enteringHold && s.settled) = true := by simp [hst, hset]
    obtain ⟨hframe, hword⟩ := s.reachHold_rewrites
    have hpend : s.reachHold.pending = s.pending := by
      rw [State.reachHold_eq, hframe]
    have hfuse : s.reachHold.fuses = s.fuses := by
      rw [State.reachHold_eq, hframe]
    refine ⟨s.reachHold, State.after_event hgo hpend hfuse, ?_, ?_, ?_, ?_⟩
    · rw [State.reachHold_eq]; rfl
    · rw [State.reachHold_eq]
      exact (State.get_of_word ((State.holdDone_rewrites _).2 _ (by decide))).trans (State.get_bump_self s _ 1 (by decide) (by decide))
    · rw [State.reachHold_eq]
      refine State.irqLevels_of ?_ ?_ (fun off ho => ?_)
      · change (s.bump PM_EVENTS.HOLD_ENTRIES).holdDone.weft = s.weft
        rw [hframe]
      · change (s.bump PM_EVENTS.HOLD_ENTRIES).holdDone.cust = s.cust
        rw [hframe]
      · have hapart : ∀ off ∈ irqWords, off ∉ [PM_EVENTS.HOLD_ENTRIES.off, PM_POWER_CMD.GO.off] := by decide
        exact hword off (hapart off ho)
    · rw [State.reachHold_eq]
      exact ⟨congrArg (fun u : State => { u with pm := s.heldPm }) hframe, hword⟩
  · have hgo : (s.pm.st == .hold && s.pm.exiting && !s.pm.reconnecting) = true := by simp [hst, he, hr]
    obtain ⟨hlo, hhi⟩ := s.inRange_mem 0 s.pm.vddsMv (lo := 720) (hi := 780) (by decide)
    exact ⟨_, State.after_event hgo rfl rfl, rfl, hlo, hhi, rfl, hst⟩
  · have hstay : (s.pm.st == .hold && s.pm.exiting && !s.pm.reconnecting) = false := by
      rcases h with h | h <;> simp [h]
    exact State.after_event_not hstay
  · have hgo : (s.pm.st == .hold && s.pm.reconnecting) = true := by simp [hst, hr]
    obtain ⟨hframe, hword⟩ := s.exitDone_rewrites
    have hpend : (s.leaveHold 0).pending = s.pending := by
      rw [State.leaveHold_eq s hc, hframe]; rfl
    have hfuse : (s.leaveHold 0).fuses = s.fuses := by
      rw [State.leaveHold_eq s hc, hframe]; rfl
    refine ⟨s.leaveHold 0, State.after_event hgo hpend hfuse, ?_⟩
    rw [State.leaveHold_eq s hc]
    refine ⟨rfl, rfl, rfl, rfl, fun hexit => ?_⟩
    obtain ⟨-, hstatus, hfree, -⟩ := s.powerDone_shows (code := 0) (winner := 0) (by decide) (by decide)
    have hdone : s.exitDone = s.powerDone 0 0 := if_pos hexit
    rw [hdone]
    exact ⟨hstatus, hfree⟩
  · have hstay : (s.pm.st == .hold && s.pm.reconnecting) = false := by simp [hr]
    exact State.after_event_not hstay
  · have hgo : (s.boot.stage == .up && s.pm.st == .run && s.quiet) = true := by simp [hb, hst, hq]
    exact State.after_event hgo rfl rfl
  · have hstay : (s.boot.stage == .up && s.pm.st == .run && s.quiet) = false := by
      rcases h with h | h <;> simp [h]
    exact State.after_event_not hstay
  · rw [exec_zqWake hst hl, if_pos hh]
    refine ⟨_, rfl, ?_, ?_, fun hhold hw hp => ?_, fun hidle => ?_⟩
    · rw [State.leaveIdle_pm, hh]; rfl
    · rw [State.leaveIdle_frame]; rfl
    · rw [State.leaveIdle_pm]
      simp [State.woken, hh, hhold, hw, hp]
    · rw [State.leaveIdle_pm]
      simp [State.woken, hidle]
  · rw [exec_zqWake hst hl, if_neg (by simp [hh])]
    simp [State.woken, hh]

end Sys2Proof.Machine

/-! Service orders (family 02_loom_angle): how CU_SERVICE_CMD takes them and what each leaves; the statement O55 rests on these. -/

namespace Sys2Proof.Machine

/-! ## How a service order is taken (R51) -/

/-- R51: how a service order completes. -/
theorem State.serviceDone_shows (s : State) {code winner : Nat} (hc : code < 256) (hw : winner < 16) :
    let t := s.serviceDone code winner
    rewrites s t [CU_SERVICE_CMD.GO.off] ∧ t.get CU_SERVICE_CMD.STATUS = code ∧ t.get CU_SERVICE_CMD.WINNER = winner ∧
      t.flag CU_SERVICE_CMD.GO = false ∧ t.flag CU_SERVICE_CMD.BUSY = false := by
  have hcode : code % 2 ^ fldWidth CU_SERVICE_CMD.STATUS = code := Nat.mod_eq_of_lt hc
  have hwinner : winner % 2 ^ fldWidth CU_SERVICE_CMD.WINNER = winner := Nat.mod_eq_of_lt hw
  have hgo : 0 % 2 ^ fldWidth CU_SERVICE_CMD.GO = 0 := rfl
  have hbusy : 0 % 2 ^ fldWidth CU_SERVICE_CMD.BUSY = 0 := rfl
  refine ⟨((((rewrites_refl s _).set _ _ (by decide)).set _ _ (by decide)).set _ _ (by decide)).set _ _ (by decide), ?_⟩
  simp (disch := decide) only [State.serviceDone, State.complete, State.flag, State.get_set_self, State.get_set_apart, hcode, hwinner,
    hgo, hbusy, bne_self_eq_false, and_self]

theorem plainReg_serviceCmd : plainReg CU_SERVICE_CMD.GO.off = true := by decide +kernel
theorem plainAcc_serviceFields : ∀ f ∈ [CU_SERVICE_CMD.OP, CU_SERVICE_CMD.HARNESS, CU_SERVICE_CMD.CORE],
    f.off = CU_SERVICE_CMD.GO.off ∧ plainAcc f = some .rw := by decide +kernel

theorem fieldAfter_rw (width old new : Nat) : fieldAfter .rw width false old new = new := rfl

/-- The fields of the word that issues a service order. -/
theorem serviceWord_fields {op h c : Nat} (hop : op < 16) (hh : h < 8) (hc : c < 128) :
    bitsOf (serviceWord op h c).toNat CU_SERVICE_CMD.OP.hi CU_SERVICE_CMD.OP.lo = op ∧
      bitsOf (serviceWord op h c).toNat CU_SERVICE_CMD.HARNESS.hi CU_SERVICE_CMD.HARNESS.lo = h ∧
      bitsOf (serviceWord op h c).toNat CU_SERVICE_CMD.CORE.hi CU_SERVICE_CMD.CORE.lo = c ∧
      bitOf (serviceWord op h c).toNat CU_SERVICE_CMD.GO.lo = true := by
  have hopw : op % 2 ^ (CU_SERVICE_CMD.OP.hi + 1 - CU_SERVICE_CMD.OP.lo) = op := Nat.mod_eq_of_lt hop
  have hhw : h % 2 ^ (CU_SERVICE_CMD.HARNESS.hi + 1 - CU_SERVICE_CMD.HARNESS.lo) = h := Nat.mod_eq_of_lt hh
  have hcw : c % 2 ^ (CU_SERVICE_CMD.CORE.hi + 1 - CU_SERVICE_CMD.CORE.lo) = c := Nat.mod_eq_of_lt hc
  have hgow : 1 % 2 ^ (CU_SERVICE_CMD.GO.hi + 1 - CU_SERVICE_CMD.GO.lo) = 1 := rfl
  have hgo : CU_SERVICE_CMD.GO.lo = CU_SERVICE_CMD.GO.hi := rfl
  rw [bitOf_eq_bitsOf]
  unfold serviceWord cmdWord
  rw [List.foldl_cons, List.foldl_cons, List.foldl_cons, List.foldl_cons, List.foldl_nil]
  dsimp only
  refine ⟨?_, ?_, ?_, ?_⟩
  · rw [bitsOf_putBits_apart _ _ _ _ _ _ (by decide) (by decide) (by decide),
      bitsOf_putBits_apart _ _ _ _ _ _ (by decide) (by decide) (by decide), bitsOf_putBits_self _ _ _ _ (by decide) (by decide), hopw]
  · rw [bitsOf_putBits_apart _ _ _ _ _ _ (by decide) (by decide) (by decide), bitsOf_putBits_self _ _ _ _ (by decide) (by decide), hhw]
  · rw [bitsOf_putBits_self _ _ _ _ (by decide) (by decide), hcw]
  · rw [bitsOf_putBits_apart _ _ _ _ _ _ (by decide) (by decide) (by decide),
      bitsOf_putBits_apart _ _ _ _ _ _ (by decide) (by decide) (by decide),
      bitsOf_putBits_apart _ _ _ _ _ _ (by decide) (by decide) (by decide)]
    rfl

/-- The state in which a service order is taken: its word is written. -/
def State.serviced (s : State) (op h c : Nat) : State := s.writeFields CU_SERVICE_CMD.GO.off (serviceWord op h c)

theorem State.serviced_rewrites (s : State) (op h c : Nat) : rewrites s (s.serviced op h c) [CU_SERVICE_CMD.GO.off] :=
  rewrites_writeFields plainReg_serviceCmd

section
variable {s : State} {op h c : Nat} {rival : Option Rival}

theorem State.serviced_fields (hop : op < 16) (hh : h < 8) (hc : c < 128) :
    (s.serviced op h c).get CU_SERVICE_CMD.OP = op ∧ (s.serviced op h c).get CU_SERVICE_CMD.HARNESS = h ∧
      (s.serviced op h c).get CU_SERVICE_CMD.CORE = c := by
  obtain ⟨hopw, hhw, hcw, -⟩ := serviceWord_fields hop hh hc
  have hfield : ∀ f ∈ [CU_SERVICE_CMD.OP, CU_SERVICE_CMD.HARNESS, CU_SERVICE_CMD.CORE],
      (s.serviced op h c).get f = bitsOf (serviceWord op h c).toNat f.hi f.lo := fun f hf => by
    obtain ⟨hoff, hacc⟩ := plainAcc_serviceFields f hf
    unfold State.serviced
    rw [← hoff, State.get_writeFields_acc hacc, fieldAfter_rw]
  exact ⟨(hfield _ (by simp)).trans hopw, (hfield _ (by simp)).trans hhw, (hfield _ (by simp)).trans hcw⟩

/-- R51: GO of a service order at a free unit. -/
theorem State.writeServiceCmd_free (hop : op < 16) (hh : h < 8) (hc : c < 128) (hb : s.flag CU_SERVICE_CMD.BUSY = false) :
    s.writeServiceCmd (serviceWord op h c) rival = (s.serviced op h c).takeService rival := by
  obtain ⟨-, -, -, hgo⟩ := serviceWord_fields hop hh hc
  simp [State.writeServiceCmd, State.issue, hgo, hb, State.serviced]

/-- What an order of a service does, once it is taken. -/
def State.serve (s : State) (op h c : Nat) (rival : Option Rival) : State :=
  if rival == some .same then s.serviceDone 0 0 else
  match defeatedBy 3 rival with
  | some r => s.serviceDone orderRejected (rivalCode r)
  | none =>
    match op with
    | 0 => if (s.core h c).service == .active then (s.retirePending h c).serviceDone 0 0 else s.serviceDone 2 0
    | 1 => if s.inService h then (s.fresh.2.retireHarness h s.fresh.1.toNat).serviceDone 0 0 else s.serviceDone 2 0
    | _ =>
      match s.returnRefusal h c with
      | 0 => (s.startProof h c).serviceDone 0 0
      | code => s.serviceDone code 0

theorem State.takeService_eq {u : State} (hop : u.get CU_SERVICE_CMD.OP = op) (hh : u.get CU_SERVICE_CMD.HARNESS = h)
    (hc : u.get CU_SERVICE_CMD.CORE = c) (hok : ¬ (decide (2 < op) || (op != 1 && decide (65 < c))) = true) :
    u.takeService rival = u.serve op h c rival := by
  unfold State.takeService
  rw [hop, hh, hc, if_neg hok]
  rfl

theorem State.takeService_serve (hop : op ≤ 2) (hh : h < 8) (hc : c ≤ 65) :
    (s.serviced op h c).takeService rival = (s.serviced op h c).serve op h c rival := by
  obtain ⟨hop', hh', hc'⟩ := State.serviced_fields (s := s) (op := op) (h := h) (c := c) (by omega) hh (by omega)
  have hok : ¬ (decide (2 < op) || (op != 1 && decide (65 < c))) = true := by
    rw [decide_eq_false (by omega), decide_eq_false (by omega)]
    simp
  exact State.takeService_eq hop' hh' hc' hok

theorem State.after_port_eq {off : Nat} {f : State → State} {u : State} (hg : s.writeGate off = .made) (hu : f s = u)
    (hp : u.pending = s.pending) (hf : u.fuses = s.fuses) : s.after (s.atPort off f) = { u with resp := .written } := by
  subst hu
  exact State.after_port hg hp hf

/-- A service command at a free unit. -/
theorem exec_service {cmd : Instr}
    (hcmd : exec cmd s = .next (s.after (s.atPort CU_SERVICE_CMD.GO.off (fun s => s.writeServiceCmd (serviceWord op h c) rival))))
    (hop : op ≤ 2) (hh : h < 8) (hc : c ≤ 65) (hg : s.writeGate CU_SERVICE_CMD.GO.off = .made)
    (hb : s.flag CU_SERVICE_CMD.BUSY = false) {u : State} (hserve : (s.serviced op h c).serve op h c rival = u)
    (hp : u.pending = s.pending) (hf : u.fuses = s.fuses) : exec cmd s = .next { u with resp := .written } := by
  have hwrite : s.writeServiceCmd (serviceWord op h c) rival = u := by
    rw [State.writeServiceCmd_free (by omega) hh (by omega) hb, State.takeService_serve hop hh hc, hserve]
  rw [hcmd, State.after_port_eq hg hwrite hp hf]

/-- A service order that has completed with a code and a winner. -/
def serviceEnded (t : State) (code winner : Nat) : Prop :=
  t.get CU_SERVICE_CMD.STATUS = code ∧ t.get CU_SERVICE_CMD.WINNER = winner ∧ t.flag CU_SERVICE_CMD.GO = false ∧
    t.flag CU_SERVICE_CMD.BUSY = false

theorem serviceEnded_written {u : State} {code winner : Nat} (h : serviceEnded u code winner) :
    serviceEnded { u with resp := .written } code winner := h

theorem State.serviceEnded_serviceDone (s : State) {code winner : Nat} (hc : code < 256) (hw : winner < 16) :
    serviceEnded (s.serviceDone code winner) code winner := (s.serviceDone_shows hc hw).2

/-- A service order that ends without an effect. -/
theorem exec_service_ends {cmd : Instr} {code winner : Nat}
    (hcmd : exec cmd s = .next (s.after (s.atPort CU_SERVICE_CMD.GO.off (fun s => s.writeServiceCmd (serviceWord op h c) rival))))
    (hop : op ≤ 2) (hh : h < 8) (hc : c ≤ 65) (hg : s.writeGate CU_SERVICE_CMD.GO.off = .made)
    (hb : s.flag CU_SERVICE_CMD.BUSY = false) (hcode : code < 256) (hwin : winner < 16)
    (hserve : (s.serviced op h c).serve op h c rival = (s.serviced op h c).serviceDone code winner) :
    ∃ t, exec cmd s = .next t ∧ rewrites { s with resp := .written } t [CU_SERVICE_CMD.GO.off] ∧ serviceEnded t code winner := by
  have hwrites : rewrites s ((s.serviced op h c).serviceDone code winner) [CU_SERVICE_CMD.GO.off] :=
    rewrites_trans (s.serviced_rewrites op h c) ((s.serviced op h c).serviceDone_shows hcode hwin).1 (List.Subset.refl _)
      (List.Subset.refl _)
  exact ⟨_, exec_service hcmd hop hh hc hg hb hserve (onlyRegs.pending hwrites.1) (onlyRegs.fuses hwrites.1), rewrites_written hwrites,
    serviceEnded_written (State.serviceEnded_serviceDone _ hcode hwin)⟩

/-! ## What each order does (R353, R358, R364) -/

theorem State.serve_same : s.serve op h c (some .same) = s.serviceDone 0 0 := rfl

theorem State.serve_lost {r : Rival} (hr : defeatedBy 3 rival = some r) :
    s.serve op h c rival = s.serviceDone orderRejected (rivalCode r) := by
  have hsame : (rival == some .same) = false := by simpa using defeatedBy_not_same (by decide) hr
  unfold State.serve
  rw [hsame, hr]
  rfl

section
variable (hr : defeatedBy 3 rival = none) (hsame : rival ≠ some .same)
include hr hsame

theorem State.serve_retireCore : s.serve 0 h c rival =
    if (s.core h c).service == .active then (s.retirePending h c).serviceDone 0 0 else s.serviceDone 2 0 := by
  have hs : (rival == some .same) = false := by simpa using hsame
  unfold State.serve
  rw [hs, hr]
  rfl

theorem State.serve_returnCore : s.serve 2 h c rival =
    if s.returnRefusal h c = 0 then (s.startProof h c).serviceDone 0 0 else s.serviceDone (s.returnRefusal h c) 0 := by
  have hs : (rival == some .same) = false := by simpa using hsame
  by_cases h0 : s.returnRefusal h c = 0
  · unfold State.serve
    rw [hs, hr, h0]
    rfl
  · obtain ⟨n, hn⟩ := Nat.exists_eq_succ_of_ne_zero h0
    unfold State.serve
    rw [hs, hr, hn]
    rfl

end

theorem State.serve_retireHarness : s.serve 1 h c none =
    if s.inService h then (s.fresh.2.retireHarness h s.fresh.1.toNat).serviceDone 0 0 else s.serviceDone 2 0 := rfl

end

end Sys2Proof.Machine

/-! A Harness that retires without work (family 02_loom_angle; R353, R354); the statement O55 rests on it. -/

namespace Sys2Proof.Machine

/-! ## A Harness without work retires (R353, R354) -/

/-- What the withdrawal of cores touches. -/
def onlyCores (s t : State) : Prop := t = { s with heddle := { s.heddle with cores := t.heddle.cores } }

theorem onlyCores_foldl {α : Type} {f : State → α → State} (h : ∀ s a, onlyCores s (f s a)) (l : List α) (s : State) :
    onlyCores s (l.foldl f s) := by
  induction l generalizing s with
  | nil => rfl
  | cons a l ih =>
    have hstep := h s a
    have hrest := ih (f s a)
    unfold onlyCores at hstep hrest ⊢
    rw [List.foldl_cons, hrest, hstep]

theorem onlyCores_withdraw (s : State) (h c : Nat) : onlyCores s (s.withdraw h c) := rfl

/-- R353: every core of a retiring Harness is withdrawn. -/
def State.withdrawAll (s : State) (h : Nat) : State := (List.range 66).foldl (fun s c => s.withdraw h c) s

theorem onlyCores_withdrawAll (s : State) (h : Nat) : onlyCores s (s.withdrawAll h) :=
  onlyCores_foldl (fun s c => onlyCores_withdraw s h c) _ s

/-- R353: the Harness is pending. -/
def State.pendHarness (s : State) (h : Nat) : State :=
  { s with cust := { s.cust with harnessPending := s.cust.harnessPending ||| (1#8 <<< h) } }

/-- R353: Harness h gives up what it has begun. -/
def State.clearHarness (s : State) (h : Nat) : State :=
  (s.modHarness h (fun x => { x with stage := [], reqs := [], turns := [] })).modSpindle h (fun v => { v with combines := [] })

/-- R353, R354: the retirement of Harness h, once its cores are withdrawn. -/
def State.endHarness (s : State) (h seq : Nat) : State :=
  let ps := s.heddle.picks.filter (·.h == h)
  let turns := (s.harness h).turns
  let r := ((s.clearHarness h).voidStrands h).voidJobs h
  let fed := r.2.filter (fun e => !ps.any (·.id == e.pick.id))
  let live := ps.map (fun p => (⟨p, r.2.any (fun e => e.pick.id == p.id)⟩ : Ended))
  let w := ((r.1.endPicks (live ++ fed) seq true true).moveTurns turns).voidSlice h
  if w.servingHarnesses.isEmpty then w.failEngine else w

theorem State.retireHarness_eq (s : State) (h seq : Nat) :
    s.retireHarness h seq = if !s.inService h then s else ((s.pendHarness h).withdrawAll h).endHarness h seq := by
  unfold State.retireHarness State.endHarness State.clearHarness State.withdrawAll State.pendHarness
  rfl

theorem State.voidStrands_none {s : State} (h : Nat) (hs : s.heddle.sums = []) : s.voidStrands h = s := by
  simp [State.voidStrands, hs]

theorem State.voidJobs_none {s : State} {h : Nat} (hj : (s.spindle h).jobs = []) : s.voidJobs h = (s, []) := by
  simp [State.voidJobs, hj]

theorem State.endPicks_none (s : State) (seq : Nat) (retire void : Bool) :
    s.endPicks [] seq retire void = s.bump CU_LOSS_EVENTS.ENDED_PICKS 0 := by
  have hsprint : s.heddle.sprint.filter (fun f => ([] : List Ended).any (fun e => e.pick.bolt == f.bolt && e.pick.sprint)) = none := by
    cases s.heddle.sprint <;> rfl
  unfold State.endPicks
  rw [hsprint]
  rfl

/-- R354: the slice of a Harness that waits for no fill. -/
theorem State.voidSlice_none {s : State} (h : Nat) (hf : s.tiers.fills = []) :
    s.voidSlice h = { s with tiers := (s.voidSlice h).tiers } ∧ (s.voidSlice h).slice h = [] := by
  have hvoid : s.voidSlice h = { s.modSlice h (fun _ => []) with
      tiers := { (s.modSlice h (fun _ => [])).tiers with
        sets := s.tiers.sets.map (fun p => (p.1, { p.2 with tiles := p.2.tiles.filter (fun t => t.2 != h) })) } } := by
    simp [State.voidSlice, hf]
  rw [hvoid]
  refine ⟨rfl, ?_⟩
  change (modAt s.tiers.slices h (fun _ => [])).getD h [] = []
  rw [List.getD_eq_getElem?_getD, getElem?_modAt, if_pos rfl]
  cases s.tiers.slices[h]? <;> rfl

/-- R356: an engine that has failed, but for its exchange. -/
def State.failedEngine (s : State) : State :=
  { s with cust := { s.cust with engineFailed := true },
           weft := { s.weft with bolts := s.weft.bolts.map (fun b => { b with internal := true }) } }

/-- R356: an engine that fails with an idle exchange. -/
theorem State.failEngine_idle {s : State} (h : exchangeIdle s) : s.failEngine = s.failedEngine :=
  State.closeExchange_idle (s := s.failedEngine) h

section
variable {s : State} {h : Nat}

theorem State.clearHarness_spindle (hj : (s.spindle h).jobs = []) : ((s.clearHarness h).spindle h).jobs = [] := by
  have hspindles : (s.clearHarness h).spindles = modAt s.spindles h (fun v => { v with combines := [] }) := rfl
  unfold State.spindle at hj ⊢
  rw [hspindles, List.getD_eq_getElem?_getD, getElem?_modAt, if_pos rfl]
  rw [List.getD_eq_getElem?_getD] at hj
  cases hv : s.spindles[h]? with
  | none => rfl
  | some v => simpa [hv] using hj

theorem State.endHarness_quiet (seq : Nat) (hp : s.heddle.picks = []) (ht : (s.harness h).turns = [])
    (hj : (s.spindle h).jobs = []) (hs : s.heddle.sums = []) :
    s.endHarness h seq =
      let w := ((s.clearHarness h).bump CU_LOSS_EVENTS.ENDED_PICKS 0).voidSlice h
      if w.servingHarnesses.isEmpty then w.failEngine else w := by
  have hsums : (s.clearHarness h).voidStrands h = s.clearHarness h := State.voidStrands_none h hs
  have hjobs := State.voidJobs_none (State.clearHarness_spindle hj)
  unfold State.endHarness
  rw [hp, ht, hsums, hjobs]
  change (let w := (((s.clearHarness h).endPicks [] seq true true).moveTurns []).voidSlice h
    if w.servingHarnesses.isEmpty then w.failEngine else w) = _
  rw [State.endPicks_none]
  rfl

/-- R353: what the retirement of a Harness without work leaves, once its cores are withdrawn. -/
theorem State.endHarness_shows (seq : Nat) (hp : s.heddle.picks = []) (ht : (s.harness h).turns = []) (hj : (s.spindle h).jobs = [])
    (hs : s.heddle.sums = []) (hf : s.tiers.fills = []) (hx : exchangeIdle s) :
    let t := s.endHarness h seq
    t.pending = s.pending ∧ t.fuses = s.fuses ∧ t.cust.harnessPending = s.cust.harnessPending ∧ t.slice h = [] := by
  obtain ⟨hvoid, hslice⟩ := State.voidSlice_none (s := (s.clearHarness h).bump CU_LOSS_EVENTS.ENDED_PICKS 0) h hf
  rw [State.endHarness_quiet seq hp ht hj hs]
  dsimp only
  split
  · rw [State.failEngine_idle (by rw [hvoid]; exact hx)]
    exact ⟨by rw [hvoid]; rfl, by rw [hvoid]; rfl, by rw [hvoid]; rfl, hslice⟩
  · exact ⟨by rw [hvoid]; rfl, by rw [hvoid]; rfl, by rw [hvoid]; rfl, hslice⟩

/-- R353: what the retirement of a Harness without work leaves. -/
theorem State.retireHarness_shows (seq : Nat) (hin : s.inService h = true) (hp : s.heddle.picks = []) (ht : (s.harness h).turns = [])
    (hj : (s.spindle h).jobs = []) (hs : s.heddle.sums = []) (hf : s.tiers.fills = []) (hx : exchangeIdle s) :
    let t := s.retireHarness h seq
    t.pending = s.pending ∧ t.fuses = s.fuses ∧ t.cust.harnessPending = s.cust.harnessPending ||| (1#8 <<< h) ∧ t.slice h = [] := by
  obtain ⟨cores, hcores⟩ : ∃ cores, (s.pendHarness h).withdrawAll h =
      { s.pendHarness h with heddle := { s.heddle with cores := cores } } := ⟨_, onlyCores_withdrawAll (s.pendHarness h) h⟩
  have hends := State.endHarness_shows (s := (s.pendHarness h).withdrawAll h) (h := h) seq (by rw [hcores]; exact hp)
    (by rw [hcores]; exact ht) (by rw [hcores]; exact hj) (by rw [hcores]; exact hs) (by rw [hcores]; exact hf)
    (by rw [hcores]; exact hx)
  obtain ⟨hpend, hfuse, hharness, hslice⟩ := hends
  rw [State.retireHarness_eq, hin, if_neg (by decide)]
  exact ⟨hpend.trans (by rw [hcores]; rfl), hfuse.trans (by rw [hcores]; rfl), hharness.trans (by rw [hcores]; rfl), hslice⟩

end

end Sys2Proof.Machine

/-! Proof picks, the fault ring's read pointer and the Tally (family 02_loom_angle): the statement O55. -/

namespace Sys2Proof.Machine

/-! ## Service orders that take effect (R353, R358, R364) -/

section
variable {s : State} {h c : Nat} {rival : Option Rival}

theorem State.returnRefusal_serviced (op h' c' : Nat) : (s.serviced op h' c').returnRefusal h c = s.returnRefusal h c := by
  obtain ⟨hframe, hword⟩ := s.serviced_rewrites op h' c'
  have hlimit : (s.serviced op h' c').get CU_CTRL.RETURN_LIMIT = s.get CU_CTRL.RETURN_LIMIT :=
    State.get_of_word (hword _ (by decide))
  unfold State.returnRefusal
  rw [hlimit, hframe]
  rfl

theorem State.core_serviced (op h' c' : Nat) : (s.serviced op h' c').core h c = s.core h c := by
  rw [(s.serviced_rewrites op h' c').1]; rfl

theorem State.returnRefusal_le (s : State) (h c : Nat) : s.returnRefusal h c ≤ 5 := by
  unfold State.returnRefusal
  dsimp only
  repeat' split
  all_goals decide

/-- R358: an order retires an active core at the next boundary. -/
theorem State.retirePending_core (s : State) (hk : (s.core h c).service = .active) :
    (s.retirePending h c).core h c = { s.core h c with service := .retirePending, returns := (s.core h c).returns + 1 } := by
  unfold State.retirePending
  rw [State.core_modCore_self, hk]
  rfl

/-- R364, R365: the words that tell of a proof pick under way. -/
theorem State.startProof_shows (s : State) (hc : c < 66) :
    let t := s.startProof h c
    (t.core h c).service = .proving ∧ t.cust.proofs = s.cust.proofs ++ [(h, c)] ∧ t.get (CU_PROOF_STATUS.CORE h) = c ∧
      t.get (CU_PROOF_STATUS.RESULT h) = 0 := by
  have hcore : fldWidth (CU_PROOF_STATUS.CORE h) = 7 := rfl
  have hresult : 0 % 2 ^ fldWidth (CU_PROOF_STATUS.RESULT h) = 0 := rfl
  refine ⟨?_, rfl, ?_, ?_⟩
  · change ((s.modCore h c (fun k => { k with service := .proving })).core h c).service = .proving
    rw [State.core_modCore_self]
  · unfold State.startProof
    rw [State.get_set_apart _ (CU_PROOF_STATUS.RESULT h) (CU_PROOF_STATUS.CORE h) 0 (show 48 ≤ 55 + 1 by decide)
        (show 55 < 64 by decide) (.inr (.inr (show 55 < 56 by decide))),
      State.get_set_self _ (CU_PROOF_STATUS.CORE h) _ (show 56 ≤ 62 + 1 by decide) (show 62 < 64 by decide), hcore]
    exact Nat.mod_eq_of_lt (by omega)
  · unfold State.startProof
    rw [State.get_set_self _ (CU_PROOF_STATUS.RESULT h) _ (show 48 ≤ 55 + 1 by decide) (show 55 < 64 by decide), hresult]

end

/-! ## Proof picks (R365, R366) -/

section
variable {s : State} {h : Fin 8} {p : Nat × Nat} {sig : BitVec 32} {mk pr : Bool}

theorem proofResult_lt (sig : BitVec 32) (mk pr : Bool) : proofResult sig mk pr < 256 := by
  unfold proofResult
  repeat' split
  all_goals decide

/-- R365: the state in which the result of a proof pick is judged. -/
def State.signed (s : State) (h : Fin 8) (sig : BitVec 32) : State := s.set (CU_PROOF_STATUS.SIGNATURE h.val) sig.toNat

/-- R365, R366: what the result of a proof pick leads to. -/
def State.judged (s : State) (p : Nat × Nat) (h : Fin 8) (result : Nat) : State :=
  match result with
  | 1 => { s.set (CU_PROOF_STATUS.RESULT h.val) 1 with
      cust := { s.cust with proofs := s.cust.proofs.filter (· != p), joins := s.cust.joins ++ [coreKey p.1 p.2] } }
  | r => s.proofFailed p.1 p.2 r

theorem exec_proofPickEnd (s : State) (h : Fin 8) (sig : BitVec 32) (mk pr : Bool) :
    exec (.proofPickEnd h sig mk pr) s = .next (s.after <| match s.cust.proofs.find? (·.1 == h.val) with
      | none => s
      | some p => if !s.powered then s else (s.signed h sig).judged p h (proofResult sig mk pr)) := rfl

theorem State.judged_pass (s : State) (p : Nat × Nat) (h : Fin 8) : s.judged p h 1 = { s.set (CU_PROOF_STATUS.RESULT h.val) 1 with
    cust := { s.cust with proofs := s.cust.proofs.filter (· != p), joins := s.cust.joins ++ [coreKey p.1 p.2] } } := rfl

theorem State.judged_fail (s : State) (p : Nat × Nat) (h : Fin 8) {r : Nat} (hr : r ≠ 1) :
    s.judged p h r = s.proofFailed p.1 p.2 r := by
  unfold State.judged
  split
  · exact absurd rfl hr
  · rfl

theorem exec_proofPickEnd_some (hs : s.powered = true) (hp : s.cust.proofs.find? (·.1 == h.val) = some p) :
    exec (.proofPickEnd h sig mk pr) s = .next (s.after ((s.signed h sig).judged p h (proofResult sig mk pr))) := by
  rw [exec_proofPickEnd, hp, hs]
  rfl

theorem exec_proofPickEnd_none (hp : s.cust.proofs.find? (·.1 == h.val) = none) : exec (.proofPickEnd h sig mk pr) s = .next s := by
  rw [exec_proofPickEnd, hp]
  exact congrArg Host.Outcome.next (State.after_eq s s rfl rfl)

/-- R365: what stands before the record of a proof pick that failed. -/
def State.unproved (s : State) (h c result : Nat) : State :=
  ((({ s with cust := { s.cust with proofs := s.cust.proofs.filter (fun p => p != (h, c)),
                                    joins := s.cust.joins.filter (· != coreKey h c) } }).modCore h c
    (fun k => { k with service := .retired })).set (CU_PROOF_STATUS.CORE h) c).set (CU_PROOF_STATUS.RESULT h) result

theorem State.proofFailed_eq (s : State) (h c result : Nat) : s.proofFailed h c result =
    (s.unproved h c result).recordFault { cls := 0x10, source := 11, harness := h, core := c, detail := result } := rfl

theorem State.unproved_shows (s : State) {h : Nat} (hh : h < 8) (c : Nat) {result : Nat} (hr : result < 256) :
    (s.unproved h c result).pending = s.pending ∧ (s.unproved h c result).fuses = s.fuses ∧
      ((s.unproved h c result).core h c).service = .retired ∧ (s.unproved h c result).get (CU_PROOF_STATUS.RESULT h) = result ∧
      ∀ off, off < 0x1100 → (s.unproved h c result).word off = s.word off := by
  refine ⟨rfl, rfl, ?_, ?_, fun off ho => ?_⟩
  · change ((State.modCore _ h c (fun k => { k with service := .retired })).core h c).service = .retired
    rw [State.core_modCore_self]
  · have hwidth : fldWidth (CU_PROOF_STATUS.RESULT h) = 8 := rfl
    unfold State.unproved
    rw [State.get_set_self _ (CU_PROOF_STATUS.RESULT h) _ (show 48 ≤ 55 + 1 by decide) (show 55 < 64 by decide), hwidth]
    exact Nat.mod_eq_of_lt hr
  · have hresult : (CU_PROOF_STATUS.RESULT h).off = 0x1100 + h * 8 := rfl
    have hcore : (CU_PROOF_STATUS.CORE h).off = 0x1100 + h * 8 := rfl
    unfold State.unproved
    rw [State.word_set_ne _ _ _ _ (by rw [hresult]; omega), State.word_set_ne _ _ _ _ (by rw [hcore]; omega)]
    rfl

end

/-! ## The Tally (R361, R362) -/

theorem plainAcc_tail : plainAcc CU_FAULT_PTR.TAIL = some .rw := by decide +kernel
theorem plainAcc_faultPtr : ∀ f ∈ [CU_FAULT_PTR.HEAD, CU_FAULT_PTR.SEQ_NEXT], f.off = CU_FAULT_PTR.TAIL.off ∧ plainAcc f = some .ro := by
  decide +kernel
theorem plainReg_faultPtr : plainReg CU_FAULT_PTR.TAIL.off = true := by decide +kernel
theorem plainReg_tallyRing : plainReg CU_TALLY_RING.VALID.off = true := by decide +kernel
theorem plainAcc_tallyBase : plainAcc CU_TALLY_RING.BASE = some .rw := by decide +kernel
theorem plainReg_tallyCtrl : plainReg CU_TALLY_CTRL.DRAIN.off = true := by decide +kernel
theorem plainAcc_tallyDrain : plainAcc CU_TALLY_CTRL.DRAIN = some .w1s := by decide +kernel
theorem plainAcc_autoMark : plainAcc CU_TALLY_CTRL.AUTO_MARK = some .rw := by decide +kernel

/-- R361: the word that starts a drain, with the mark left as it is. -/
def State.drainWord (s : State) : W64 := cmdWord [(CU_TALLY_CTRL.DRAIN, 1), (CU_TALLY_CTRL.AUTO_MARK, s.get CU_TALLY_CTRL.AUTO_MARK)]

theorem State.drainWord_fields (s : State) : bitsOf s.drainWord.toNat CU_TALLY_CTRL.DRAIN.hi CU_TALLY_CTRL.DRAIN.lo = 1 ∧
    bitsOf s.drainWord.toNat CU_TALLY_CTRL.AUTO_MARK.hi CU_TALLY_CTRL.AUTO_MARK.lo = s.get CU_TALLY_CTRL.AUTO_MARK := by
  have hwidth : s.get CU_TALLY_CTRL.AUTO_MARK % 2 ^ (CU_TALLY_CTRL.AUTO_MARK.hi + 1 - CU_TALLY_CTRL.AUTO_MARK.lo) =
      s.get CU_TALLY_CTRL.AUTO_MARK := Nat.mod_eq_of_lt (bitsOf_lt _ _ _)
  unfold State.drainWord cmdWord
  rw [List.foldl_cons, List.foldl_cons, List.foldl_nil]
  dsimp only
  refine ⟨?_, ?_⟩
  · rw [bitsOf_putBits_apart _ _ _ _ _ _ (by decide) (by decide) (by decide)]
    rfl
  · rw [bitsOf_putBits_self _ _ _ _ (by decide) (by decide), hwidth]

/-- R361: a drain that is written starts from the written word. -/
def State.drainWritten (s : State) : State := s.writeFields CU_TALLY_CTRL.DRAIN.off s.drainWord

theorem fieldAfter_w1s_one (old : Nat) : fieldAfter .w1s (fldWidth CU_TALLY_CTRL.DRAIN) false old 1 = old ||| 1 := rfl

theorem State.drainWritten_rewrites (s : State) : rewrites s s.drainWritten [CU_TALLY_CTRL.DRAIN.off] :=
  rewrites_writeFields plainReg_tallyCtrl

theorem State.drainWritten_drain (s : State) : s.drainWritten.flag CU_TALLY_CTRL.DRAIN = true := by
  have hget : s.drainWritten.get CU_TALLY_CTRL.DRAIN = s.get CU_TALLY_CTRL.DRAIN ||| 1 := by
    unfold State.drainWritten
    rw [State.get_writeFields_acc plainAcc_tallyDrain, s.drainWord_fields.1, fieldAfter_w1s_one]
  have hne : s.get CU_TALLY_CTRL.DRAIN ||| 1 ≠ 0 := by simp
  unfold State.flag
  rw [hget]
  exact bne_iff_ne.mpr hne

theorem State.get_writeFields_mark (s : State) (v : W64) :
    (s.writeFields CU_TALLY_CTRL.AUTO_MARK.off v).get CU_TALLY_CTRL.AUTO_MARK =
      bitsOf v.toNat CU_TALLY_CTRL.AUTO_MARK.hi CU_TALLY_CTRL.AUTO_MARK.lo := by
  rw [State.get_writeFields_acc plainAcc_autoMark, fieldAfter_rw]

theorem State.drainWritten_eq (s : State) : s.drainWritten = s.writeFields CU_TALLY_CTRL.AUTO_MARK.off s.drainWord := rfl

theorem State.drainWritten_mark (s : State) : s.drainWritten.get CU_TALLY_CTRL.AUTO_MARK = s.get CU_TALLY_CTRL.AUTO_MARK := by
  rw [State.drainWritten_eq, State.get_writeFields_mark]
  exact s.drainWord_fields.2

theorem exec_tallyDrain {s : State} (hg : s.writeGate CU_TALLY_CTRL.DRAIN.off = .made) :
    exec .tallyDrain s = .next { s.drainWritten.startTallyDrain with resp := .written } := by
  have hstep : exec .tallyDrain s =
    .next (s.after (s.atPort CU_TALLY_CTRL.DRAIN.off (fun s => s.writeTallyCtrl s.drainWord))) := rfl
  have hgo : bitOf s.drainWord.toNat 63 = true := by
    rw [bitOf_eq_bitsOf]
    exact congrArg (· != 0) s.drainWord_fields.1
  have hwrite : s.writeTallyCtrl s.drainWord = s.drainWritten.startTallyDrain := by
    unfold State.writeTallyCtrl State.drainWritten
    dsimp only
    rw [if_pos hgo]
  obtain ⟨hframe, -⟩ := s.drainWritten_rewrites
  rw [hstep, State.after_port_eq hg hwrite]
  · rw [State.startTallyDrain_frame, hframe]
  · rw [State.startTallyDrain_frame, hframe]

theorem State.tallyRoom_of {s t : State} (hc : t.cust.tally = s.cust.tally) (hd : t.cust.drainLeft = s.cust.drainLeft)
    (hring : t.word CU_TALLY_RING.VALID.off = s.word CU_TALLY_RING.VALID.off)
    (hptr : t.word CU_TALLY_PTR.HEAD.off = s.word CU_TALLY_PTR.HEAD.off) : t.tallyRoom = s.tallyRoom := by
  unfold State.tallyRoom State.tallyRingUsed State.tallySize
  rw [hc, hd, State.flag_of_word hring, State.get_of_word hptr, State.get_of_word (f := CU_TALLY_PTR.TAIL) hptr,
    State.get_of_word (f := CU_TALLY_RING.LOG2_ENTRIES) hring]

/-- R361: what a drain that starts leaves of CU_TALLY_CTRL. -/
theorem State.startTallyDrain_shows {s : State} (h : s.flag CU_TALLY_CTRL.DRAIN = true) :
    s.startTallyDrain.flag CU_TALLY_CTRL.DRAIN = (s.tallyRoom || s.cust.drainLeft != 0) ∧
      s.startTallyDrain.get CU_TALLY_CTRL.AUTO_MARK = s.get CU_TALLY_CTRL.AUTO_MARK ∧ s.startTallyDrain.cust.tally = s.cust.tally := by
  have hstart : s.startTallyDrain = if s.tallyRoom || s.cust.drainLeft != 0 then { s with cust := { s.cust with draining := true } }
      else { s.set CU_TALLY_CTRL.DRAIN 0 with cust := { s.cust with draining := false } } := rfl
  rw [hstart]
  cases hroom : s.tallyRoom || s.cust.drainLeft != 0
  · exact ⟨State.flag_set_zero s CU_TALLY_CTRL.DRAIN (by decide) (by decide),
      State.get_set_apart s CU_TALLY_CTRL.DRAIN CU_TALLY_CTRL.AUTO_MARK 0 (by decide) (by decide) (by decide), rfl⟩
  · exact ⟨h, rfl, rfl⟩

/-- R265: an engine write joins those that wait, and no page command, fuse or command in flight changes. -/
theorem State.queueWrite_shows (s : State) (source : Nat) (addr : Nat) {bytes : List Byte} (hb : bytes ≠ []) :
    let t := s.queueWrite source none addr bytes
    t = { s with tiers := t.tiers } ∧ t.tiers.writes = s.tiers.writes ++ [⟨addr, bytes, source, none⟩] := by
  have hpins : onlyPins s (s.pinPages addr bytes.length true) := by
    unfold State.pinPages
    refine onlyPins_foldl (fun s p => ?_) _ s
    rfl
  have hempty : ¬ bytes.isEmpty = true := by simpa using hb
  unfold State.queueWrite
  rw [if_neg hempty]
  dsimp only
  rw [hpins]
  exact ⟨rfl, rfl⟩

/-- R361: an entry of the Tally goes out. -/
theorem exec_tallyEntryWrite {s : State} (hs : s.powered = true) (hp : s.tallyNext.pending = s.pending)
    (hf : s.tallyNext.fuses = s.fuses) : exec .tallyEntryWrite s = .next s.tallyNext := by
  have hstep : exec .tallyEntryWrite s = .next (s.after (if s.powered then s.tallyNext else s)) := rfl
  rw [hstep, if_pos hs, State.after_eq s _ hp hf]

theorem onlyRegs_serviceDone (s : State) (code winner : Nat) : onlyRegs s (s.serviceDone code winner) :=
  ((((rewrites_refl s [CU_SERVICE_CMD.GO.off]).set _ _ (by decide)).set _ _ (by decide)).set _ _ (by decide)).set _ _ (by decide) |>.1

theorem State.serviceDone_pending (s : State) (code winner : Nat) : (s.serviceDone code winner).pending = s.pending :=
  (onlyRegs_serviceDone s code winner).pending
theorem State.serviceDone_fuses (s : State) (code winner : Nat) : (s.serviceDone code winner).fuses = s.fuses :=
  (onlyRegs_serviceDone s code winner).fuses
theorem State.retirePending_pending (s : State) (h c : Nat) : (s.retirePending h c).pending = s.pending := rfl
theorem State.retirePending_fuses (s : State) (h c : Nat) : (s.retirePending h c).fuses = s.fuses := rfl
theorem State.startProof_pending (s : State) (h c : Nat) : (s.startProof h c).pending = s.pending := rfl
theorem State.startProof_fuses (s : State) (h c : Nat) : (s.startProof h c).fuses = s.fuses := rfl

/-- The state that a service order with code 0 and no winner ends in. -/
def State.served (u : State) : State := { u.serviceDone 0 0 with resp := .written }

section
variable {s : State} {h : Fin 8} {c : Fin 66} {rival : Option Rival}

/-- R358: an order that retires an active core. -/
theorem exec_retireCore_active (hg : s.writeGate CU_SERVICE_CMD.GO.off = .made) (hb : s.flag CU_SERVICE_CMD.BUSY = false)
    (hr : defeatedBy 3 rival = none) (hsame : rival ≠ some .same) (hk : (s.core h.val c.val).service = .active) :
    exec (.retireCore h c rival) s =
      .next ((s.serviced 0 h.val c.val).retirePending h.val c.val).served := by
  obtain ⟨hframe, -⟩ := s.serviced_rewrites 0 h.val c.val
  have hserve : (s.serviced 0 h.val c.val).serve 0 h.val c.val rival =
      ((s.serviced 0 h.val c.val).retirePending h.val c.val).serviceDone 0 0 := by
    rw [State.serve_retireCore hr hsame, State.core_serviced, hk, if_pos (beq_self_eq_true _)]
  refine exec_service rfl (by omega) h.isLt (by omega) hg hb hserve ?_ ?_
  · rw [State.serviceDone_pending, State.retirePending_pending, hframe]
  · rw [State.serviceDone_fuses, State.retirePending_fuses, hframe]

/-- R364: an order that starts a proof pick. -/
theorem exec_returnCore_starts (hg : s.writeGate CU_SERVICE_CMD.GO.off = .made) (hb : s.flag CU_SERVICE_CMD.BUSY = false)
    (hr : defeatedBy 3 rival = none) (hsame : rival ≠ some .same) (hk : s.returnRefusal h.val c.val = 0) :
    exec (.returnCore h c rival) s =
      .next ((s.serviced 2 h.val c.val).startProof h.val c.val).served := by
  obtain ⟨hframe, -⟩ := s.serviced_rewrites 2 h.val c.val
  have hserve : (s.serviced 2 h.val c.val).serve 2 h.val c.val rival =
      ((s.serviced 2 h.val c.val).startProof h.val c.val).serviceDone 0 0 := by
    rw [State.serve_returnCore hr hsame, State.returnRefusal_serviced, if_pos hk]
  refine exec_service rfl (by omega) h.isLt (by omega) hg hb hserve ?_ ?_
  · rw [State.serviceDone_pending, State.startProof_pending, hframe]
  · rw [State.serviceDone_fuses, State.startProof_fuses, hframe]

/-- R353: an order that retires a Harness without work. -/
theorem exec_retireHarness_quiet (hg : s.writeGate CU_SERVICE_CMD.GO.off = .made) (hb : s.flag CU_SERVICE_CMD.BUSY = false)
    (hin : s.inService h.val = true) (hp : s.heddle.picks = []) (ht : (s.harness h.val).turns = []) (hj : (s.spindle h.val).jobs = [])
    (hs : s.heddle.sums = []) (hf : s.tiers.fills = []) (hx : exchangeIdle s) :
    ∃ u : State, exec (.retireHarness h) s = .next u.served ∧
      u.cust.harnessPending = s.cust.harnessPending ||| (1#8 <<< h.val) ∧ u.slice h.val = [] := by
  obtain ⟨hframe, -⟩ := s.serviced_rewrites 1 h.val 0
  obtain ⟨hpend, hfuse, hharness, hslice⟩ := State.retireHarness_shows (s := (s.serviced 1 h.val 0).fresh.2) (h := h.val)
    (s.serviced 1 h.val 0).fresh.1.toNat (by rw [hframe]; exact hin) (by rw [hframe]; exact hp) (by rw [hframe]; exact ht)
    (by rw [hframe]; exact hj) (by rw [hframe]; exact hs) (by rw [hframe]; exact hf) (by rw [hframe]; exact hx)
  have hin' : (s.serviced 1 h.val 0).inService h.val = true := by rw [hframe]; exact hin
  have hserve : (s.serviced 1 h.val 0).serve 1 h.val 0 none =
      ((s.serviced 1 h.val 0).fresh.2.retireHarness h.val (s.serviced 1 h.val 0).fresh.1.toNat).serviceDone 0 0 := by
    rw [State.serve_retireHarness, if_pos hin']
  refine ⟨_, exec_service rfl (by omega) h.isLt (by omega) hg hb hserve ?_ ?_, ?_, hslice⟩
  · rw [State.serviceDone_pending]
    exact hpend.trans (by rw [hframe]; rfl)
  · rw [State.serviceDone_fuses]
    exact hfuse.trans (by rw [hframe]; rfl)
  · exact hharness.trans (by rw [hframe]; rfl)

end

theorem State.retirePending_word (s : State) (h c off : Nat) : (s.retirePending h c).word off = s.word off := rfl

theorem State.serviceDone_word (s : State) (code winner : Nat) {off : Nat} (ho : off ≠ CU_SERVICE_CMD.GO.off) :
    (s.serviceDone code winner).word off = s.word off := by
  have hr : rewrites s (s.serviceDone code winner) [CU_SERVICE_CMD.GO.off] :=
    ((((rewrites_refl s _).set _ _ (by decide)).set _ _ (by decide)).set _ _ (by decide)).set _ _ (by decide)
  exact hr.2 off (by simpa using ho)

theorem State.serviceDone_core (s : State) (code winner h c : Nat) : (s.serviceDone code winner).core h c = s.core h c := by
  rw [onlyRegs_serviceDone s code winner]; rfl

theorem State.serviceDone_cust (s : State) (code winner : Nat) : (s.serviceDone code winner).cust = s.cust := by
  rw [onlyRegs_serviceDone s code winner]

theorem State.serviceDone_slice (s : State) (code winner h : Nat) : (s.serviceDone code winner).slice h = s.slice h := by
  rw [onlyRegs_serviceDone s code winner]; rfl

section
variable {s : State} {v : W64}

/-- R343: TAIL takes the host's value. -/
theorem exec_faultTailWrite (hg : s.writeGate CU_FAULT_PTR.TAIL.off = .made) :
    exec (.faultTailWrite v) s = .next { s.writeFields CU_FAULT_PTR.TAIL.off v with resp := .written } := by
  have hstep : exec (.faultTailWrite v) s =
    .next (s.after (s.atPort CU_FAULT_PTR.TAIL.off (fun s => s.writeFields CU_FAULT_PTR.TAIL.off v))) := rfl
  rw [hstep, State.after_port hg (s.writeFields_pending _ v) (s.writeFields_fuses _ v)]

theorem State.get_writeFields_rw (s : State) (v : W64) {f : Fld} (h : plainAcc f = some .rw) :
    (s.writeFields f.off v).get f = bitsOf v.toNat f.hi f.lo := by
  rw [State.get_writeFields_acc h, fieldAfter_rw]

theorem fieldAfter_ro (width old new : Nat) : fieldAfter .ro width false old new = old := rfl

theorem State.get_writeFields_ro (s : State) (v : W64) {f : Fld} (h : plainAcc f = some .ro) :
    (s.writeFields f.off v).get f = s.get f := by
  rw [State.get_writeFields_acc h, fieldAfter_ro]

/-- R362: the ring of the Tally moves only while it is empty. -/
theorem exec_tallyRingWrite (hg : s.writeGate CU_TALLY_RING.VALID.off = .made) :
    exec (.tallyRingWrite v) s = .next { s.writeTallyRing v with resp := .written } := by
  have hstep : exec (.tallyRingWrite v) s = .next (s.after (s.atPort CU_TALLY_RING.VALID.off (fun s => s.writeTallyRing v))) := rfl
  have hframe : (s.writeTallyRing v).pending = s.pending ∧ (s.writeTallyRing v).fuses = s.fuses := by
    unfold State.writeTallyRing
    split
    · exact ⟨rfl, rfl⟩
    · exact ⟨s.writeFields_pending _ v, s.writeFields_fuses _ v⟩
  rw [hstep, State.after_port_eq hg rfl hframe.1 hframe.2]

theorem State.tallyNext_waits (h : s.cust.draining = false ∨ s.tiers.writes.any (·.source == 11) = true) : s.tallyNext = s := by
  unfold State.tallyNext
  rw [if_pos]
  rcases h with h | h <;> simp [h]

theorem State.tallyNext_stops (hd : s.cust.draining = true) (hw : s.tiers.writes.any (·.source == 11) = false)
    (hr : s.tallyRoom = false) (hl : s.cust.drainLeft = 0) :
    s.tallyNext = { s.set CU_TALLY_CTRL.DRAIN 0 with cust := { s.cust with draining := false } } := by
  unfold State.tallyNext State.tallyStop
  simp [hd, hw, hr, hl]

/-- R361: an entry that goes out. -/
theorem State.tallyNext_writes {e : TallyEntry} {rest : List TallyEntry} (hd : s.cust.draining = true)
    (hw : s.tiers.writes.any (·.source == 11) = false) (hr : s.tallyRoom = true) (ht : s.cust.tally = e :: rest) :
    s.tallyNext = State.queueWrite { s with cust := { s.cust with tally := rest, drainLeft := s.cust.drainLeft + 1 } } 11 none
      (s.get CU_TALLY_RING.BASE * 2 ^ 21 + 32 * ((s.get CU_TALLY_PTR.HEAD + s.cust.drainLeft) % s.tallySize))
      (e.words.flatMap (fun w => toLe 8 w.toNat)) := by
  have hgo : ¬ (!s.cust.draining || s.tiers.writes.any (·.source == 11)) = true := by simp [hd, hw]
  unfold State.tallyNext
  rw [if_neg hgo, hr, if_neg (by decide), ht]
  rfl

end

/-- A service order that takes effect completes, and leaves its effect alone. -/
theorem State.served_shows (u : State) : serviceEnded u.served 0 0 ∧ (∀ h c, u.served.core h c = u.core h c) ∧ u.served.cust = u.cust ∧
    (∀ h, u.served.slice h = u.slice h) ∧ ∀ off, off ≠ CU_SERVICE_CMD.GO.off → u.served.word off = u.word off :=
  ⟨serviceEnded_written (State.serviceEnded_serviceDone u (by decide) (by decide)), fun h c => u.serviceDone_core 0 0 h c,
    u.serviceDone_cust 0 0, fun h => u.serviceDone_slice 0 0 h, fun _ ho => u.serviceDone_word 0 0 ho⟩

/-- A core that an order retires (R358), as the window and the core show it. -/
theorem State.retireCore_shows (s : State) {h c : Nat} (hk : (s.core h c).service = .active) :
    let t := ((s.serviced 0 h c).retirePending h c).served
    serviceEnded t 0 0 ∧ (t.core h c).service = .retirePending ∧ (t.core h c).returns = (s.core h c).returns + 1 ∧
      (∀ h' c', coreKey h' c' ≠ coreKey h c → t.core h' c' = s.core h' c') ∧
      (∀ off, off ≠ CU_SERVICE_CMD.GO.off → t.word off = s.word off) := by
  obtain ⟨hended, hcores, -, -, hwords⟩ := ((s.serviced 0 h c).retirePending h c).served_shows
  have hcore : ((s.serviced 0 h c).retirePending h c).core h c =
      { s.core h c with service := .retirePending, returns := (s.core h c).returns + 1 } := by
    rw [State.retirePending_core _ (by rw [State.core_serviced, hk]), State.core_serviced]
  refine ⟨hended, ?_, ?_, fun h' c' hne => ?_, fun off ho => ?_⟩
  · rw [hcores, hcore]
  · rw [hcores, hcore]
  · rw [hcores, State.retirePending, State.core_modCore_ne _ _ hne, State.core_serviced]
  · rw [hwords off ho, State.retirePending_word]
    exact (s.serviced_rewrites 0 h c).2 off (by simpa using ho)

/-- A core whose proof pick an order starts (R364), as the window and the core show it. -/
theorem State.returnCore_shows (s : State) {h c : Nat} (hh : h < 8) (hc : c < 66) :
    let t := ((s.serviced 2 h c).startProof h c).served
    serviceEnded t 0 0 ∧ (t.core h c).service = .proving ∧ t.cust.proofs = s.cust.proofs ++ [(h, c)] ∧
      t.get (CU_PROOF_STATUS.CORE h) = c ∧ t.get (CU_PROOF_STATUS.RESULT h) = 0 := by
  obtain ⟨hended, hcores, hcust, -, hwords⟩ := ((s.serviced 2 h c).startProof h c).served_shows
  obtain ⟨hservice, hproofs, hcore, hresult⟩ := (s.serviced 2 h c).startProof_shows (h := h) hc
  have hoff : ∀ h < 8, (CU_PROOF_STATUS.CORE h).off ≠ CU_SERVICE_CMD.GO.off := by decide
  have hword := hwords _ (hoff h hh)
  refine ⟨hended, ?_, ?_, ?_, ?_⟩
  · rw [hcores, hservice]
  · rw [hcust, hproofs, (s.serviced_rewrites 2 h c).1]
  · rw [State.get_of_word (f := CU_PROOF_STATUS.CORE h) hword, hcore]
  · rw [State.get_of_word (f := CU_PROOF_STATUS.RESULT h) hword, hresult]

/-- R366: a proof pick that passes, as the window shows it. -/
theorem State.judged_shows (s : State) (p : Nat × Nat) (h : Fin 8) (sig : BitVec 32) :
    let t := (s.signed h sig).judged p h 1
    rewrites { s with cust := { s.cust with proofs := s.cust.proofs.filter (· != p), joins := s.cust.joins ++ [coreKey p.1 p.2] } } t
        [(CU_PROOF_STATUS.RESULT h.val).off] ∧ t.get (CU_PROOF_STATUS.RESULT h.val) = 1 ∧
      t.get (CU_PROOF_STATUS.SIGNATURE h.val) = sig.toNat := by
  have hsig : sig.toNat % 2 ^ fldWidth (CU_PROOF_STATUS.SIGNATURE h.val) = sig.toNat := Nat.mod_eq_of_lt sig.isLt
  have hone : 1 % 2 ^ fldWidth (CU_PROOF_STATUS.RESULT h.val) = 1 := rfl
  have hoff : (CU_PROOF_STATUS.SIGNATURE h.val).off = (CU_PROOF_STATUS.RESULT h.val).off := rfl
  rw [State.judged_pass]
  refine ⟨⟨rfl, fun off ho => ?_⟩, ?_, ?_⟩
  · have hne : off ≠ (CU_PROOF_STATUS.RESULT h.val).off := by simpa using ho
    change ((s.signed h sig).set (CU_PROOF_STATUS.RESULT h.val) 1).word off = s.word off
    rw [State.word_set_ne _ _ _ _ hne]
    exact State.word_set_ne s _ _ _ (hoff ▸ hne)
  · change ((s.signed h sig).set (CU_PROOF_STATUS.RESULT h.val) 1).get (CU_PROOF_STATUS.RESULT h.val) = 1
    rw [State.get_set_self _ (CU_PROOF_STATUS.RESULT h.val) 1 (show 48 ≤ 55 + 1 by decide) (show 55 < 64 by decide), hone]
  · change ((s.signed h sig).set (CU_PROOF_STATUS.RESULT h.val) 1).get (CU_PROOF_STATUS.SIGNATURE h.val) = sig.toNat
    rw [State.get_set_apart _ (CU_PROOF_STATUS.RESULT h.val) (CU_PROOF_STATUS.SIGNATURE h.val) 1 (show 48 ≤ 55 + 1 by decide)
        (show 55 < 64 by decide) (.inr (.inl (show 31 < 48 by decide))),
      State.signed, State.get_set_self _ (CU_PROOF_STATUS.SIGNATURE h.val) _ (show 0 ≤ 31 + 1 by decide) (show 31 < 64 by decide), hsig]

theorem onlyRegs.core {s t : State} (ht : onlyRegs s t) (h c : Nat) : t.core h c = s.core h c := by
  rw [ht]; rfl

/-- R365: a proof pick that fails is recorded, and leaves its core retired. -/
theorem State.proofFailed_shows (s : State) {h : Nat} (hh : h < 8) (c : Nat) {result : Nat} (hr : result < 256) :
    let t := s.proofFailed h c result
    t.pending = s.pending ∧ t.fuses = s.fuses ∧ notesFault s t 0x10 11 ∧ (t.core h c).service = .retired ∧
      t.get (CU_PROOF_STATUS.RESULT h) = result := by
  obtain ⟨hpend, hfuse, hcore, hresult, hword⟩ := s.unproved_shows hh c hr
  have honly := onlyRegs_recordFault (s.unproved h c result)
    { cls := 0x10, source := 11, harness := h, core := c, detail := result }
  have hapart : ∀ h < 8, ((CU_PROOF_STATUS.RESULT h).off < 0x2000 ∨ 0x4000 ≤ (CU_PROOF_STATUS.RESULT h).off) ∧
      (CU_PROOF_STATUS.RESULT h).off ≠ CU_FAULT_PTR.HEAD.off ∧ (CU_PROOF_STATUS.RESULT h).off ≠ CU_FAULT_EVENTS.RECORDS.off ∧
      (CU_PROOF_STATUS.RESULT h).off ≠ CU_STATUS.RING_WRAPPED.off := by decide
  obtain ⟨hring, hhead, hrecords, hwrapped⟩ := hapart h hh
  rw [State.proofFailed_eq]
  refine ⟨honly.pending.trans hpend, honly.fuses.trans hfuse, ?_, ?_, ?_⟩
  · exact notesFault_of_word (hword _ (by decide)) (notesFault_recordFault _ _ (show 0x10 < 256 by decide) (show 11 < 16 by decide) (show 0 < 16 by decide))
  · rw [honly.core]; exact hcore
  · rw [State.get_recordFault_apart _ _ _ hring hhead hrecords hwrapped, hresult]

/-- A Tally entry that goes out (R361), as the writes and the buffer show it. -/
theorem exec_tallyEntryWrite_writes {s : State} {e : TallyEntry} {rest : List TallyEntry} (hs : s.powered = true)
    (hd : s.cust.draining = true) (hw : s.tiers.writes.any (·.source == 11) = false) (hr : s.tallyRoom = true)
    (ht : s.cust.tally = e :: rest) (hne : e.words ≠ []) :
    ∃ t, exec .tallyEntryWrite s = .next t ∧ t.cust.tally = rest ∧ t.cust.drainLeft = s.cust.drainLeft + 1 ∧
      t.tiers.writes = s.tiers.writes ++ [⟨s.get CU_TALLY_RING.BASE * 2 ^ 21 +
        32 * ((s.get CU_TALLY_PTR.HEAD + s.cust.drainLeft) % s.tallySize), e.words.flatMap (fun w => toLe 8 w.toNat), 11, none⟩] := by
  have hbytes : e.words.flatMap (fun w => toLe 8 w.toNat) ≠ [] := by
    obtain ⟨w, ws, hws⟩ := List.exists_cons_of_ne_nil hne
    rw [hws, List.flatMap_cons]
    exact fun h => absurd (List.append_eq_nil_iff.mp h).1 (List.cons_ne_nil _ _)
  obtain ⟨hframe, hwrites⟩ := State.queueWrite_shows
    { s with cust := { s.cust with tally := rest, drainLeft := s.cust.drainLeft + 1 } } 11
    (s.get CU_TALLY_RING.BASE * 2 ^ 21 + 32 * ((s.get CU_TALLY_PTR.HEAD + s.cust.drainLeft) % s.tallySize)) hbytes
  have hnext := State.tallyNext_writes hd hw hr ht
  refine ⟨_, exec_tallyEntryWrite hs (by rw [hnext, hframe]) (by rw [hnext, hframe]), ?_, ?_, ?_⟩
  · rw [hnext, hframe]
  · rw [hnext, hframe]
  · rw [hnext]; exact hwrites

theorem signature_apart : ∀ h : Fin 8, CU_FAULT_PTR.SEQ_NEXT.off ≠ (CU_PROOF_STATUS.SIGNATURE h.val).off := by decide

/-- Settles O55: service orders by their ends and their effects, then proof picks, the read pointer, the ring and the drain. -/
theorem serviceOrdersAndTheTallyRun : Obligations.ServiceOrdersAndTheTallyRun := by
  intro s h c rival v sig mk pr hb hst
  have hgate : ∀ off, s.writeGate off = .made := fun off => State.writeGate_up hb (by simp [hst]) (by simp [hst])
  have hpow : s.powered = true := State.powered_iff.mpr ⟨hb, by simp [hst], by simp [hst]⟩
  have hc : c.val ≤ 65 := by omega
  refine ⟨fun hfree => ⟨fun r hr cmd hcmd => ?_, fun cmd hcmd => ?_, fun hr hsame => ⟨fun hk => ?_, fun hk => ?_, fun hk => ?_,
    fun hk => ?_⟩, fun hin => ?_, fun hin hp ht hj hs hf hx => ?_⟩, fun p hp => ⟨fun hr => ?_, fun hr hph => ?_⟩,
    exec_proofPickEnd_none, ?_, fun hne => ?_, fun heq => ?_, ?_, fun hw => ?_, fun hd hw hr hl => ?_,
    fun e rest hd hw hr ht hne => exec_tallyEntryWrite_writes hpow hd hw hr ht hne⟩
  · rcases List.mem_pair.mp hcmd with rfl | rfl
    · exact exec_service_ends rfl (by decide) h.isLt hc (hgate _) hfree (by decide) (rivalCode_lt r) (State.serve_lost hr)
    · exact exec_service_ends rfl (by decide) h.isLt hc (hgate _) hfree (by decide) (rivalCode_lt r) (State.serve_lost hr)
  · rcases List.mem_pair.mp hcmd with rfl | rfl
    · exact exec_service_ends rfl (by decide) h.isLt hc (hgate _) hfree (by decide) (by decide) State.serve_same
    · exact exec_service_ends rfl (by decide) h.isLt hc (hgate _) hfree (by decide) (by decide) State.serve_same
  · exact ⟨_, exec_retireCore_active (hgate _) hfree hr hsame hk, s.retireCore_shows hk⟩
  · refine exec_service_ends rfl (by decide) h.isLt hc (hgate _) hfree (by decide) (by decide) ?_
    rw [State.serve_retireCore hr hsame, State.core_serviced, if_neg (by simpa using hk)]
  · refine exec_service_ends rfl (by decide) h.isLt hc (hgate _) hfree (lt_of_le_of_lt (s.returnRefusal_le _ _) (by decide))
      (by decide) ?_
    rw [State.serve_returnCore hr hsame, State.returnRefusal_serviced, if_neg hk]
  · exact ⟨_, exec_returnCore_starts (hgate _) hfree hr hsame hk, s.returnCore_shows h.isLt c.isLt⟩
  · refine exec_service_ends (c := 0) (rival := none) rfl (by decide) h.isLt (by decide) (hgate _) hfree (by decide) (by decide) ?_
    have hin' : (s.serviced 1 h.val 0).inService h.val = false := by rw [(s.serviced_rewrites 1 h.val 0).1]; exact hin
    rw [State.serve_retireHarness, hin', if_neg (by decide)]
  · obtain ⟨u, hexec, hharness, hslice⟩ := exec_retireHarness_quiet (hgate _) hfree hin hp ht hj hs hf hx
    obtain ⟨hended, -, hcust, hslices, -⟩ := u.served_shows
    exact ⟨_, hexec, hended, by rw [hcust, hharness], by rw [hslices, hslice]⟩
  · have hexec := exec_proofPickEnd_some (sig := sig) (mk := mk) (pr := pr) hpow hp
    obtain ⟨hwrites, hresult, hsig⟩ := s.judged_shows p h sig
    obtain ⟨hframe, -⟩ := id hwrites
    rw [hr, State.after_eq s _ (by rw [hframe]) (by rw [hframe])] at hexec
    exact ⟨_, hexec, hwrites, hresult, hsig⟩
  · have hexec := exec_proofPickEnd_some (sig := sig) (mk := mk) (pr := pr) hpow hp
    obtain ⟨hpend, hfuse, hnotes, hcore, hresult⟩ := (s.signed h sig).proofFailed_shows (h := p.1) (hph ▸ h.isLt) p.2
      (proofResult_lt sig mk pr)
    rw [State.judged_fail _ _ _ hr, State.after_eq s _ hpend hfuse] at hexec
    have hptr : (s.signed h sig).word CU_FAULT_PTR.SEQ_NEXT.off = s.word CU_FAULT_PTR.SEQ_NEXT.off :=
      State.word_set_ne s _ _ _ (signature_apart h)
    exact ⟨_, hexec, notesFault_of_word hptr hnotes, hcore, hph ▸ hresult⟩
  · have hhead := plainAcc_faultPtr CU_FAULT_PTR.HEAD (by simp)
    have hseq := plainAcc_faultPtr CU_FAULT_PTR.SEQ_NEXT (by simp)
    refine ⟨_, exec_faultTailWrite (hgate _), rewrites_written (rewrites_writeFields plainReg_faultPtr),
      State.get_writeFields_rw s v plainAcc_tail, ?_, ?_⟩
    · exact hhead.1 ▸ State.get_writeFields_ro s v hhead.2
    · exact hseq.1 ▸ State.get_writeFields_ro s v hseq.2
  · rw [exec_tallyRingWrite (hgate _), State.writeTallyRing, if_pos (by simpa using hne)]
  · have hwrite : s.writeTallyRing v = s.writeFields CU_TALLY_RING.VALID.off v := if_neg (by simpa using heq)
    refine ⟨_, exec_tallyRingWrite (hgate _), ?_, ?_⟩
    · rw [hwrite]; exact rewrites_written (rewrites_writeFields plainReg_tallyRing)
    · rw [hwrite]; exact State.get_writeFields_rw s v plainAcc_tallyBase
  · obtain ⟨hframe, hword⟩ := s.drainWritten_rewrites
    have hroom : s.drainWritten.tallyRoom = s.tallyRoom :=
      State.tallyRoom_of (by rw [hframe]) (by rw [hframe]) (hword _ (by decide)) (hword _ (by decide))
    have hleft : s.drainWritten.cust = s.cust := by rw [hframe]
    obtain ⟨hdrain, hmark, htally⟩ := State.startTallyDrain_shows s.drainWritten_drain
    have hdraining := s.drainWritten.startTallyDrain_draining
    rw [hroom, hleft] at hdrain hdraining
    exact ⟨_, exec_tallyDrain (hgate _), hdraining, hdrain, hmark.trans s.drainWritten_mark, htally.trans (by rw [hleft])⟩
  · have hsame := State.tallyNext_waits hw
    rw [exec_tallyEntryWrite hpow (by rw [hsame]) (by rw [hsame]), hsame]
  · have hstop := State.tallyNext_stops hd hw hr hl
    refine ⟨_, exec_tallyEntryWrite hpow (by rw [hstop]; rfl) (by rw [hstop]; rfl), ?_⟩
    rw [hstop]
    exact ⟨rfl, State.get_set_self s CU_TALLY_CTRL.DRAIN 0 (by decide) (by decide), rfl⟩

end Sys2Proof.Machine

/-! The regions and the pages, as a write of a register elsewhere leaves them, and what an access of bytes in Beam does
(family 02_loom_angle). -/

namespace Sys2Proof.Machine

/-! ## The words of the regions (R242) -/

theorem mapRange_mapIns {α : Type} (m : SMap α) {lo n i : Nat} (v : α) (hi : i < lo ∨ lo + n ≤ i) :
    mapRange (mapIns m i v) lo n = mapRange m lo n := by
  have hout : (decide (lo ≤ i) && decide (i < lo + n)) = false := by
    rcases hi with h | h
    · rw [decide_eq_false (by omega), Bool.false_and]
    · rw [decide_eq_false (p := i < lo + n) (by omega), Bool.and_false]
  unfold mapRange
  induction m with
  | nil => simp [mapIns, hout]
  | cons p m ih =>
    obtain ⟨k, w⟩ := p
    rw [mapIns]
    split
    · next hk => subst hk; simp [hout]
    · split
      · rw [List.filter_cons, if_neg (by simp [hout])]
      · rw [List.filter_cons, List.filter_cons, ih]

theorem mapRange_mapDel {α : Type} (m : SMap α) {lo n i : Nat} (hi : i < lo ∨ lo + n ≤ i) :
    mapRange (mapDel m i) lo n = mapRange m lo n := by
  unfold mapRange mapDel
  rw [List.filter_filter]
  refine List.filter_congr fun p _ => ?_
  by_cases hp : p.1 = i
  · subst hp
    rcases hi with h | h
    · simp; omega
    · simp; omega
  · simp [hp]

/-- A write at a key leaves the entries of a range without the key. -/
theorem mapRange_mapPut {α : Type} [DecidableEq α] (d : α) (m : SMap α) {lo n i : Nat} (v : α) (hi : i < lo ∨ lo + n ≤ i) :
    mapRange (mapPut d m i v) lo n = mapRange m lo n := by
  unfold mapPut
  split
  · exact mapRange_mapDel m hi
  · exact mapRange_mapIns m v hi

theorem mapFind_mapRange {α : Type} (m : SMap α) {lo n i : Nat} (hlo : lo ≤ i) (hhi : i < lo + n) :
    mapFind (mapRange m lo n) i = mapFind m i := by
  induction m with
  | nil => rfl
  | cons p m ih =>
    obtain ⟨k, w⟩ := p
    unfold mapRange at *
    rw [List.filter_cons]
    by_cases hk : i = k
    · subst hk
      rw [if_pos (by simp [hlo, hhi]), mapFind, mapFind, if_pos rfl, if_pos rfl]
    · split
      · rw [mapFind, mapFind, if_neg hk, if_neg hk, ih]
      · rw [mapFind, if_neg hk, ih]

/-- The listed words of TM_REGION. -/
def State.regionRegs (s : State) : SMap W64 := mapRange s.regs (TM_REGION.VALID 0).off 2048

/-- An offset outside TM_REGION. -/
def besideRegions (off : Nat) : Prop := off < (TM_REGION.VALID 0).off ∨ (TM_REGION.VALID 0).off + 2048 ≤ off

theorem State.word_of_regionRegs {s t : State} (h : t.regionRegs = s.regionRegs) {off : Nat} (hlo : (TM_REGION.VALID 0).off ≤ off)
    (hhi : off < (TM_REGION.VALID 0).off + 2048) : t.word off = s.word off := by
  have hfind : mapFind t.regs off = mapFind s.regs off := by
    rw [← mapFind_mapRange t.regs hlo hhi, ← mapFind_mapRange s.regs hlo hhi]
    exact congrArg (mapFind · off) h
  unfold State.word
  rw [hfind]

theorem regionBase (k : Nat) : (TM_REGION.VALID k).off = (TM_REGION.VALID 0).off + 32 * k := by
  simp only [TM_REGION.VALID]
  omega

theorem State.regionWords_of_regionRegs {s t : State} (h : t.regionRegs = s.regionRegs) {k : Nat} (hk : k < 64) :
    t.regionWords k = s.regionWords k := by
  have hword : ∀ i < 32, t.word ((TM_REGION.VALID k).off + i) = s.word ((TM_REGION.VALID k).off + i) := fun i hi => by
    rw [regionBase]
    generalize hb : (TM_REGION.VALID 0).off = b
    exact State.word_of_regionRegs h (by rw [hb]; omega) (by rw [hb]; omega)
  have hfirst := hword 0 (by decide)
  rw [Nat.add_zero] at hfirst
  simp only [State.regionWords, hfirst, hword 8 (by decide), hword 16 (by decide), hword 24 (by decide)]

/-- The regions are what the words of TM_REGION say. -/
theorem State.regions_of_regionRegs {s t : State} (h : t.regionRegs = s.regionRegs) : t.regions = s.regions := by
  have hlist : t.regions = ((mapRange s.regs (TM_REGION.VALID 0).off 2048).filter (fun p => p.1 % 32 == 0 && bitOf p.2.toNat 63)).map
      (fun p => t.regionWords ((p.1 - (TM_REGION.VALID 0).off) / 32)) := by
    unfold State.regionRegs at h
    unfold State.regions
    rw [h]
  rw [hlist]
  refine List.map_congr_left fun p hp => State.regionWords_of_regionRegs h ?_
  have hrange := (List.mem_filter.mp (List.mem_filter.mp hp).1).2
  simp only [Bool.and_eq_true, decide_eq_true_eq] at hrange
  obtain ⟨-, hhi⟩ := hrange
  generalize (TM_REGION.VALID 0).off = b at *
  omega

theorem State.regionRegs_setWord (s : State) {off : Nat} (v : W64) (h : besideRegions off) :
    (s.setWord off v).regionRegs = s.regionRegs := mapRange_mapPut _ _ _ h

theorem State.regionRegs_set (s : State) (f : Fld) (v : Nat) (h : besideRegions f.off) :
    (s.set f v).regionRegs = s.regionRegs := s.regionRegs_setWord _ h

theorem State.regionRegs_writeFields (s : State) {off : Nat} (v : W64) (h : besideRegions off) :
    (s.writeFields off v).regionRegs = s.regionRegs := by
  unfold State.writeFields
  split
  · rfl
  · exact s.regionRegs_setWord _ h

/-! ## States that show the same pages (R249) -/

/-- Two states show the same regions, pages and failed units. -/
def samePages (s t : State) : Prop :=
  t.regionRegs = s.regionRegs ∧ t.tiers.pages = s.tiers.pages ∧ t.word TM_STATUS.UNIT_FAILED.off = s.word TM_STATUS.UNIT_FAILED.off ∧
    t.word TM_BOARD_CTRL.PORTS.off = s.word TM_BOARD_CTRL.PORTS.off

section
variable {s t : State}

theorem samePages.page (h : samePages s t) (p : Nat) : t.page p = s.page p := by
  obtain ⟨-, hpages, -⟩ := h
  unfold State.page
  rw [hpages]

theorem samePages.regionOfPage (h : samePages s t) (p : Nat) : t.regionOfPage p = s.regionOfPage p := by
  unfold State.regionOfPage
  rw [State.regions_of_regionRegs h.1]

theorem samePages.tileState (h : samePages s t) (tile : Nat) : t.tileState tile = s.tileState tile := by
  unfold State.tileState
  rw [h.page]

theorem samePages.backFailed (h : samePages s t) (r : Region) : t.backFailed r = s.backFailed r := by
  obtain ⟨-, -, hfailed, hports⟩ := h
  have hunit : ∀ u, t.unitFailed u = s.unitFailed u := fun u => by
    unfold State.unitFailed
    rw [State.get_of_word hfailed]
  have hinter : t.interleaved = s.interleaved := by
    unfold State.interleaved State.ports
    rw [State.get_of_word hports]
  unfold State.backFailed
  simp only [hunit, hinter]

theorem samePages.pageFailed (h : samePages s t) (p : Nat) : t.pageFailed p = s.pageFailed p := by
  unfold State.pageFailed
  rw [h.page, h.regionOfPage]
  split
  · rw [h.backFailed]
  · rfl

/-- R249: bytes in Beam stay in Beam. -/
theorem samePages.inBeam (h : samePages s t) (hw : t.tiers.writes = s.tiers.writes) {a n : Nat} (hb : s.inBeam a n) : t.inBeam a n := by
  obtain ⟨hnone, htiles⟩ := hb
  refine ⟨hw.trans hnone, fun tile ht => ?_⟩
  rw [h.regionOfPage, h.page, h.pageFailed, h.tileState]
  exact htiles tile ht

end

theorem samePages_opened (s : State) : samePages s s.opened := ⟨rfl, rfl, rfl, rfl⟩

/-! ## An aligned word of the Loom range (R249) -/

section
variable {s : State} {a : Nat}

/-- An aligned word lies in one tile. -/
theorem tilesOf_word (ha : a % 8 = 0) : tilesOf a 8 = [a / tileBytes] := by
  have hlast : (a + 8 - 1) / tileBytes = a / tileBytes := by unfold tileBytes; omega
  unfold tilesOf
  rw [if_neg (by decide), hlast, Nat.sub_self]
  simp

theorem tile_page (a : Nat) : a / tileBytes / 64 = a / pageBytes := Nat.div_div_eq_div_mul a tileBytes 64

theorem State.settle_none (h : s.tiers.writes = []) (addr n : Nat) : s.settle addr n = s := by
  simp [State.settle, h]

/-- What holds of the tile of a word in Beam. -/
theorem State.inBeam_word (ha : a % 8 = 0) (h : s.inBeam a 8) :
    s.tiers.writes = [] ∧ (s.regionOfPage (a / pageBytes)).isSome = true ∧ (s.page (a / pageBytes)).st ≠ .lost ∧
      s.pageFailed (a / pageBytes) = false ∧ s.tileState (a / tileBytes) = .valid := by
  obtain ⟨hw, htiles⟩ := h
  have htile := htiles (a / tileBytes) (by rw [tilesOf_word ha]; exact List.mem_singleton_self _)
  rw [tile_page] at htile
  exact ⟨hw, htile⟩

/-- R249: a word in Beam is read at once, and its page is used. -/
theorem State.loomRead_word (ha : a % 8 = 0) (h : s.inBeam a 8) (source : Nat) :
    s.loomRead source a 8 = (s.touchPage (a / pageBytes), some (getRun s.tiers.beam a 8)) := by
  obtain ⟨hw, hregion, hlost, hfailed, hvalid⟩ := State.inBeam_word ha h
  obtain ⟨r, hr⟩ := Option.isSome_iff_exists.mp hregion
  have hreach : s.reachTile (a / tileBytes) source = (s.touchPage (a / pageBytes), true) := by
    unfold State.reachTile
    simp [tile_page, hr, hlost, hfailed, hvalid]
  unfold State.loomRead
  simp only [State.settle_none hw, tilesOf_word ha, List.foldl_cons, List.foldl_nil, hreach, Bool.and_self, if_true]
  rfl

theorem State.loomReadOpen_word (ha : a % 8 = 0) (h : s.inBeam a 8) (source : Nat) :
    s.loomReadOpen source a 8 = (s.touchPage (a / pageBytes), getRun s.tiers.beam a 8) := by
  unfold State.loomReadOpen
  rw [State.loomRead_word ha h]

end

/-! ## Watched accesses (R418) -/

/-- A state that differs in its register window and in the Treadle's part at most. -/
def onlyWatch (s t : State) : Prop := t = { s with regs := t.regs, dbg := t.dbg }

theorem onlyRegs.watch {s t : State} (h : onlyRegs s t) : onlyWatch s t := by
  unfold onlyRegs at h
  unfold onlyWatch
  rw [h]

theorem onlyWatch_trans {s t u : State} (a : onlyWatch s t) (b : onlyWatch t u) : onlyWatch s u := by
  unfold onlyWatch at *
  rw [b, a]

theorem onlyWatch_orderHalt (s : State) (r : HaltReq) : onlyWatch s (s.orderHalt r) := by
  unfold State.orderHalt
  split <;> rfl

theorem onlyWatch_xtrigPulse (s : State) : onlyWatch s s.xtrigPulse := by
  unfold State.xtrigPulse
  split <;> rfl

theorem onlyWatch_foldl {α : Type} (f : State → α → State) (hf : ∀ s a, onlyWatch s (f s a)) (l : List α) (s : State) :
    onlyWatch s (l.foldl f s) := by
  induction l generalizing s with
  | nil => rfl
  | cons a l ih => exact onlyWatch_trans (hf s a) (ih (f s a))

theorem onlyWatch_ite {s t : State} (c : Bool) (h : onlyWatch s t) : onlyWatch s (if c then t else s) := by
  cases c
  · rfl
  · exact h

/-- R417, R418: a hit counts, and may halt. -/
theorem onlyWatch_debugHit (s : State) (code index ctrl : Nat) (loc : Option Nat) : onlyWatch s (s.debugHit code index ctrl loc) := by
  have hlast : ∀ u : State, onlyWatch u { u with dbg := { u.dbg with lastHit := code, lastIndex := index } } := fun _ => rfl
  have hbefore := onlyWatch_trans (onlyWatch_trans (onlyWatch_trans (onlyRegs_bump s ⟨ctrl, 31, 0⟩ 1).watch (hlast _))
    (onlyWatch_ite (bitOf ((s.bump ⟨ctrl, 31, 0⟩).word ctrl).toNat 57) (onlyRegs_set _ ⟨ctrl, 63, 63⟩ 0).watch))
    (onlyWatch_ite (bitOf ((s.bump ⟨ctrl, 31, 0⟩).word ctrl).toNat 58) (onlyWatch_xtrigPulse _))
  unfold State.debugHit
  dsimp only
  split
  · exact onlyWatch_trans hbefore (onlyWatch_orderHalt _ _)
  · exact onlyWatch_trans hbefore (onlyWatch_orderHalt _ _)
  · exact onlyWatch_trans hbefore (onlyWatch_orderHalt _ _)
  · exact hbefore

/-- R418: the log of the watchpoints, and their hits. -/
theorem onlyWatch_watchAccess (s : State) (write : Bool) (source : Nat) (loc : Option Nat) (lo n : Nat) (bytes : List Byte) :
    onlyWatch s (s.watchAccess write source loc lo n bytes) := by
  unfold State.watchAccess
  split
  · rfl
  · refine onlyWatch_foldl _ (fun u j => ?_) _ s
    dsimp only
    split
    · rfl
    · next a _ =>
      refine onlyWatch_trans ?_ (onlyWatch_debugHit _ _ _ _ _)
      split
      · rfl
      · exact onlyWatch_trans (onlyWatch_trans (onlyWatch_trans (onlyWatch_trans (onlyRegs_set u _ 1).watch (onlyRegs_set _ _ _).watch)
          (onlyRegs_set _ _ _).watch) (onlyRegs_set _ _ _).watch) (onlyRegs_set _ _ _).watch

end Sys2Proof.Machine

/-! Page orders that lose, single accesses and RETURN_UNIT (family 02_loom_angle); the statement O45. -/

namespace Sys2Proof.Machine

/-! ## A write of an aligned word in Beam (R265) -/

/-- Bytes have landed at an address: Beam takes them, and no tile and no frame is asked for. -/
def landed (s t : State) (addr : Nat) (bytes : List Byte) : Prop :=
  t.pending = s.pending ∧ t.fuses = s.fuses ∧ t.tiers.beam = putRun s.tiers.beam addr bytes ∧ t.tiers.wanted = s.tiers.wanted ∧
    t.tiers.starved = s.tiers.starved

theorem landed.watch {s t u : State} {addr : Nat} {bytes : List Byte} (h : landed s t addr bytes) (hu : onlyWatch t u) :
    landed s u addr bytes := by
  unfold onlyWatch at hu
  rw [hu]
  exact h

theorem State.keepFree_none {s : State} (h : s.get TM_CTRL.FREE_TARGET = 0) : s.keepFree = s := by
  unfold State.keepFree
  dsimp only
  rw [h, Nat.zero_sub]
  rfl

theorem splitTiles_word {a : Nat} {bytes : List Byte} (ha : a % 8 = 0) (hlen : bytes.length = 8) : splitTiles a bytes = [(a, bytes)] := by
  have hlo : max a (a / tileBytes * tileBytes) = a := max_eq_left (Nat.div_mul_le_self a tileBytes)
  have hroom : bytes.length ≤ (a / tileBytes + 1) * tileBytes - a := by rw [hlen]; unfold tileBytes; omega
  unfold splitTiles
  rw [hlen, tilesOf_word ha]
  simp only [List.map_cons, List.map_nil, hlo, Nat.sub_self, List.drop_zero, List.take_of_length_le hroom]

section
variable {s : State} {a : Nat} {r : Region} {bytes : List Byte}

theorem State.held_of_valid {tile : Nat} (h : s.tileState tile = .valid) : (s.page (tile / 64)).st.held = true := by
  unfold State.tileState at h
  by_contra hheld
  simp [hheld] at h

theorem State.landInTile_word (ha : a % 8 = 0) (hb : s.inBeam a 8) (hfree : s.get TM_CTRL.FREE_TARGET = 0)
    (hr : s.regionOfPage (a / pageBytes) = some r) (hwb : r.wb = true) (hlen : bytes.length = 8) (source : Nat) (loc : Option Nat) :
    (s.landInTile source loc a bytes).2 = true ∧ landed s (s.landInTile source loc a bytes).1 a bytes := by
  obtain ⟨-, -, hlost, hfailed, hvalid⟩ := State.inBeam_word ha hb
  have hheld := State.held_of_valid hvalid
  rw [tile_page] at hheld
  have hpart : (bytes.length == tileBytes) = false := by rw [hlen]; rfl
  have hfetching : (TileSt.valid == TileSt.fetching) = false := rfl
  have hinvalid : (TileSt.valid == TileSt.invalid) = false := rfl
  unfold State.landInTile
  simp only [tile_page, hr, hwb, hfailed, hheld, hvalid, hpart, hfetching, hinvalid, beq_eq_false_iff_ne.mpr hlost, Bool.not_true,
    Bool.false_and, if_true, Bool.false_eq_true, if_false, Bool.or_false]
  rw [State.keepFree_none (by exact hfree)]
  refine ⟨trivial, landed.watch ?_ (onlyWatch_watchAccess _ _ _ _ _ _ _)⟩
  exact ⟨rfl, rfl, rfl, rfl, rfl⟩

/-- R265: a word is written in place where its tile is in Beam. -/
theorem State.loomPutWord_word (ha : a % 8 = 0) (hb : s.inBeam a 8) (hfree : s.get TM_CTRL.FREE_TARGET = 0)
    (hr : s.regionOfPage (a / pageBytes) = some r) (hwb : r.wb = true) (source : Nat) (w : W64) :
    landed s (s.loomPutWord source a w) a (wordBytes w) := by
  obtain ⟨htaken, hlands⟩ := State.landInTile_word (bytes := wordBytes w) ha hb hfree hr hwb rfl source none
  unfold State.loomPutWord State.loomWrite State.landOrNote State.landBytes
  dsimp only
  rw [State.settle_none hb.1, splitTiles_word ha rfl]
  simp only [List.foldl_cons, List.foldl_nil, htaken, Bool.and_self, if_true]
  exact hlands

end

/-! ## Single accesses (R249) -/

/-- R249: the state after an attempt that took effect. -/
def State.tried (s : State) : State := { s with tiers := { s.tiers with trying := false } }

/-- R249: an operation that asks for no tile and no frame takes effect. -/
theorem State.attempt_taken {s : State} {op : State → State} (ht : s.tiers.trying = false) (hw : (op s.opened).tiers.wanted = [])
    (hs : (op s.opened).tiers.starved = false) :
    s.attempt op = ((op s.opened).tried, true) := by
  unfold State.opened at *
  simp [State.attempt, State.tried, ht, hw, hs]

section
variable {s : State} {a : Nat}

theorem State.inBeam_opened (hb : s.inBeam a 8) : s.opened.inBeam a 8 := (samePages_opened s).inBeam rfl hb

/-- READ64 of a word in Beam. -/
theorem State.read64_word (ha : a % 8 = 0) (hb : s.inBeam a 8) (ht : s.tiers.trying = false) :
    ∃ t, s.read64 a = .go t ∧ t.pending = s.pending ∧ t.fuses = s.fuses ∧ t.tiers.beam = s.tiers.beam ∧
      t.word TM_PAGE_ARG.ARG.off = BitVec.ofNat 64 (leNat (getRun s.tiers.beam a 8)) := by
  have hregion : (s.regionOfPage (a / pageBytes)).isNone = false := by
    rw [← Option.not_isSome, (State.inBeam_word ha hb).2.1]
    rfl
  have hread := State.loomReadOpen_word ha (State.inBeam_opened hb) 7
  unfold State.read64
  rw [hregion, State.attempt_taken ht (by rw [hread]; rfl) (by rw [hread]; rfl), hread]
  exact ⟨_, rfl, rfl, rfl, rfl, State.word_setWord_self _ _ _⟩

/-- WRITE64 of a word in Beam, where its region is writable and no frame need be freed. -/
theorem State.write64_word {r : Region} (ha : a % 8 = 0) (hb : s.inBeam a 8) (ht : s.tiers.trying = false)
    (hfree : s.get TM_CTRL.FREE_TARGET = 0) (hr : s.regionOfPage (a / pageBytes) = some r) (hwb : r.wb = true) (w : W64) :
    ∃ t, s.write64 a w = .go t ∧ t.pending = s.pending ∧ t.fuses = s.fuses ∧ t.tiers.beam = putRun s.tiers.beam a (wordBytes w) := by
  have hopen : s.opened.regionOfPage (a / pageBytes) = some r := ((samePages_opened s).regionOfPage _).trans hr
  obtain ⟨hpending, hfuses, hbeam, hwanted, hstarved⟩ :=
    State.loomPutWord_word ha (State.inBeam_opened hb) (by exact hfree) hopen hwb 7 w
  have htry := State.attempt_taken (op := fun s => s.loomPutWord 7 a w) ht hwanted hstarved
  refine ⟨(s.opened.loomPutWord 7 a w).tried, ?_, hpending, hfuses, hbeam⟩
  unfold State.write64
  rw [hr]
  dsimp only
  rw [hwb, htry]
  rfl

theorem onlyRegs_tierLog (s : State) (kind unit addr : Nat) : onlyRegs s (s.tierLog kind unit addr) := by
  unfold State.tierLog
  split
  · rfl
  · exact onlyRegs_trans (onlyRegs_trans (onlyRegs_trans (onlyRegs_set _ _ _) (onlyRegs_set _ _ _)) (onlyRegs_set _ _ _))
      (onlyRegs_set _ _ _)

theorem onlyRegs_unmapped (s : State) (addr : Nat) : onlyRegs s (s.unmapped addr) :=
  onlyRegs_trans (onlyRegs_set _ _ _) (onlyRegs_tierLog _ _ _ _)

/-! ## Page commands that complete at once (R258) -/

/-- A page command completes with a code that counts no refused pin. -/
theorem State.pageDone_shows (s : State) {code : Nat} (hpin : code ≠ 1) (hc : code < 256) :
    let t := s.pageDone code
    rewrites { s with tiers := { s.tiers with cmd := none } } t [TM_PAGE_CMD.GO.off] ∧ t.get TM_PAGE_CMD.STATUS = code ∧
      t.get TM_PAGE_CMD.BUSY = 0 := by
  have hcode : code % 2 ^ fldWidth TM_PAGE_CMD.STATUS = code := Nat.mod_eq_of_lt hc
  have hzero : 0 % 2 ^ fldWidth TM_PAGE_CMD.BUSY = 0 := rfl
  have hdone : s.pageDone code = ({ s with tiers := { s.tiers with cmd := none } } : State).complete TM_PAGE_CMD.GO TM_PAGE_CMD.BUSY
      TM_PAGE_CMD.STATUS code := by
    unfold State.pageDone
    dsimp only
    rw [if_neg (by simpa using hpin)]
  dsimp only
  rw [hdone]
  refine ⟨(((rewrites_refl _ _).set _ _ (by decide)).set _ _ (by decide)).set _ _ (by decide), ?_⟩
  simp (disch := decide) only [State.complete, State.get_set_self, State.get_set_apart, hcode, hzero, and_self]

/-- What a completed page command shows, and what it leaves. -/
def pageEnded (u t : State) (code : Nat) : Prop :=
  t.get TM_PAGE_CMD.STATUS = code ∧ t.get TM_PAGE_CMD.BUSY = 0 ∧ t.tiers.beam = u.tiers.beam ∧
    ∀ off ≠ TM_PAGE_CMD.GO.off, t.word off = u.word off

theorem pageEnded_of {u t : State} {code : Nat}
    (h : rewrites { u with tiers := { u.tiers with cmd := none } } t [TM_PAGE_CMD.GO.off] ∧ t.get TM_PAGE_CMD.STATUS = code ∧
      t.get TM_PAGE_CMD.BUSY = 0) : pageEnded u { t with resp := .written } code := by
  obtain ⟨⟨hframe, hword⟩, hstatus, hbusy⟩ := h
  refine ⟨hstatus, hbusy, ?_, fun off ho => hword off (by simpa using ho)⟩
  rw [hframe]

theorem pageEnded_pageDone (u : State) {code : Nat} (hpin : code ≠ 1) (hc : code < 256) :
    pageEnded u { u.pageDone code with resp := .written } code := pageEnded_of (u.pageDone_shows hpin hc)

theorem State.pageDone_frame (u : State) {code : Nat} (hpin : code ≠ 1) (hc : code < 256) :
    (u.pageDone code).pending = u.pending ∧ (u.pageDone code).fuses = u.fuses := by
  obtain ⟨⟨hframe, -⟩, -⟩ := u.pageDone_shows hpin hc
  rw [hframe]
  exact ⟨rfl, rfl⟩

end

theorem plainReg_pageCmd : plainReg TM_PAGE_CMD.GO.off = true := by decide +kernel
theorem plainAcc_pageOp : plainAcc TM_PAGE_CMD.OP = some .rw := by decide +kernel

/-- The state in which a single page operation is taken: its word is written, and its unit busy. -/
def State.pagePosted (s : State) (op : Nat) : State :=
  ((s.writeFields TM_PAGE_CMD.GO.off (pageWord op 0)).set TM_PAGE_CMD.BUSY 1).set TM_PAGE_CMD.WINNER 0

theorem State.pagePosted_rewrites (s : State) (op : Nat) : rewrites s (s.pagePosted op) [TM_PAGE_CMD.GO.off] :=
  ((rewrites_writeFields plainReg_pageCmd).set _ _ (by decide)).set _ _ (by decide)

theorem State.pagePosted_word (s : State) (op : Nat) {off : Nat} (ho : off ≠ TM_PAGE_CMD.GO.off) :
    (s.pagePosted op).word off = s.word off := (s.pagePosted_rewrites op).2 off (by simpa using ho)

theorem State.pagePosted_tiers (s : State) (op : Nat) : (s.pagePosted op).tiers = s.tiers := by
  rw [(s.pagePosted_rewrites op).1]

theorem State.pagePosted_samePages (s : State) (op : Nat) : samePages s (s.pagePosted op) := by
  have hbeside : besideRegions TM_PAGE_CMD.GO.off := .inl (by decide)
  refine ⟨?_, by rw [s.pagePosted_tiers], s.pagePosted_word op (by decide), s.pagePosted_word op (by decide)⟩
  unfold State.pagePosted
  rw [State.regionRegs_set _ TM_PAGE_CMD.WINNER _ hbeside, State.regionRegs_set _ TM_PAGE_CMD.BUSY _ hbeside,
    State.regionRegs_writeFields _ _ hbeside]

section
variable {s : State} {op : Nat}

/-- R258: GO of a page command at a free unit. -/
theorem State.writePageCmd_free (hop : op < 16) (h : s.flag TM_PAGE_CMD.BUSY = false) :
    s.writePageCmd (pageWord op 0) = (s.writeFields TM_PAGE_CMD.GO.off (pageWord op 0)).takePage := by
  have hgo : ∀ op < 16, bitOf (pageWord op 0).toNat TM_PAGE_CMD.GO.lo = true := by decide
  simp [State.writePageCmd, State.issue, hgo op hop, h]

theorem pageWord_op : ∀ op < 16, bitsOf (pageWord op 0).toNat TM_PAGE_CMD.OP.hi TM_PAGE_CMD.OP.lo = op := by decide

theorem State.postedOp (s : State) (hop : op < 16) :
    (s.writeFields TM_PAGE_CMD.GO.off (pageWord op 0)).get TM_PAGE_CMD.OP = op :=
  (State.get_writeFields_rw s _ plainAcc_pageOp).trans (pageWord_op op hop)

theorem State.takePage_returnUnit (s : State) :
    (s.writeFields TM_PAGE_CMD.GO.off (pageWord 11 0)).takePage = (s.pagePosted 11).returnUnitCmd := by
  unfold State.takePage
  rw [s.postedOp (by decide)]
  rfl

/-- The page command of a single access. -/
def wordCmd (s : State) (op : Nat) : PageCmd :=
  { op := op, page := s.get TM_PAGE_ADDR.ADDR / 8 * 8, left := 1, arg := s.get TM_PAGE_ARG.ARG }

theorem State.takePage_word (s : State) (hop : op = 8 ∨ op = 9) :
    (s.writeFields TM_PAGE_CMD.GO.off (pageWord op 0)).takePage = State.runPageCmd 2 (s.pagePosted op) (wordCmd s op) := by
  have haddr : (s.pagePosted op).get TM_PAGE_ADDR.ADDR = s.get TM_PAGE_ADDR.ADDR := State.get_of_word (s.pagePosted_word op (by decide))
  have harg : (s.pagePosted op).get TM_PAGE_ARG.ARG = s.get TM_PAGE_ARG.ARG := State.get_of_word (s.pagePosted_word op (by decide))
  unfold State.takePage
  rw [s.postedOp (by omega)]
  unfold wordCmd
  rw [← haddr, ← harg]
  unfold State.pagePosted
  obtain rfl | rfl := hop
  · rfl
  · rfl

/-- A single access that is made completes with OK. -/
theorem State.runPageCmd_go {u t : State} {c : PageCmd} (hleft : c.left = 1) (hbegun : c.begun = false) (hop : c.op ≠ 0)
    (h : u.pageStep c = .go t) : State.runPageCmd 2 u c = t.pageDone 0 := by
  simp [State.runPageCmd, hleft, hbegun, h, hop]

theorem State.runPageCmd_stop {u t : State} {c : PageCmd} {code : Nat} (hleft : c.left = 1) (hbegun : c.begun = false)
    (h : u.pageStep c = .stop t code) : State.runPageCmd 2 u c = t.pageDone code := by
  simp [State.runPageCmd, hleft, hbegun, h]

/-- A single page operation that completes at once. -/
theorem exec_pageSingle {cmd : Instr} {u : State} {code : Nat}
    (hcmd : exec cmd s = .next (s.after (s.atPort TM_PAGE_CMD.GO.off (fun s => s.writePageCmd (pageWord op 0)))))
    (hg : s.writeGate TM_PAGE_CMD.GO.off = .made) (hb : s.flag TM_PAGE_CMD.BUSY = false) (hop : op < 16)
    (htake : (s.writeFields TM_PAGE_CMD.GO.off (pageWord op 0)).takePage = u.pageDone code) (hpin : code ≠ 1) (hc : code < 256)
    (hp : u.pending = (s.pagePosted op).pending) (hf : u.fuses = (s.pagePosted op).fuses) :
    ∃ t, exec cmd s = .next t ∧ pageEnded u t code := by
  obtain ⟨hpending, hfuses⟩ := u.pageDone_frame hpin hc
  obtain ⟨hposted, -⟩ := s.pagePosted_rewrites op
  have hwrite : s.writePageCmd (pageWord op 0) = u.pageDone code := by rw [State.writePageCmd_free hop hb, htake]
  refine ⟨{ u.pageDone code with resp := .written }, ?_, pageEnded_pageDone u hpin hc⟩
  rw [hcmd, State.after_port_eq hg hwrite (by rw [hpending, hp, hposted]) (by rw [hfuses, hf, hposted])]

end

/-! ## READ64 and WRITE64 (R249) -/

section
variable {s : State}

/-- The address of a single access. -/
def State.wordAddr (s : State) : Nat := s.get TM_PAGE_ADDR.ADDR / 8 * 8

theorem State.wordAddr_aligned (s : State) : s.wordAddr % 8 = 0 := Nat.mul_mod_left _ 8

theorem exec_read64 (hg : s.writeGate TM_PAGE_CMD.GO.off = .made) (hb : s.flag TM_PAGE_CMD.BUSY = false)
    (ht : s.tiers.trying = false) (hin : s.inBeam s.wordAddr 8) : ∃ t, exec .read64 s = .next t ∧
      t.get TM_PAGE_CMD.STATUS = 0 ∧ t.get TM_PAGE_CMD.BUSY = 0 ∧
      t.word TM_PAGE_ARG.ARG.off = BitVec.ofNat 64 (leNat (getRun s.tiers.beam s.wordAddr 8)) ∧ t.tiers.beam = s.tiers.beam := by
  have htiers := s.pagePosted_tiers 8
  obtain ⟨u, hread, hpending, hfuses, hbeam, harg⟩ := State.read64_word s.wordAddr_aligned
    ((s.pagePosted_samePages 8).inBeam (by rw [htiers]) hin) (by rw [htiers, ht])
  have hrun : State.runPageCmd 2 (s.pagePosted 8) (wordCmd s 8) = u.pageDone 0 :=
    State.runPageCmd_go rfl rfl (show 8 ≠ 0 by decide) hread
  obtain ⟨t, hexec, hstatus, hbusy, htbeam, hword⟩ := exec_pageSingle (cmd := .read64) rfl hg hb (by decide)
    ((State.takePage_word s (.inl rfl)).trans hrun) (by decide) (by decide) hpending hfuses
  rw [htiers] at hbeam harg
  exact ⟨t, hexec, hstatus, hbusy, (hword _ (by decide)).trans harg, htbeam.trans hbeam⟩

theorem State.pageArg_word (s : State) : BitVec.ofNat 64 (s.get TM_PAGE_ARG.ARG) = s.word TM_PAGE_ARG.ARG.off := by
  have harg : s.get TM_PAGE_ARG.ARG = (s.word TM_PAGE_ARG.ARG.off).toNat := by
    have hwhole : s.get TM_PAGE_ARG.ARG = (s.word TM_PAGE_ARG.ARG.off).toNat / 2 ^ 0 % 2 ^ 64 := rfl
    rw [hwhole, pow_zero, Nat.div_one, Nat.mod_eq_of_lt (BitVec.isLt _)]
  rw [harg, BitVec.ofNat_toNat, BitVec.setWidth_eq]

theorem exec_write64 {r : Region} (hg : s.writeGate TM_PAGE_CMD.GO.off = .made) (hb : s.flag TM_PAGE_CMD.BUSY = false)
    (ht : s.tiers.trying = false) (hin : s.inBeam s.wordAddr 8) (hfree : s.get TM_CTRL.FREE_TARGET = 0)
    (hr : s.regionOfPage (s.wordAddr / pageBytes) = some r) (hwb : r.wb = true) : ∃ t, exec .write64 s = .next t ∧
      t.get TM_PAGE_CMD.STATUS = 0 ∧ t.get TM_PAGE_CMD.BUSY = 0 ∧
      t.tiers.beam = putRun s.tiers.beam s.wordAddr (wordBytes (s.word TM_PAGE_ARG.ARG.off)) := by
  have htiers := s.pagePosted_tiers 9
  have hsame := s.pagePosted_samePages 9
  have hfree' : (s.pagePosted 9).get TM_CTRL.FREE_TARGET = 0 := (State.get_of_word (s.pagePosted_word 9 (by decide))).trans hfree
  obtain ⟨u, hwrite, hpending, hfuses, hbeam⟩ := State.write64_word s.wordAddr_aligned (hsame.inBeam (by rw [htiers]) hin)
    (by rw [htiers, ht]) hfree' ((hsame.regionOfPage _).trans hr) hwb (BitVec.ofNat 64 (s.get TM_PAGE_ARG.ARG))
  have hrun : State.runPageCmd 2 (s.pagePosted 9) (wordCmd s 9) = u.pageDone 0 :=
    State.runPageCmd_go rfl rfl (show 9 ≠ 0 by decide) hwrite
  obtain ⟨t, hexec, hstatus, hbusy, htbeam, -⟩ := exec_pageSingle (cmd := .write64) rfl hg hb (by decide)
    ((State.takePage_word s (.inr rfl)).trans hrun) (by decide) (by decide) hpending hfuses
  rw [htiers, s.pageArg_word] at hbeam
  exact ⟨t, hexec, hstatus, hbusy, htbeam.trans hbeam⟩

/-- R244, R249: a single access outside every region. -/
theorem exec_access_unmapped (hg : s.writeGate TM_PAGE_CMD.GO.off = .made) (hb : s.flag TM_PAGE_CMD.BUSY = false)
    (hnone : s.regionOfPage (s.wordAddr / pageBytes) = none) : ∀ c ∈ [Instr.read64, .write64], ∃ t, exec c s = .next t ∧
      t.get TM_PAGE_CMD.STATUS = 2 ∧ t.get TM_PAGE_CMD.BUSY = 0 ∧ t.tiers.beam = s.tiers.beam := by
  have hends : ∀ (op : Nat) (c : Instr), op = 8 ∨ op = 9 →
      exec c s = .next (s.after (s.atPort TM_PAGE_CMD.GO.off (fun s => s.writePageCmd (pageWord op 0)))) →
      (s.pagePosted op).pageStep (wordCmd s op) = .stop ((s.pagePosted op).unmapped s.wordAddr) 2 → ∃ t, exec c s = .next t ∧
        t.get TM_PAGE_CMD.STATUS = 2 ∧ t.get TM_PAGE_CMD.BUSY = 0 ∧ t.tiers.beam = s.tiers.beam := fun op c hop hcmd hstep => by
    have hregs := onlyRegs_unmapped (s.pagePosted op) s.wordAddr
    have htiers : ((s.pagePosted op).unmapped s.wordAddr).tiers = s.tiers := by rw [hregs, ← s.pagePosted_tiers op]
    obtain ⟨t, hexec, hstatus, hbusy, hbeam, -⟩ := exec_pageSingle hcmd hg hb (by omega)
      ((State.takePage_word s hop).trans (State.runPageCmd_stop rfl rfl hstep)) (by decide) (by decide) hregs.pending hregs.fuses
    exact ⟨t, hexec, hstatus, hbusy, hbeam.trans (by rw [htiers])⟩
  have hpage : ∀ op, (s.pagePosted op).regionOfPage (s.wordAddr / pageBytes) = none := fun op =>
    ((s.pagePosted_samePages op).regionOfPage _).trans hnone
  intro c hc
  rw [List.mem_cons, List.mem_singleton] at hc
  obtain rfl | rfl := hc
  · have hstep : (s.pagePosted 8).read64 s.wordAddr = .stop ((s.pagePosted 8).unmapped s.wordAddr) 2 := by
      unfold State.read64
      rw [hpage]
      rfl
    exact hends 8 _ (.inl rfl) rfl hstep
  · have hstep : (s.pagePosted 9).write64 s.wordAddr (BitVec.ofNat 64 (s.get TM_PAGE_ARG.ARG)) =
        .stop ((s.pagePosted 9).unmapped s.wordAddr) 2 := by
      unfold State.write64
      rw [hpage]
    exact hends 9 _ (.inr rfl) rfl hstep

end

/-! ## RETURN_UNIT (R279) -/

/-- A bit that is set, taken away: the others stay. -/
theorem bitOf_sub_pow {v x : Nat} (h : bitOf v x = true) : bitOf (v - 2 ^ x) x = false ∧ ∀ y, y ≠ x → bitOf (v - 2 ^ x) y = bitOf v y := by
  have hodd : v / 2 ^ x % 2 = 1 := by simpa [bitOf] using h
  have hle : 2 ^ x ≤ v := by
    by_contra hlt
    rw [Nat.div_eq_of_lt (by omega)] at hodd
    cases hodd
  have hquot : (v - 2 ^ x) / 2 ^ x = v / 2 ^ x - 1 := by
    have hsub := Nat.sub_mul_div v (2 ^ x) 1
    rwa [Nat.mul_one] at hsub
  have hhalf : (v - 2 ^ x) / 2 ^ (x + 1) = v / 2 ^ (x + 1) := by
    rw [pow_succ, ← Nat.div_div_eq_div_mul, ← Nat.div_div_eq_div_mul, hquot]
    generalize v / 2 ^ x = q at hodd ⊢
    omega
  refine ⟨?_, fun y hy => ?_⟩
  · unfold bitOf
    rw [hquot, beq_eq_false_iff_ne]
    generalize v / 2 ^ x = q at hodd ⊢
    omega
  · obtain hlow | hhigh := Nat.lt_or_gt_of_ne hy
    · have hbits := Nat.testBit_two_pow_add_gt hlow (v - 2 ^ x)
      rw [Nat.add_sub_cancel' hle, Nat.testBit_eq_decide_div_mod_eq, Nat.testBit_eq_decide_div_mod_eq] at hbits
      simpa [bitOf, beq_eq_decide] using hbits.symm
    · obtain ⟨d, rfl⟩ := Nat.exists_eq_add_of_lt hhigh
      have hpow : 2 ^ (x + d + 1) = 2 ^ (x + 1) * 2 ^ d := by rw [← pow_add]; congr 1; omega
      unfold bitOf
      rw [hpow, ← Nat.div_div_eq_div_mul, ← Nat.div_div_eq_div_mul, hhalf]

section
variable {s : State}

theorem State.pagePosted_phase (s : State) (op : Nat) : (s.pagePosted op).phase = s.phase :=
  State.get_of_word (s.pagePosted_word op (by decide))

theorem State.pagePosted_arg (s : State) (op : Nat) : (s.pagePosted op).get TM_PAGE_ARG.ARG = s.get TM_PAGE_ARG.ARG :=
  State.get_of_word (s.pagePosted_word op (by decide))

theorem State.pagePosted_unitFailed (s : State) (op : Nat) :
    (s.pagePosted op).get TM_STATUS.UNIT_FAILED = s.get TM_STATUS.UNIT_FAILED :=
  State.get_of_word (s.pagePosted_word op (by decide))

/-- A RETURN_UNIT that completes with a code, in the state it leaves. -/
theorem exec_returnUnit {u : State} {code : Nat} (hg : s.writeGate TM_PAGE_CMD.GO.off = .made)
    (hb : s.flag TM_PAGE_CMD.BUSY = false) (hret : (s.pagePosted 11).returnUnitCmd = u.pageDone code) (hpin : code ≠ 1) (hc : code < 256)
    (hu : onlyRegs (s.pagePosted 11) u) : ∃ t, exec .returnUnit s = .next t ∧ t.get TM_PAGE_CMD.STATUS = code ∧
      t.get TM_STATUS.UNIT_FAILED = u.get TM_STATUS.UNIT_FAILED := by
  obtain ⟨t, hexec, hstatus, -, -, hword⟩ := exec_pageSingle (cmd := .returnUnit) rfl hg hb (by decide)
    (s.takePage_returnUnit.trans hret) hpin hc hu.pending hu.fuses
  exact ⟨t, hexec, hstatus, State.get_of_word (hword _ (by decide))⟩

/-- A RETURN_UNIT that changes no unit. -/
theorem exec_returnUnit_same {code : Nat} (hg : s.writeGate TM_PAGE_CMD.GO.off = .made) (hb : s.flag TM_PAGE_CMD.BUSY = false)
    (hret : (s.pagePosted 11).returnUnitCmd = (s.pagePosted 11).pageDone code) (hpin : code ≠ 1) (hc : code < 256) :
    ∃ t, exec .returnUnit s = .next t ∧ t.get TM_PAGE_CMD.STATUS = code ∧
      t.get TM_STATUS.UNIT_FAILED = s.get TM_STATUS.UNIT_FAILED := by
  obtain ⟨t, hexec, hstatus, hunits⟩ := exec_returnUnit hg hb hret hpin hc (onlyRegs_refl _)
  exact ⟨t, hexec, hstatus, hunits.trans (s.pagePosted_unitFailed 11)⟩

theorem State.returnUnitCmd_phase (h : s.phase ≠ 0) : s.returnUnitCmd = s.pageDone 6 := by
  unfold State.returnUnitCmd
  rw [if_pos (by simpa using h)]

theorem State.returnUnitCmd_idle (h : s.phase = 0) : s.returnUnitCmd =
    (let u := bitsOf (s.get TM_PAGE_ARG.ARG) 3 0
     if u < 4 then s.pageDone 3
     else if u < 9 && s.unitFailed u then (s.set TM_STATUS.UNIT_FAILED (s.get TM_STATUS.UNIT_FAILED - 2 ^ u)).pageDone 0
     else s.pageDone 0) := by
  unfold State.returnUnitCmd
  rw [h]
  rfl

variable {x : Nat}

/-- R279: a Board or Flash unit comes back, and no other unit changes. -/
theorem exec_returnUnit_back (hg : s.writeGate TM_PAGE_CMD.GO.off = .made) (hb : s.flag TM_PAGE_CMD.BUSY = false) (hphase : s.phase = 0)
    (hx : x = bitsOf (s.get TM_PAGE_ARG.ARG) 3 0) (hlo : 4 ≤ x) (hhi : x < 9) : ∃ t, exec .returnUnit s = .next t ∧
      t.get TM_PAGE_CMD.STATUS = 0 ∧ bitOf (t.get TM_STATUS.UNIT_FAILED) x = false ∧
      ∀ y < 9, y ≠ x → bitOf (t.get TM_STATUS.UNIT_FAILED) y = bitOf (s.get TM_STATUS.UNIT_FAILED) y := by
  have hcmd := State.returnUnitCmd_idle ((s.pagePosted_phase 11).trans hphase)
  rw [s.pagePosted_arg, ← hx] at hcmd
  dsimp only at hcmd
  rw [if_neg (by omega), decide_eq_true hhi, Bool.true_and, s.pagePosted_unitFailed] at hcmd
  unfold State.unitFailed at hcmd
  rw [s.pagePosted_unitFailed] at hcmd
  by_cases hbit : bitOf (s.get TM_STATUS.UNIT_FAILED) x = true
  · rw [if_pos hbit] at hcmd
    obtain ⟨t, hexec, hstatus, hunits⟩ := exec_returnUnit hg hb hcmd (by decide) (by decide) (onlyRegs_set _ _ _)
    obtain ⟨hgone, hrest⟩ := bitOf_sub_pow hbit
    have hfits : s.get TM_STATUS.UNIT_FAILED - 2 ^ x < 2 ^ fldWidth TM_STATUS.UNIT_FAILED :=
      lt_of_le_of_lt (Nat.sub_le _ _) (s.get_lt _)
    rw [State.get_set_self _ _ _ (by decide) (by decide), Nat.mod_eq_of_lt hfits] at hunits
    rw [← hunits] at hgone hrest
    exact ⟨t, hexec, hstatus, hgone, fun y _ hy => hrest y hy⟩
  · rw [if_neg hbit] at hcmd
    obtain ⟨t, hexec, hstatus, hunits⟩ := exec_returnUnit_same hg hb hcmd (by decide) (by decide)
    rw [← hunits] at hbit
    exact ⟨t, hexec, hstatus, Bool.eq_false_iff.mpr hbit, fun y _ _ => by rw [hunits]⟩

end

/-! ## Page orders that lose (R51, R258) -/

section
variable {s : State} {op count : Nat}

theorem pageWord_go (op count : Nat) : bitOf (pageWord op count).toNat TM_PAGE_CMD.GO.lo = true := by
  rw [bitOf_eq_bitsOf]
  unfold pageWord cmdWord
  rw [List.foldl_cons, List.foldl_cons, List.foldl_cons, List.foldl_nil]
  dsimp only
  rw [bitsOf_putBits_apart _ _ _ _ _ _ (by decide) (by decide) (by decide),
    bitsOf_putBits_apart _ _ _ _ _ _ (by decide) (by decide) (by decide)]
  rfl

theorem State.issue_pageWord {f : State → State} (h : s.flag TM_PAGE_CMD.BUSY = false) :
    s.issue (pageWord op count) TM_PAGE_CMD.GO TM_PAGE_CMD.BUSY f = f (s.writeFields TM_PAGE_CMD.GO.off (pageWord op count)) := by
  simp [State.issue, pageWord_go, h]

theorem State.pageOrder_defeated {rival : Option Rival} {r : Rival} (h : s.flag TM_PAGE_CMD.BUSY = false)
    (hr : defeatedBy 3 rival = some r) : s.pageOrder op count rival =
      ((s.writeFields TM_PAGE_CMD.GO.off (pageWord op count)).pageDone orderRejected).set TM_PAGE_CMD.WINNER (rivalCode r) := by
  unfold State.pageOrder
  rw [hr]
  exact State.issue_pageWord h

theorem State.pageOrder_same (h : s.flag TM_PAGE_CMD.BUSY = false) : s.pageOrder op count (some .same) =
    (s.writeFields TM_PAGE_CMD.GO.off (pageWord op count)).pageDone 0 := by
  have hnone : defeatedBy 3 (some .same) = none := by decide
  unfold State.pageOrder
  rw [hnone, if_pos (beq_self_eq_true _)]
  exact State.issue_pageWord h

/-- The three page commands that a contradicting order may defeat. -/
theorem pageOrders_exec (s : State) (count : BitVec 32) (rival : Option Rival) :
    ∀ c ∈ [Instr.evict count rival, .pageInvalidate count rival, .pin count rival], ∃ op,
      exec c s = .next (s.after (s.atPort TM_PAGE_CMD.GO.off (fun s => s.pageOrder op count.toNat rival))) := by
  intro c hc
  rw [List.mem_cons, List.mem_cons, List.mem_singleton] at hc
  obtain rfl | rfl | rfl := hc
  · exact ⟨1, rfl⟩
  · exact ⟨2, rfl⟩
  · exact ⟨3, rfl⟩

/-- The state that a page order ends in where it does nothing but complete. -/
def State.noPageCmd (s : State) : State := { s with tiers := { s.tiers with cmd := none } }

theorem State.noPageCmd_rewrites {t : State} {l : List Nat} (h : rewrites s t l) : rewrites s.noPageCmd t.noPageCmd l := by
  obtain ⟨hframe, hword⟩ := h
  refine ⟨?_, hword⟩
  rw [hframe]
  rfl

/-- A page order that completes without taking effect touches its command word alone. -/
theorem exec_pageOrder_ends {cmd : Instr} {rival : Option Rival} {u : State}
    (hcmd : exec cmd s = .next (s.after (s.atPort TM_PAGE_CMD.GO.off (fun s => s.pageOrder op count rival))))
    (hg : s.writeGate TM_PAGE_CMD.GO.off = .made) (hu : s.pageOrder op count rival = u)
    (hr : rewrites (s.writeFields TM_PAGE_CMD.GO.off (pageWord op count)).noPageCmd u [TM_PAGE_CMD.GO.off]) :
    ∃ t, exec cmd s = .next t ∧ rewrites { s with resp := .written, tiers := { s.tiers with cmd := none } } t [TM_PAGE_CMD.GO.off] ∧
      ∀ f, t.get f = u.get f := by
  have hall : rewrites s.noPageCmd u [TM_PAGE_CMD.GO.off] :=
    rewrites_trans (State.noPageCmd_rewrites (rewrites_writeFields plainReg_pageCmd)) hr (List.Subset.refl _) (List.Subset.refl _)
  have hframe := hall.1
  refine ⟨{ u with resp := .written }, ?_, rewrites_written hall, State.get_written u⟩
  rw [hcmd, State.after_port_eq hg hu (by rw [hframe]; rfl) (by rw [hframe]; rfl)]

/-- What a defeated page order shows. -/
theorem State.pageRejected_shows (u : State) (r : Rival) :
    let t := (u.pageDone orderRejected).set TM_PAGE_CMD.WINNER (rivalCode r)
    rewrites u.noPageCmd t [TM_PAGE_CMD.GO.off] ∧ t.get TM_PAGE_CMD.STATUS = 0x50 ∧ t.get TM_PAGE_CMD.WINNER = rivalCode r ∧
      t.get TM_PAGE_CMD.BUSY = 0 := by
  obtain ⟨hframe, hstatus, hbusy⟩ := u.pageDone_shows (code := orderRejected) (by decide) (by decide)
  have hwinner : rivalCode r % 2 ^ fldWidth TM_PAGE_CMD.WINNER = rivalCode r := Nat.mod_eq_of_lt (rivalCode_lt r)
  refine ⟨rewrites.set hframe _ _ (by decide), ?_, ?_, ?_⟩
  · rw [State.get_set_apart _ _ _ _ (by decide) (by decide) (by decide), hstatus]
    rfl
  · rw [State.get_set_self _ _ _ (by decide) (by decide), hwinner]
  · rw [State.get_set_apart _ _ _ _ (by decide) (by decide) (by decide), hbusy]

theorem exec_pageOrder_defeated {cmd : Instr} {rival : Option Rival} {r : Rival}
    (hcmd : exec cmd s = .next (s.after (s.atPort TM_PAGE_CMD.GO.off (fun s => s.pageOrder op count rival))))
    (hg : s.writeGate TM_PAGE_CMD.GO.off = .made) (hb : s.flag TM_PAGE_CMD.BUSY = false) (hr : defeatedBy 3 rival = some r) :
    ∃ t, exec cmd s = .next t ∧ rewrites { s with resp := .written, tiers := { s.tiers with cmd := none } } t [TM_PAGE_CMD.GO.off] ∧
      t.get TM_PAGE_CMD.STATUS = 0x50 ∧ t.get TM_PAGE_CMD.WINNER = rivalCode r ∧ t.get TM_PAGE_CMD.BUSY = 0 := by
  obtain ⟨hrewrites, hstatus, hwinner, hbusy⟩ := State.pageRejected_shows (s.writeFields TM_PAGE_CMD.GO.off (pageWord op count)) r
  obtain ⟨t, hexec, hall, hget⟩ := exec_pageOrder_ends hcmd hg (State.pageOrder_defeated hb hr) hrewrites
  exact ⟨t, hexec, hall, (hget _).trans hstatus, (hget _).trans hwinner, (hget _).trans hbusy⟩

theorem exec_pageOrder_same {cmd : Instr}
    (hcmd : exec cmd s = .next (s.after (s.atPort TM_PAGE_CMD.GO.off (fun s => s.pageOrder op count (some .same)))))
    (hg : s.writeGate TM_PAGE_CMD.GO.off = .made) (hb : s.flag TM_PAGE_CMD.BUSY = false) :
    ∃ t, exec cmd s = .next t ∧ rewrites { s with resp := .written, tiers := { s.tiers with cmd := none } } t [TM_PAGE_CMD.GO.off] ∧
      t.get TM_PAGE_CMD.STATUS = 0 ∧ t.get TM_PAGE_CMD.BUSY = 0 := by
  obtain ⟨hrewrites, hstatus, hbusy⟩ :=
    (s.writeFields TM_PAGE_CMD.GO.off (pageWord op count)).pageDone_shows (code := 0) (by decide) (by decide)
  obtain ⟨t, hexec, hall, hget⟩ := exec_pageOrder_ends hcmd hg (State.pageOrder_same hb) hrewrites
  exact ⟨t, hexec, hall, (hget _).trans hstatus, (hget _).trans hbusy⟩

end

/-- Settles O45: page orders that lose, by what a completion rewrites; single accesses, by what an access of a word in Beam does; and
RETURN_UNIT, by its cases. -/
theorem pageOrdersLoseAndSingleAccessesEnd : Obligations.PageOrdersLoseAndSingleAccessesEnd := by
  intro s count rival r hg hb
  refine ⟨fun hr c hc => ?_, fun c hc => ?_, ⟨exec_access_unmapped hg hb, fun ht hin => ⟨exec_read64 hg hb ht hin, ?_⟩⟩,
    fun hphase => ?_, fun x hphase hx => ⟨fun hlow => ?_, exec_returnUnit_back hg hb hphase hx⟩⟩
  · obtain ⟨op, hcmd⟩ := pageOrders_exec s count rival c hc
    exact exec_pageOrder_defeated hcmd hg hb hr
  · obtain ⟨op, hcmd⟩ := pageOrders_exec s count (some .same) c hc
    exact exec_pageOrder_same hcmd hg hb
  · rintro hfree ⟨q, hq, hwb⟩
    exact exec_write64 hg hb ht hin hfree hq hwb
  · have hret := State.returnUnitCmd_phase (s := s.pagePosted 11) (by rw [s.pagePosted_phase]; exact hphase)
    exact exec_returnUnit_same hg hb hret (by decide) (by decide)
  · have hret := State.returnUnitCmd_idle ((s.pagePosted_phase 11).trans hphase)
    rw [s.pagePosted_arg, ← hx] at hret
    dsimp only at hret
    rw [if_pos hlow] at hret
    exact exec_returnUnit_same hg hb hret (by decide) (by decide)

end Sys2Proof.Machine

/-! The links of the Weft port (family 03_weft_port): changes of one link, beats that are passed over, and the framing of a link; the
statements O24 and O25. -/

namespace Sys2Proof.Machine

/-! ## Changes of one link -/

theorem length_modAt {α : Type} (l : List α) (h : Nat) (f : α → α) : (modAt l h f).length = l.length := by
  induction l generalizing h with
  | nil => rfl
  | cons x l ih => cases h <;> simp [modAt, ih]

/-- Two changes of one element are one. -/
theorem modAt_modAt {α : Type} (l : List α) (h : Nat) (f g : α → α) : modAt (modAt l h f) h g = modAt l h (fun x => g (f x)) := by
  induction l generalizing h with
  | nil => rfl
  | cons x l ih => cases h <;> simp [modAt, ih]

/-- A change is told by what it does to the element that is there. -/
theorem modAt_congr {α : Type} {l : List α} {h : Nat} {f g : α → α} (e : ∀ x, l[h]? = some x → f x = g x) :
    modAt l h f = modAt l h g := by
  induction l generalizing h with
  | nil => rfl
  | cons x l ih =>
    cases h with
    | zero => simp [modAt, e x rfl]
    | succ h => simp [modAt, ih (h := h) (by simpa using e)]

/-- The link that is there is the one of its number. -/
theorem State.link_of_getElem? {s : State} {h : Nat} {x : Link} (e : s.weft.links[h]? = some x) : s.link h = x := by
  rw [State.link, List.getD_eq_getElem?_getD, e]
  rfl

/-- Link h after a change of link k. -/
theorem State.link_modLink (s : State) (k h : Nat) (f : Link → Link) :
    (s.modLink k f).link h = if h = k ∧ h < s.weft.links.length then f (s.link h) else s.link h := by
  have hmod : (s.modLink k f).link h = (modAt s.weft.links k f).getD h {} := rfl
  rw [hmod, List.getD_eq_getElem?_getD, getElem?_modAt]
  by_cases hl : h < s.weft.links.length
  · have hx : s.weft.links[h]? = some (s.link h) := by
      rw [State.link, List.getD_eq_getElem?_getD, List.getElem?_eq_getElem hl, Option.getD_some]
    rw [hx]
    by_cases hk : h = k
    · rw [if_pos hk, if_pos ⟨hk, hl⟩]
      rfl
    · rw [if_neg hk, if_neg (fun e => hk e.1)]
      rfl
  · have hx : s.weft.links[h]? = none := List.getElem?_eq_none (by omega)
    rw [if_neg (fun e : h = k ∧ h < s.weft.links.length => hl e.2), State.link, List.getD_eq_getElem?_getD, hx]
    split <;> rfl

/-- What a change of links does not reach stands on each of them. -/
theorem State.link_modLink_keeps {α : Type} (s : State) (k h : Nat) {f : Link → Link} (g : Link → α) (hg : ∀ x, g (f x) = g x) :
    g ((s.modLink k f).link h) = g (s.link h) := by
  rw [State.link_modLink]
  split
  · exact hg _
  · rfl

/-- R373: an engine that is not in IDLE has nothing to leave. -/
theorem State.leaveIdle_of {s : State} (h : s.pm.st ≠ .idle) : s.leaveIdle = s := by simp [State.leaveIdle, h]

/-! ## Beats that are passed over (R56, R59, R355, R435) -/

theorem exec_boltPart (l : Fin 8) (d : List W64) (x : Bool) (rival : Option Rival) (m : BitVec 8) (s : State) :
    exec (.boltPart l d x rival m) s = execBoltPart l d x rival m s := rfl

theorem exec_rowRecord (l : Fin 8) (m0 m1 : W64) (payload : List Byte) (s : State) :
    exec (.rowRecord l m0 m1 payload) s = execRowRecord l m0 m1 payload s := rfl

/-- R355, R435: a descriptor on a link that is down or has lost its place. -/
theorem exec_boltPart_lost {s : State} {l : Fin 8} {d : List W64} {x : Bool} {rival : Option Rival} {m : BitVec 8}
    (hs : s.serving = true) (hl : (s.link l.val).up = false ∨ (s.link l.val).desync = true) :
    exec (.boltPart l d x rival m) s = .next (s.after (s.leaveIdle.dropBytes l.val 64)) := by
  have hlost : (!(s.link l.val).up || (s.link l.val).desync) = true := by rcases hl with h | h <;> simp [h]
  simp [exec_boltPart, execBoltPart, hs, hlost]

/-- R435: a descriptor that comes while row records are due is none. -/
theorem exec_boltPart_due {s : State} {l : Fin 8} {d : List W64} {x : Bool} {rival : Option Rival} {m : BitVec 8}
    (hup : (s.link l.val).up = true) (hd : (s.link l.val).desync = false) (hc : (s.link l.val).cursor ≠ none) :
    exec (.boltPart l d x rival m) s = .next s := by
  have hsome : (s.link l.val).cursor.isSome = true := Option.isSome_iff_ne_none.mpr hc
  simp [exec_boltPart, execBoltPart, hup, hd, hsome]

/-- R355, R435: a row record on a link that is down or has lost its place. -/
theorem exec_rowRecord_lost {s : State} {l : Fin 8} {m0 m1 : W64} {payload : List Byte}
    (hs : s.serving = true) (hl : (s.link l.val).up = false ∨ (s.link l.val).desync = true) :
    exec (.rowRecord l m0 m1 payload) s = .next (s.after (s.leaveIdle.dropBytes l.val (16 + payload.length))) := by
  have hlost : (!(s.link l.val).up || (s.link l.val).desync) = true := by rcases hl with h | h <;> simp [h]
  simp [exec_rowRecord, execRowRecord, hs, hlost]

/-- R56, R59: what beats that are passed over leave: the place in the beat, and OVERRUN. -/
theorem State.dropBytes_shows (s : State) (l n : Nat) : s.after (s.dropBytes l n) = s.dropBytes l n ∧
    rewrites { s with weft := { s.weft with links := modAt s.weft.links l (fun z =>
      { z with inPos := (z.inPos + n) % 1184, inGone := true }) } } (s.dropBytes l n) [(WP_LINK_EVENTS.OVERRUN l).off] ∧
    (s.dropBytes l n).get (WP_LINK_EVENTS.OVERRUN l) = min (s.get (WP_LINK_EVENTS.OVERRUN l) +
      (((s.link l).inPos + n + 1183) / 1184 - (if (s.link l).inGone && (s.link l).inPos != 0 then 1 else 0)))
      (2 ^ fldWidth (WP_LINK_EVENTS.OVERRUN l) - 1) := by
  refine ⟨State.after_eq _ _ rfl rfl, ⟨rfl, fun off ho => ?_⟩, ?_⟩
  · exact State.word_bump_ne s _ _ off (by simpa using ho)
  · exact State.get_bump_self s (WP_LINK_EVENTS.OVERRUN l) _ (by simp [WP_LINK_EVENTS.OVERRUN]) (by simp [WP_LINK_EVENTS.OVERRUN])

/-- Settles O24: the beats of a lost link are dropped by `dropBytes`, whatever they carry. -/
theorem lostLinksPassBeatsOver : Obligations.LostLinksPassBeatsOver := by
  intro s l d m0 m1 payload rival m x hs hidle
  have hleave := State.leaveIdle_of hidle
  refine ⟨fun hl => ⟨?_, ?_⟩, exec_boltPart_due⟩
  · obtain ⟨hafter, hdrops⟩ := State.dropBytes_shows s l.val 64
    exact ⟨_, by rw [exec_boltPart_lost hs hl, hleave, hafter], hdrops⟩
  · obtain ⟨hafter, hdrops⟩ := State.dropBytes_shows s l.val (16 + payload.length)
    exact ⟨_, by rw [exec_rowRecord_lost hs hl, hleave, hafter], hdrops⟩

/-! ## Framing (R57, R435) -/

theorem exec_desyncGapEnd (l : Fin 8) (s : State) : exec (.desyncGapEnd l) s = execDesyncGapEnd l s := rfl

theorem exec_crcRetry (l : Fin 8) (passed : Bool) (s : State) : exec (.crcRetry l passed) s = execCrcRetry l passed s := rfl

/-- R57: a retransmission on a link that is up is counted, and ends or lengthens its run of failures. -/
def State.retried (s : State) (l : Nat) (passed : Bool) : State :=
  (s.bump (WP_LINK_EVENTS.CRC_RETRY l)).modLink l (fun x => { x with crcFails := if passed then 0 else (s.link l).crcFails + 1 })

theorem exec_crcRetry_down {s : State} {l : Fin 8} {passed : Bool} (h : (s.link l.val).up = false) :
    exec (.crcRetry l passed) s = .next s := by
  simp [exec_crcRetry, execCrcRetry, h]

/-- R57: up to the fifteenth failure in a row a link goes on. -/
theorem exec_crcRetry_goesOn {s : State} {l : Fin 8} {passed : Bool} (hp : s.powered = true) (hup : (s.link l.val).up = true)
    (h : passed = true ∨ (s.link l.val).crcFails < 15) : exec (.crcRetry l passed) s = .next (s.retried l.val passed) := by
  have hfew : ¬ 16 ≤ if passed then 0 else (s.link l.val).crcFails + 1 := by
    rcases h with rfl | h
    · simp
    · split <;> omega
  have hexec : exec (.crcRetry l passed) s = .next (s.after (s.retried l.val passed)) := by
    simp [exec_crcRetry, execCrcRetry, hp, hup, if_neg hfew, State.retried]
  exact hexec

/-- R57: the sixteenth failure in a row fails the link. -/
theorem exec_crcRetry_fails {s : State} {l : Fin 8} (hp : s.powered = true) (hup : (s.link l.val).up = true)
    (h : 15 ≤ (s.link l.val).crcFails) : exec (.crcRetry l false) s = .next (s.after ((s.retried l.val false).failLink l.val)) := by
  have hmany : 16 ≤ (s.link l.val).crcFails + 1 := by omega
  simp [exec_crcRetry, execCrcRetry, hp, hup, hmany, State.retried]

/-- R353: a Harness that is out of service retires no further. -/
theorem State.retireHarness_out {s : State} {h : Nat} (seq : Nat) (hin : s.inService h = false) : s.retireHarness h seq = s := by
  simp [State.retireHarness, hin]

/-- R57: the record of a link that fails. -/
def State.linkFault (s : State) (h : Nat) : FaultInfo :=
  { cls := 4, source := 0, action := 2, harness := h, bolt := (s.firstPick h).map (·.bolt), pick := (s.firstPick h).map (·.id),
    detail := h }

/-- R57, R355: a link that has failed is down, and what would leave on it leaves elsewhere; its fault is recorded. -/
def State.linkDown (s : State) (h : Nat) : State :=
  let t := s.recordFault (s.linkFault h)
  let u := t.modLink h (fun l => { l with up := false, cursor := none, egress := [] })
  u.modLink (u.linkFor h) (fun l => { l with egress := l.egress ++ (t.link h).egress })

theorem State.linkDown_frame (s : State) (h : Nat) : (s.linkDown h).weft.bolts = s.weft.bolts ∧ (s.linkDown h).cust = s.cust := by
  unfold State.linkDown
  rw [onlyRegs_recordFault s (s.linkFault h)]
  exact ⟨rfl, rfl⟩

/-- R57, R355: the failure of a link whose Harness is out of service, with no bolt known. -/
theorem State.failLink_quiet {s : State} {h : Nat} (hin : s.inService h = false) (hb : s.weft.bolts = []) :
    s.failLink h = s.linkDown h := by
  obtain ⟨hbolts, hcust⟩ := State.linkDown_frame s h
  have hout : (s.linkDown h).inService h = false := by rw [State.inService, hcust]; exact hin
  unfold State.failLink
  change (List.foldl _ (s.linkDown h) ((s.linkDown h).weft.bolts.filter _)).retireHarness h _ = _
  rw [hbolts, hb]
  exact State.retireHarness_out _ hout

theorem notesFault_linkDown (s : State) (h : Nat) : notesFault s (s.linkDown h) 4 0 :=
  notesFault_recordFault s (s.linkFault h) (by decide : 4 < 256) (by decide : 0 < 16) (by decide : 2 < 16)

theorem State.linkDown_up {s : State} {h : Nat} (hl : h < s.weft.links.length) : ((s.linkDown h).link h).up = false := by
  have hlen : h < (s.recordFault (s.linkFault h)).weft.links.length := by rw [onlyRegs_recordFault]; exact hl
  have hdown := State.link_modLink (s.recordFault (s.linkFault h)) h h (fun l => { l with up := false, cursor := none, egress := [] })
  rw [if_pos ⟨rfl, hlen⟩] at hdown
  refine (State.link_modLink_keeps _ _ h Link.up ?_).trans (congrArg Link.up hdown)
  exact fun _ => rfl

/-- Settles O25: a failed retry lengthens the run of failures, whose sixteenth is `failLink`. -/
theorem linkFramingRecovers : Obligations.LinkFramingRecovers := by
  intro s l passed hp
  refine ⟨?_, exec_crcRetry_down, fun hup => ⟨exec_crcRetry_goesOn hp hup, ?_, ?_⟩⟩
  · rw [exec_desyncGapEnd, execDesyncGapEnd, if_pos hp]
    rfl
  · rintro rfl hfails
    exact exec_crcRetry_fails hp hup hfails
  · rintro rfl hfails hin hb hl
    have hlen : l.val < (s.retried l.val false).weft.links.length := by
      rw [show (s.retried l.val false).weft.links = modAt s.weft.links l.val _ from rfl, length_modAt]; exact hl
    have hfail := State.failLink_quiet (s := s.retried l.val false) hin hb
    have hseq : (s.retried l.val false).word CU_FAULT_PTR.SEQ_NEXT.off = s.word CU_FAULT_PTR.SEQ_NEXT.off :=
      State.word_bump_ne s _ _ _ (by simp [WP_LINK_EVENTS.CRC_RETRY, CU_FAULT_PTR.SEQ_NEXT]; omega)
    refine ⟨_, exec_crcRetry_fails hp hup hfails, ?_, ?_⟩
    · rw [hfail]
      exact notesFault_of_word hseq (notesFault_linkDown _ l.val)
    · rw [hfail]
      exact State.linkDown_up hlen

end Sys2Proof.Machine

/-! The first part of a bolt and its row records (family 03_weft_port): changes of one bolt of the table, and the statements O22 and
O23. -/

namespace Sys2Proof.Machine

/-! ## Changes of one bolt -/

theorem modWhere_same {α : Type} (p : α → Bool) (l : List α) : modWhere p (fun x => x) l = l := by simp [modWhere]

/-- Two changes of what a test picks are one, where the first leaves the test as it is. -/
theorem modWhere_modWhere {α : Type} {p : α → Bool} {f : α → α} (g : α → α) (l : List α) (hf : ∀ x, p (f x) = p x) :
    modWhere p g (modWhere p f l) = modWhere p (fun x => g (f x)) l := by
  simp only [modWhere, List.map_map]
  refine List.map_congr_left fun x _ => ?_
  by_cases h : p x = true <;> simp [h, hf]

/-- A change of what a test picks leaves a list that holds none of it. -/
theorem modWhere_none {α : Type} {p : α → Bool} (f : α → α) {l : List α} (h : ∀ x ∈ l, p x = false) : modWhere p f l = l :=
  (List.map_congr_left fun x hx => by simp [h x hx]).trans (List.map_id' l)

/-- What a search finds after a change that leaves the test as it is. -/
theorem find?_modWhere {α : Type} {p : α → Bool} {f : α → α} {l : List α} (hf : ∀ x, p (f x) = p x) :
    (modWhere p f l).find? p = (l.find? p).map f := by
  induction l with
  | nil => rfl
  | cons x l ih =>
    by_cases h : p x = true
    · simp [modWhere, h, hf]
    · simpa [modWhere, h] using ih

/-- The bolt of an ID after its change. -/
theorem State.bolt?_modBolt {s : State} {id : Nat} {b : Bolt} {f : Bolt → Bolt} (hf : ∀ x, (f x).id = x.id)
    (h : s.bolt? id = some b) : (s.modBolt id f).bolt? id = some (f b) := by
  have hfind : (s.modBolt id f).bolt? id = (s.bolt? id).map f := find?_modWhere (fun x => by rw [hf])
  rw [hfind, h]
  rfl

/-! ## The first part of a bolt (R61, R66) -/

/-- R61: what the order of a bolt leaves as its part brought it. -/
def Bolt.asArrived (b b' : Bolt) : Prop :=
  b'.id = b.id ∧ b'.desc = b.desc ∧ b'.refused = b.refused ∧ b'.turnedAway = b.turnedAway ∧ b'.parts = b.parts

/-- R66: a state that differs from another in the order of one bolt, and in the count of the bolts accepted, at most. -/
def onlyOrder (s t : State) (id : Nat) : Prop :=
  t = { s with weft := { s.weft with bolts := t.weft.bolts, orderClock := t.weft.orderClock } } ∧
    ∃ f : Bolt → Bolt, (∀ b : Bolt, b.asArrived (f b)) ∧ t.weft.bolts = modWhere (·.id == id) f s.weft.bolts

theorem onlyOrder_refl (s : State) (id : Nat) : onlyOrder s s id :=
  ⟨rfl, fun b => b, fun _ => ⟨rfl, rfl, rfl, rfl, rfl⟩, (modWhere_same _ _).symm⟩

theorem onlyOrder_trans {s t u : State} {id : Nat} (a : onlyOrder s t id) (b : onlyOrder t u id) : onlyOrder s u id := by
  obtain ⟨ht, f, hf, htb⟩ := a
  obtain ⟨hu, g, hg, hub⟩ := b
  refine ⟨by rw [hu, ht], fun x => g (f x), fun x => ?_, ?_⟩
  · obtain ⟨hid, hdesc, href, haway, hparts⟩ := hf x
    obtain ⟨hid', hdesc', href', haway', hparts'⟩ := hg (f x)
    exact ⟨hid'.trans hid, hdesc'.trans hdesc, href'.trans href, haway'.trans haway, hparts'.trans hparts⟩
  · rw [hub, htb, modWhere_modWhere g _ (fun x => by rw [(hf x).1])]

theorem onlyOrder_modBolt (s : State) (id : Nat) {f : Bolt → Bolt} (hf : ∀ b : Bolt, b.asArrived (f b)) :
    onlyOrder s (s.modBolt id f) id :=
  ⟨rfl, f, hf, rfl⟩

/-- R66: the dispatch of a descriptor that carries no order. -/
theorem onlyOrder_dispatchEmbedded {s : State} {id : Nat} {rival : Option Rival} {m : Nat}
    (h : ∀ b, s.bolt? id = some b → dOrderAction b.desc = 0) : onlyOrder s (s.dispatchEmbedded id rival m) id := by
  unfold State.dispatchEmbedded
  split
  · exact onlyOrder_refl s id
  · next b hb =>
    split
    · rw [State.embeddedOrder, h b hb]
      exact onlyOrder_modBolt s id (fun _ => ⟨rfl, rfl, rfl, rfl, rfl⟩)
    · exact onlyOrder_refl s id

/-- R66, R198: the acceptance of a part whose descriptor carries no order. -/
theorem onlyOrder_acceptFirst {s : State} {id : Nat} {d : List W64} {rival : Option Rival} {m : Nat}
    (h : ∀ b, s.bolt? id = some b → dOrderAction b.desc = 0) : onlyOrder s (s.acceptFirst id d rival m) id := by
  unfold State.acceptFirst
  split
  · exact onlyOrder_refl s id
  · next b hb =>
    dsimp only
    split
    · have hplaced : onlyOrder s { s.modBolt id (fun y => { y with order := s.weft.orderClock, begun := true }) with
          weft := { (s.modBolt id (fun y => { y with order := s.weft.orderClock, begun := true })).weft with
            orderClock := s.weft.orderClock + 1 } } id :=
        ⟨rfl, fun y => { y with order := s.weft.orderClock, begun := true }, fun _ => ⟨rfl, rfl, rfl, rfl, rfl⟩, rfl⟩
      refine onlyOrder_trans hplaced (onlyOrder_dispatchEmbedded fun c hc => ?_)
      have hmod := State.bolt?_modBolt (f := fun y => { y with order := s.weft.orderClock, begun := true }) (fun _ => rfl) hb
      cases hmod.symm.trans hc
      exact h b hb
    · exact onlyOrder_refl s id

/-- R61: the bolt that its first part puts into the table. -/
def State.arriving (s : State) (l : Nat) (d : List W64) : Bolt :=
  { id := dBoltId d, desc := d, refused := s.arrivalCode l d, turnedAway := (s.arrivalCode l d).isSome, aclk := s.cust.aclk,
    parts := [{ link := l, first := dFirstRow d, count := dPartRows d }], opened := s.accepted (dAngle d) }

theorem State.newBolt_eq (s : State) (l : Nat) (d : List W64) :
    s.newBolt l d = { s with weft := { s.weft with bolts := s.weft.bolts ++ [s.arriving l d] } } := rfl

/-- R59: a descriptor in a beat that found room, on a link with no discarded beat. -/
theorem State.descBeats_room {s : State} {l : Nat} (h : (s.link l).inGone = false) :
    s.descBeats l false = (s.passBytes l 64 false, false) := by
  simp [State.descBeats, Link.inGoneBeat, h]

/-- R61: the descriptor of a bolt that is not known, in a beat that found room. -/
theorem State.takePart_new {s : State} {l : Nat} {d : List W64} {rival : Option Rival} {m : Nat} (hb : s.bolt? (dBoltId d) = none)
    (hgone : (s.link l).inGone = false) (hfmt : dInFmt d ≤ 6) : s.takePart l d false rival m =
      let u := ((s.passBytes l 64 false).newBolt l d).acceptFirst (dBoltId d) d rival m
      if dPartRows d = 0 then u else u.modLink l (fun x => { x with cursor := some (dBoltId d, dPartRows d), size := recordBytes d }) := by
  have hnone : (s.passBytes l 64 false).bolt? (dBoltId d) = none := hb
  have hfit : ¬ 6 < dInFmt d := by omega
  simp [State.takePart, State.descBeats_room hgone, hnone, hfit]

/-- R61, R78: what the first part of a bolt leaves where its descriptor carries no order. -/
theorem State.takePart_shows {s : State} {l : Nat} {d : List W64} (rival : Option Rival) (m : Nat)
    (hb : s.bolt? (dBoltId d) = none) (hgone : (s.link l).inGone = false) (hfmt : dInFmt d ≤ 6) (hact : dOrderAction d = 0) :
    let t := s.takePart l d false rival m
    (∃ b, t.weft.bolts = s.weft.bolts ++ [b] ∧ (s.arriving l d).asArrived b) ∧
      t = { s with weft := { s.weft with links := t.weft.links, bolts := t.weft.bolts, orderClock := t.weft.orderClock } } ∧
      t.weft.links = modAt s.weft.links l (fun x =>
        { x with inPos := (x.inPos + 64) % 1184,
                 cursor := if dPartRows d = 0 then x.cursor else some (dBoltId d, dPartRows d),
                 size := if dPartRows d = 0 then x.size else recordBytes d }) := by
  have hfound : ((s.passBytes l 64 false).newBolt l d).bolt? (dBoltId d) = some (s.arriving l d) := by
    rw [State.newBolt_eq]
    change (s.weft.bolts ++ [s.arriving l d]).find? _ = _
    rw [List.find?_append, show s.weft.bolts.find? (·.id == dBoltId d) = none from hb]
    simp [State.arriving]
  obtain ⟨hframe, f, hf, hbolts⟩ := onlyOrder_acceptFirst (rival := rival) (m := m) (d := d)
    (fun b (e : ((s.passBytes l 64 false).newBolt l d).bolt? (dBoltId d) = some b) => by
      cases hfound.symm.trans e
      exact hact)
  rw [State.takePart_new hb hgone hfmt]
  generalize ((s.passBytes l 64 false).newBolt l d).acceptFirst (dBoltId d) d rival m = u at hframe hbolts ⊢
  have htable : u.weft.bolts = s.weft.bolts ++ [f (s.arriving l d)] := by
    have hnone : ∀ x ∈ s.weft.bolts, (x.id == dBoltId d) = false := by simpa [State.bolt?] using hb
    rw [hbolts]
    change modWhere _ f (s.weft.bolts ++ [s.arriving l d]) = _
    rw [modWhere, List.map_append]
    congr 1
    · exact modWhere_none f hnone
    · simp [State.arriving]
  have hlinks : u.weft.links = modAt s.weft.links l (fun x => { x with inPos := (x.inPos + 64) % beatBytes, inGone := false }) := by
    rw [hframe]; rfl
  have hgoneAt : ∀ x, s.weft.links[l]? = some x → x.inGone = false := fun x hx => by rw [← State.link_of_getElem? hx]; exact hgone
  refine ⟨⟨f (s.arriving l d), ?_, hf _⟩, ?_, ?_⟩
  · rw [← htable]
    dsimp only
    split <;> rfl
  · dsimp only
    split
    · rw [hframe]; rfl
    · rw [hframe]; rfl
  · dsimp only
    split
    · rw [hlinks]
      exact modAt_congr fun x hx => by rw [← hgoneAt x hx]; rfl
    · change modAt u.weft.links l _ = _
      rw [hlinks, modAt_modAt]
      exact modAt_congr fun x hx => by rw [← hgoneAt x hx]; rfl

/-- R61: a descriptor that a link which is up and in place carries, with no row record due. -/
theorem exec_boltPart_taken {s : State} {l : Fin 8} {d : List W64} {x : Bool} {rival : Option Rival} {m : BitVec 8}
    (hs : s.serving = true) (hup : (s.link l.val).up = true) (hd : (s.link l.val).desync = false)
    (hc : (s.link l.val).cursor = none) :
    exec (.boltPart l d x rival m) s = .next (s.after (s.leaveIdle.takePart l.val d x rival m.toNat)) := by
  simp [exec_boltPart, execBoltPart, hs, hup, hd, hc]

/-- Settles O22: the bolt that joins the table is the one of `newBolt`, which its missing order leaves as it arrived. -/
theorem newBoltEntersTheTable : Obligations.NewBoltEntersTheTable := by
  intro s l d rival m hs hup hd hc hgone hb hfmt hact
  obtain ⟨pm, hpm⟩ : ∃ pm, s.leaveIdle = { s with pm := pm } := ⟨_, State.leaveIdle_frame s⟩
  obtain ⟨⟨b, hbolts, hid, hdesc, href, haway, hparts⟩, hframe, hlinks⟩ :=
    State.takePart_shows (s := s.leaveIdle) (l := l.val) rival m.toNat (by rw [hpm]; exact hb) (by rw [hpm]; exact hgone) hfmt hact
  have harrive : s.leaveIdle.arriving l.val d = s.arriving l.val d := by rw [hpm]; rfl
  rw [harrive] at hid hdesc href haway hparts
  rw [show s.leaveIdle.weft = s.weft by rw [hpm]] at hbolts hlinks
  refine ⟨_, b, exec_boltPart_taken hs hup hd hc, ?_, hdesc, href, haway, hparts, ?_, fun id hne => ?_, hlinks, ?_, ?_, ?_⟩
  · change (s.leaveIdle.takePart l.val d false rival m.toNat).weft.bolts.find? _ = _
    rw [hbolts, List.find?_append, show s.weft.bolts.find? (·.id == dBoltId d) = none from hb]
    simp [hid, State.arriving]
  · rw [State.after_weft, hbolts, List.length_append]
    rfl
  · change (s.leaveIdle.takePart l.val d false rival m.toNat).weft.bolts.find? _ = _
    have hother : ¬ b.id = id := fun e => hne (e.symm.trans hid)
    rw [hbolts, List.find?_append]
    simp [hother, State.bolt?]
  · rw [State.after_regs, hframe, hpm]
  · rw [State.after_heddle, hframe, hpm]
  · rw [State.after_tiers, hframe, hpm]


/-! ## Row records (R74, R435) -/

/-- The bolts of a table beside the only one of an ID. -/
theorem alone_split {l : List Bolt} {id : Nat} {b : Bolt} (h : l.filter (·.id == id) = [b]) :
    ∃ l₁ l₂, l = l₁ ++ b :: l₂ ∧ l.find? (·.id == id) = some b ∧ ∀ f : Bolt → Bolt,
      modWhere (·.id == id) f l = l₁ ++ f b :: l₂ := by
  obtain ⟨l₁, l₂, rfl, h₁, hb, h₂⟩ := List.filter_eq_cons_iff.mp h
  have hid : b.id = id := by simpa using hb
  have hbefore : ∀ x ∈ l₁, (x.id == id) = false := fun x hx => by simpa using h₁ x hx
  have hafter : ∀ x ∈ l₂, (x.id == id) = false := fun x hx => by simpa using List.filter_eq_nil_iff.mp h₂ x hx
  refine ⟨l₁, l₂, rfl, ?_, fun f => ?_⟩
  · rw [List.find?_append, List.find?_eq_none.mpr (fun x hx => by simp [hbefore x hx])]
    simp [hid]
  · have hb₁ := modWhere_none f hbefore
    have hb₂ := modWhere_none f hafter
    unfold modWhere at hb₁ hb₂ ⊢
    rw [List.map_append, List.map_cons, hb₁, hb₂, if_pos hb]

/-- R74: the bytes that one bolt takes of the replay buffer of Harness h. -/
def Bolt.held (b : Bolt) (h : Nat) : Nat :=
  if b.remote.isSome then 0 else (b.rows.filter (fun r => r.held && r.link == h)).length * recordBytes b.desc

theorem State.occupancy_eq (s : State) (h : Nat) : s.occupancy h = (s.weft.bolts.map (fun b => b.held h)).sum := rfl

/-- R74: a row that is kept takes the bytes of its record in the replay buffer of its link. -/
theorem Bolt.held_keep (b : Bolt) (r : Row) (n : Nat) (u : Bool) (h : Nat) :
    ({ b with rows := b.rows ++ [r], lastBeat := n, unmasked := u } : Bolt).held h ≤
      b.held h + if h = r.link then recordBytes b.desc else 0 := by
  unfold Bolt.held
  dsimp only
  split
  · exact Nat.zero_le _
  · rw [List.filter_append, List.length_append, Nat.add_mul]
    refine Nat.add_le_add_left ?_ _
    by_cases hl : h = r.link
    · have hone : ([r].filter (fun x => x.held && x.link == h)).length ≤ 1 := List.length_filter_le _ _
      rw [if_pos hl]
      exact (Nat.mul_le_mul_right _ hone).trans_eq (Nat.one_mul _)
    · have hnot : ¬ r.link = h := fun e => hl e.symm
      simp [hl, hnot]

/-- R74: the row that a record of a part brings. -/
def Part.nextRow (p : Part) (l : Nat) (d : List W64) (m0 m1 : W64) (payload : List Byte) : Row :=
  { index := p.first + p.got, link := l, meta0 := m0, meta1 := m1,
    payload := (padTo (payloadPadded (dFmt d) (dDin d)) payload).take (payloadPadded (dFmt d) (dDin d)) }

/-- R74: a bolt with one row more. -/
def Bolt.keep (b : Bolt) (r : Row) (aclk : Nat) : Bolt :=
  { b with rows := b.rows ++ [r], lastBeat := aclk, unmasked := b.unmasked || !r.mask }

theorem State.keepRow_eq (s : State) (l : Nat) (b : Bolt) (p : Part) (m0 m1 : W64) (payload : List Byte) :
    s.keepRow l b p m0 m1 payload = s.modBolt b.id (fun y => y.keep (p.nextRow l b.desc m0 m1 payload) s.cust.aclk) := rfl

/-- R74: with no replay buffer above HIGH_WATER no row leaves one. -/
theorem State.releaseFed_low {s : State} (h : ∀ i < 8, s.occupancy i ≤ s.get WP_REPLAY_CTRL.HIGH_WATER * 65536) :
    s.releaseFed = s := by
  have hlow : (List.range 8).any s.aboveHighWater = false := by simpa [State.aboveHighWater] using h
  simp [State.releaseFed, hlow]

/-- R74: the occupancies after a row of the only bolt of its ID is kept. -/
theorem State.occupancy_keep {s : State} {id : Nat} {b : Bolt} (hone : s.weft.bolts.filter (·.id == id) = [b]) (r : Row)
    (aclk h : Nat) : (s.modBolt id (fun y => y.keep r aclk)).occupancy h ≤
      s.occupancy h + if h = r.link then recordBytes b.desc else 0 := by
  obtain ⟨l₁, l₂, hbolts, -, hmod⟩ := alone_split hone
  have hafter : (s.modBolt id (fun y => y.keep r aclk)).weft.bolts = l₁ ++ b.keep r aclk :: l₂ := hmod _
  have hheld : (b.keep r aclk).held h ≤ _ := Bolt.held_keep b r aclk (b.unmasked || !r.mask) h
  rw [State.occupancy_eq, State.occupancy_eq, hafter, hbolts]
  simp only [List.map_append, List.map_cons, List.sum_append, List.sum_cons]
  omega

/-- R59: a row record that finds room in the replay buffer, on a link with no discarded beat. -/
theorem State.rowBeats_room {s : State} {l : Nat} (hgone : (s.link l).inGone = false)
    (hroom : s.occupancy l + (s.link l).size ≤ replayBytes) : s.rowBeats l = (s.passBytes l (s.link l).size false, false) := by
  have hfit : (s.link l).size ≤ replayBytes - s.occupancy l := by omega
  simp [State.rowBeats, Link.lostBeats, Link.inGoneBeat, hgone, hfit, State.overrun]

/-- R435: the part that brought a row record counts it. -/
def Bolt.countRow (b : Bolt) (l first : Nat) : Bolt :=
  { b with parts := modWhere (fun q => q.link == l && q.first == first) (fun q => { q with got := q.got + 1 }) b.parts }

/-- R74: a row record of an accepted part that finds room, with every replay buffer low afterwards. -/
theorem State.takeRow_kept {s : State} {l id : Nat} {b : Bolt} {p : Part} (m0 m1 : W64) (payload : List Byte)
    (hgone : (s.link l).inGone = false) (hone : s.weft.bolts.filter (·.id == id) = [b]) (href : b.refused = none)
    (hstop : b.stopped = false) (hint : b.internal = false) (hst : b.st = .running)
    (hp : b.parts.find? (fun p => p.link == l && decide (p.got < p.count)) = some p)
    (hroom : s.occupancy l + (s.link l).size ≤ replayBytes)
    (hlow : ∀ h < 8, s.occupancy h + (if h = l then recordBytes b.desc else 0) ≤ s.get WP_REPLAY_CTRL.HIGH_WATER * 65536) :
    s.takeRow l id m0 m1 payload = ((s.passBytes l (s.link l).size false).modBolt id
      (fun y => y.keep (p.nextRow l b.desc m0 m1 payload) s.cust.aclk)).modBolt id (fun y => y.countRow l p.first) := by
  obtain ⟨-, -, -, hfind, -⟩ := alone_split hone
  have hfound : (s.passBytes l (s.link l).size false).bolt? id = some b := hfind
  have hid := State.bolt?_id hfound
  have hfed := State.releaseFed_low (s := (s.passBytes l (s.link l).size false).modBolt id
    (fun y => y.keep (p.nextRow l b.desc m0 m1 payload) s.cust.aclk)) (fun h hh =>
      (State.occupancy_keep (s := s.passBytes l (s.link l).size false) hone (p.nextRow l b.desc m0 m1 payload) s.cust.aclk h).trans
        (hlow h hh))
  have hkeep := State.keepRow_eq (s.passBytes l (s.link l).size false) l b p m0 m1 payload
  rw [hid] at hkeep
  have hgoes : (b.refused.isSome || b.stopped || b.internal || b.st != .running) = false := by simp [href, hstop, hint, hst]
  simp only [State.takeRow, State.rowBeats_room hgone hroom, hfound, hp, hgoes, Bool.false_eq_true, if_false, hkeep]
  exact congrArg (fun u => State.modBolt u id (fun y => y.countRow l p.first)) hfed

/-- R435: a link counts down the row records of its part. -/
def Link.countDown (x : Link) (id left : Nat) : Link := { x with cursor := if left ≤ 1 then none else some (id, left - 1) }

/-- R74: a row record on a link which is up and in place, with row records due. -/
theorem exec_rowRecord_due {s : State} {l : Fin 8} {m0 m1 : W64} {payload : List Byte} {id left : Nat} (hs : s.serving = true)
    (hup : (s.link l.val).up = true) (hd : (s.link l.val).desync = false) (hc : (s.link l.val).cursor = some (id, left)) :
    exec (.rowRecord l m0 m1 payload) s =
      .next (s.after ((s.leaveIdle.modLink l.val (fun x => x.countDown id left)).takeRow l.val id m0 m1 payload)) := by
  simp [exec_rowRecord, execRowRecord, hs, hup, hd, hc, Link.countDown]

/-- R373: what counting down leaves of a link, in an engine that has left IDLE. -/
theorem State.link_countDown (s : State) (l id left : Nat) :
    ((s.leaveIdle.modLink l (fun x => x.countDown id left)).link l).inGone = (s.link l).inGone ∧
      ((s.leaveIdle.modLink l (fun x => x.countDown id left)).link l).size = (s.link l).size := by
  have hidle : s.leaveIdle.link l = s.link l := by rw [State.leaveIdle_frame]; rfl
  rw [← hidle]
  exact ⟨State.link_modLink_keeps _ l l Link.inGone (fun _ => rfl), State.link_modLink_keeps _ l l Link.size (fun _ => rfl)⟩

/-- Settles O23: the record is kept by `keepRow`, and with no buffer above HIGH_WATER no row leaves for it. -/
theorem rowRecordIsKept : Obligations.RowRecordIsKept := by
  intro s l m0 m1 payload id left b p hs hup hd hc hgone hone href hstop hint hst hp hroom hlow
  obtain ⟨pm, hpm⟩ : ∃ pm, s.leaveIdle = { s with pm := pm } := ⟨_, State.leaveIdle_frame s⟩
  obtain ⟨hgone', hsize⟩ := State.link_countDown s l.val id left
  have htake := State.takeRow_kept (s := s.leaveIdle.modLink l.val (fun x => x.countDown id left)) (l := l.val) m0 m1 payload
    (hgone'.trans hgone) (by rw [hpm]; exact hone) href hstop hint hst hp (by rw [hsize, hpm]; exact hroom) (by rw [hpm]; exact hlow)
  have hfind : s.bolt? id = some b := by
    obtain ⟨-, -, -, hfind, -⟩ := alone_split hone
    exact hfind
  rw [hsize, hpm] at htake
  refine ⟨_, exec_rowRecord_due hs hup hd hc, ?_, ?_, ?_⟩
  · rw [hpm, htake]; rfl
  · rw [hpm, htake]
    change modAt (modAt s.weft.links l.val _) l.val _ = _
    rw [modAt_modAt]
    refine modAt_congr fun x hx => ?_
    have hx' : x.inGone = false := by rw [← State.link_of_getElem? hx]; exact hgone
    have hsz : x.size = (s.link l.val).size := by rw [← State.link_of_getElem? hx]
    rw [← hsz, ← hx']
    rfl
  · rw [hpm, htake]
    refine ⟨(b.keep (p.nextRow l.val b.desc m0 m1 payload) s.cust.aclk).countRow l.val p.first,
      p.nextRow l.val b.desc m0 m1 payload, ?_, rfl, rfl, rfl, rfl, rfl, rfl, rfl, rfl, rfl, rfl, rfl, rfl, href⟩
    refine State.bolt?_modBolt (fun _ => rfl) (State.bolt?_modBolt (fun _ => rfl) ?_)
    exact hfind

end Sys2Proof.Machine

/-! The egress of a link (family 03_weft_port): a record leaves, its result stands, and its row may leave the replay buffer; the
statement O26. -/

namespace Sys2Proof.Machine

/-! ## A record leaves (R71 to R74) -/

/-- A state that differs from another in its bolt table at most. -/
def onlyBolts (s t : State) : Prop := t = { s with weft := { s.weft with bolts := t.weft.bolts } }

theorem onlyBolts_modBolt (s : State) (id : Nat) (f : Bolt → Bolt) : onlyBolts s (s.modBolt id f) := rfl

theorem onlyBolts_trans {s t u : State} (ht : onlyBolts s t) (hu : onlyBolts t u) : onlyBolts s u := by
  unfold onlyBolts at *; rw [hu, ht]

/-- R74: a row that leaves the replay buffer, or stays. -/
theorem State.releaseRow_cases (s : State) (bolt row : Nat) : s.releaseRow bolt row = s ∨
    s.releaseRow bolt row = s.modRow bolt row (fun r => { r with held := false }) := by
  unfold State.releaseRow
  split
  · exact .inl rfl
  · dsimp only
    split
    · exact .inr rfl
    · exact .inl rfl

theorem onlyBolts_releaseRow (s : State) (bolt row : Nat) : onlyBolts s (s.releaseRow bolt row) := by
  rcases State.releaseRow_cases s bolt row with h | h
  · rw [h]; rfl
  · rw [h]; rfl

/-- R74: the results of a bolt stand when a row of it leaves the replay buffer. -/
theorem State.results_releaseRow {s : State} {bolt : Nat} {b : Bolt} (row : Nat) (h : s.bolt? bolt = some b) :
    ∃ b', (s.releaseRow bolt row).bolt? bolt = some b' ∧ b'.results = b.results := by
  rcases State.releaseRow_cases s bolt row with hr | hr
  · exact ⟨b, by rw [hr]; exact h, rfl⟩
  · have hmod := State.bolt?_modBolt (f := fun b => { b with
      rows := modWhere (fun r => r.index == row) (fun r => { r with held := false }) b.rows }) (fun _ => rfl) h
    rw [hr]
    exact ⟨_, hmod, rfl⟩

/-- R71: the flags of a record reach the completion of its bolt. -/
def Bolt.noteFlags (b : Bolt) (w : Nat) : Bolt := { b with nanSeen := b.nanSeen || bitOf w 36, satSeen := b.satSeen || bitOf w 35 }

/-- R71: a result whose record has left. -/
def Result.sent (r : Result) : Result := { r with emitted := true }

/-- R71: a bolt with the result of a row and a projection sent. -/
def Bolt.sendResult (b : Bolt) (row proj : Nat) : Bolt :=
  { b with results := modWhere (fun r => r.row == row && r.proj == proj) Result.sent b.results }

theorem State.recordLeft_eq (s : State) (e : Egress) : s.recordLeft e =
    ((s.modBolt e.bolt (fun b => b.noteFlags (leNat (e.bytes.take 8)))).modBolt e.bolt
      (fun b => b.sendResult e.row e.proj)).releaseRow e.bolt e.row := rfl

theorem onlyBolts_recordLeft (s : State) (e : Egress) : onlyBolts s (s.recordLeft e) := by
  rw [State.recordLeft_eq]
  exact onlyBolts_trans (onlyBolts_trans (onlyBolts_modBolt s e.bolt _) (onlyBolts_modBolt _ e.bolt _)) (onlyBolts_releaseRow _ _ _)

/-- R71: a result that is sent is found as before. -/
theorem Bolt.result?_sendResult {b : Bolt} {row proj : Nat} {r : Result} (h : b.result? row proj = some r) :
    (b.sendResult row proj).result? row proj = some r.sent := by
  have hfind : (b.sendResult row proj).result? row proj = (b.result? row proj).map Result.sent := find?_modWhere (fun _ => rfl)
  rw [hfind, h]
  rfl

/-- R71: the result of a record that has left. -/
theorem State.result_recordLeft {s : State} {e : Egress} {b : Bolt} {r : Result} (hb : s.bolt? e.bolt = some b)
    (hr : b.result? e.row e.proj = some r) :
    ∃ b', (s.recordLeft e).bolt? e.bolt = some b' ∧ b'.result? e.row e.proj = some r.sent := by
  have hflags := State.bolt?_modBolt (f := fun b => b.noteFlags (leNat (e.bytes.take 8))) (fun _ => rfl) hb
  have hsent := State.bolt?_modBolt (f := fun b => b.sendResult e.row e.proj) (fun _ => rfl) hflags
  obtain ⟨b', hb', hres⟩ := State.results_releaseRow e.row hsent
  have hr' : (b.noteFlags (leNat (e.bytes.take 8))).result? e.row e.proj = some r := hr
  refine ⟨b', hb', ?_⟩
  rw [Bolt.result?, hres]
  exact Bolt.result?_sendResult hr'

/-- The flying-shuttle measurement lies in LAST_CYCLES. -/
theorem rewrites_sprintBeat (s : State) (bolt : Nat) : rewrites s (s.sprintBeat bolt) [LS_SPRINT_EVENTS.LAST_CYCLES.off] := by
  unfold State.sprintBeat
  split
  · split
    · exact rewrites_set s _ _
    · exact rewrites_refl s _
  · exact rewrites_refl s _

theorem exec_egressRecordEmit (l : Fin 8) (s : State) : exec (.egressRecordEmit l) s = execEgressRecordEmit l s := rfl

/-- R72, R73: the oldest record that waits on a link leaves. -/
theorem exec_egressRecordEmit_oldest {s : State} {l : Fin 8} {e : Egress} {rest : List Egress} (hs : s.serving = true)
    (he : (s.link l.val).egress = e :: rest) : exec (.egressRecordEmit l) s = .next (s.after (((s.modLink l.val (fun x =>
      { x with egress := rest }.send ((runHeader 1 0 e.bolt).flatMap wordBytes ++ e.bytes))).recordLeft e).sprintBeat e.bolt)) := by
  simp [exec_egressRecordEmit, execEgressRecordEmit, hs, he]

/-- Settles O26: the run goes out on the link, `recordLeft` touches the bolt table alone, and `sprintBeat` LAST_CYCLES. -/
theorem egressRecordsLeaveInOrder : Obligations.EgressRecordsLeaveInOrder := by
  intro s l e rest hs he
  refine ⟨_, exec_egressRecordEmit_oldest hs he, ?_⟩
  set u := s.modLink l.val (fun x => { x with egress := rest }.send ((runHeader 1 0 e.bolt).flatMap wordBytes ++ e.bytes)) with hu
  have hleft := onlyBolts_recordLeft u e
  obtain ⟨hbeat, hwords⟩ := rewrites_sprintBeat (u.recordLeft e) e.bolt
  have hweft : (s.after ((u.recordLeft e).sprintBeat e.bolt)).weft = (u.recordLeft e).weft := by rw [State.after_weft, hbeat]
  refine ⟨?_, fun b r hb hr => ?_, fun off ho => ?_, ?_, ?_⟩
  · rw [hweft, hleft]; rfl
  · obtain ⟨b', hb', hr'⟩ := State.result_recordLeft (s := u) hb hr
    exact ⟨b', _, by rw [State.bolt?, hweft]; exact hb', hr', rfl, rfl⟩
  · rw [State.after_word, hwords off (by simpa using ho), hleft]; rfl
  · rw [State.after_heddle, hbeat, hleft]; rfl
  · rw [State.after_tiers, hbeat, hleft]; rfl

end Sys2Proof.Machine

/-! Turns and grouping windows (family 03_weft_port): the placing of turns, a window whose rows are all masked, and the statement
O30. -/

namespace Sys2Proof.Machine

/-! ## Turns (R307, R308) -/

/-- What each step of a fold keeps, the fold keeps. -/
theorem foldl_keeps {α β γ : Type} (g : α → γ) {f : α → β → α} (hf : ∀ s a, g (f s a) = g s) (l : List β) (s : α) :
    g (l.foldl f s) = g s := by
  induction l generalizing s with
  | nil => rfl
  | cons a l ih => exact (ih (f s a)).trans (hf s a)

/-- A fold of which no step on the list does anything. -/
theorem foldl_idle {α β : Type} {f : α → β → α} {l : List β} {s : α} (hf : ∀ a ∈ l, f s a = s) : l.foldl f s = s := by
  induction l with
  | nil => rfl
  | cons a l ih => rw [List.foldl_cons, hf a (by simp), ih (fun x hx => hf x (by simp [hx]))]

theorem State.harnesses_addCopy (s : State) (h : Nat) (g : Gang) (cells : List (Nat × Nat)) (pu : Purpose) (rows stash : List Nat)
    (kLo kHi copy last group first split : Nat) :
    (s.addCopy h g cells pu rows stash kLo kHi copy last group first split).heddle.harnesses = s.heddle.harnesses := by
  unfold State.addCopy
  refine foldl_keeps (fun u : State => u.heddle.harnesses) ?_ _ s
  exact fun _ _ => rfl

/-- R109: the picks of a placed gang join those of the engine; the Harnesses stand. -/
theorem State.harnesses_addPurpose (s : State) (h : Nat) (p : Placed) (pu : Purpose) :
    (s.addPurpose h p pu).heddle.harnesses = s.heddle.harnesses := by
  unfold State.addPurpose
  dsimp only
  split
  · refine foldl_keeps (fun u : State => u.heddle.harnesses) (fun t i => ?_) _ s
    refine foldl_keeps (fun u : State => u.heddle.harnesses) (fun u q => ?_) _ t
    split
    · rfl
    · exact State.harnesses_addCopy ..
  · exact foldl_keeps (fun u : State => u.heddle.harnesses) (fun t q => State.harnesses_addCopy ..) _ s
  · exact foldl_keeps (fun u : State => u.heddle.harnesses) (fun t q => State.harnesses_addCopy ..) _ s

theorem State.harnesses_addPlaced (s : State) (h : Nat) (p : Placed) : (s.addPlaced h p).heddle.harnesses = s.heddle.harnesses :=
  foldl_keeps (fun u : State => u.heddle.harnesses) (fun t pu => State.harnesses_addPurpose t h p pu) _ s

/-- R110, R308: the counts of a turn that is placed. -/
def State.countTurn (s : State) (h spans segs deferred : Nat) : State :=
  (((((s.bump (ALLOC_EVENTS.PLACEMENTS h)).bump (ALLOC_EVENTS.SPANNING h) spans).bump (ALLOC_EVENTS.DEFERRED h) deferred).set
    (ALLOC_STATUS.SEGMENTS_PLACED h) segs).set (ALLOC_STATUS.GANGS_DEFERRED h) deferred).bump SD_TURN_EVENTS.TURNS

theorem State.countTurn_heddle (s : State) (h spans segs deferred : Nat) : (s.countTurn h spans segs deferred).heddle = s.heddle := by
  rw [State.countTurn, State.bump_heddle, State.set_heddle, State.set_heddle, State.bump_heddle, State.bump_heddle, State.bump_heddle]

/-- R308: a turn that is placed adds picks, after its counts. -/
theorem State.placeTurn_eq (s : State) (h : Nat) (gs : List Gang) : ∃ (ps : List Placed) (spans segs deferred : Nat),
    (s.placeTurn h gs).1 = ps.foldl (fun t p => t.addPlaced h p) (s.countTurn h spans segs deferred) := by
  unfold State.placeTurn
  exact ⟨_, _, _, _, rfl⟩

theorem State.harnesses_placeTurn (s : State) (h : Nat) (gs : List Gang) :
    (s.placeTurn h gs).1.heddle.harnesses = s.heddle.harnesses := by
  obtain ⟨ps, spans, segs, deferred, hplace⟩ := State.placeTurn_eq s h gs
  rw [hplace, foldl_keeps (fun u : State => u.heddle.harnesses) (fun t p => State.harnesses_addPlaced t h p),
    State.countTurn_heddle]

/-- R307: the state in which the next turn of a window is placed, before TURN counts it. -/
theorem State.nextTurn_eq (s : State) (h : Nat) (w : Turns) : ∃ u : State,
    u.heddle.harnesses.length = s.heddle.harnesses.length ∧ (s.nextTurn h w).1 = u.set (SD_TURN_STATUS.TURN h) (w.placed + 1) := by
  refine ⟨_, ?_, rfl⟩
  split
  · split
    · exact (length_modAt _ _ _).trans (congrArg List.length (State.harnesses_placeTurn ..))
    · exact congrArg List.length (State.harnesses_placeTurn ..)
  · exact congrArg List.length (State.harnesses_placeTurn ..)

/-- A Harness of the engine after its change. -/
theorem State.harness_modHarness {s : State} {h : Nat} (f : Harness → Harness) (hl : h < s.heddle.harnesses.length) :
    (s.modHarness h f).harness h = f (s.harness h) := by
  have hx : s.heddle.harnesses[h]? = some (s.harness h) := by
    rw [State.harness, List.getD_eq_getElem?_getD, List.getElem?_eq_getElem hl, Option.getD_some]
  have hmod : (s.modHarness h f).harness h = (modAt s.heddle.harnesses h f).getD h {} := rfl
  rw [hmod, List.getD_eq_getElem?_getD, getElem?_modAt, if_pos rfl, hx]
  rfl

/-- A Harness with a window to place is one of the engine's. -/
theorem State.harness_lt {s : State} {h : Nat} (ht : (s.harness h).turns ≠ []) : h < s.heddle.harnesses.length := by
  by_contra hl
  refine ht ?_
  rw [State.harness, List.getD_eq_getElem?_getD, List.getElem?_eq_none (by omega)]
  rfl

theorem turn_apart (h : Nat) : (SD_TURN_STATUS.TURN h).off ≠ SD_TURN_EVENTS.SLICED_WINDOWS.off := by
  have hturn : (SD_TURN_STATUS.TURN h).off = 0x1800300 + h * 8 := rfl
  have hsliced : SD_TURN_EVENTS.SLICED_WINDOWS.off = 0x1800020 := rfl
  omega

/-- R307: the windows of a Harness once the next turn of its oldest window is placed. -/
def Harness.headPlaced (x : Harness) (q : Turns) (rest : List Turns) : Harness :=
  { x with turns := if q.more then q :: rest else rest }

/-- R307: the next turn of the oldest window is formed and placed; a window of two turns is counted as sliced. -/
theorem State.placeHead_eq {s : State} {h : Nat} {w : Turns} {rest : List Turns} (hw : (s.harness h).turns = w :: rest) :
    ∃ f : Bolt → Bolt, s.placeHead h =
      (if w.placed == 1 && (s.bolt? w.bolt).any (fun b => !b.sliced.contains w.window) then
        ((s.nextTurn h w).1.bump SD_TURN_EVENTS.SLICED_WINDOWS).modBolt w.bolt f
      else (s.nextTurn h w).1).modHarness h (fun x => x.headPlaced (s.nextTurn h w).2 rest) := by
  unfold State.placeHead
  rw [hw]
  exact ⟨_, rfl⟩

/-- R307, R308: what the placing of the next turn leaves of the windows of its Harness, and in TURN. -/
theorem State.placeHead_shows {s : State} {h : Nat} {w : Turns} {rest : List Turns} (hw : (s.harness h).turns = w :: rest) :
    let q := (s.nextTurn h w).2
    ((s.placeHead h).harness h).turns = (if q.more then q :: rest else rest) ∧
      (s.placeHead h).get (SD_TURN_STATUS.TURN h) = (w.placed + 1) % 2 ^ fldWidth (SD_TURN_STATUS.TURN h) := by
  obtain ⟨u, hlen, hu⟩ := State.nextTurn_eq s h w
  obtain ⟨f, hplace⟩ := State.placeHead_eq hw
  have hlt : h < u.heddle.harnesses.length := by rw [hlen]; exact State.harness_lt (by rw [hw]; simp)
  rw [hplace, hu]
  generalize (s.nextTurn h w).2 = q
  dsimp only
  have hturn : (u.set (SD_TURN_STATUS.TURN h) (w.placed + 1)).get (SD_TURN_STATUS.TURN h) =
      (w.placed + 1) % 2 ^ fldWidth (SD_TURN_STATUS.TURN h) :=
    State.get_set_self u _ _ (by simp [SD_TURN_STATUS.TURN]) (by simp [SD_TURN_STATUS.TURN])
  split
  · refine ⟨congrArg Harness.turns (State.harness_modHarness _ hlt), ?_⟩
    rw [State.modHarness_get, State.modBolt_get,
      State.get_bump_apart _ _ _ _ (by decide) (by decide) (.inl (turn_apart h)), hturn]
  · exact ⟨congrArg Harness.turns (State.harness_modHarness _ hlt), by rw [State.modHarness_get, hturn]⟩

theorem exec_turnPlace (h : Fin 8) (s : State) : exec (.turnPlace h) s = execTurnPlace h s := rfl

/-- R308: TURN_PLACE, where a window waits in the Harness. -/
theorem exec_turnPlace_window {s : State} {h : Fin 8} {w : Turns} {rest : List Turns} (hs : s.serving = true)
    (hw : (s.harness h.val).turns = w :: rest) : exec (.turnPlace h) s =
      .next (s.after (if s.turnIssued h.val w then s.placeHead h.val else s)) := by
  simp [exec_turnPlace, execTurnPlace, hw, hs]

theorem exec_turnPlace_none {s : State} {h : Fin 8} (hw : (s.harness h.val).turns = []) : exec (.turnPlace h) s = .next s := by
  simp [exec_turnPlace, execTurnPlace, hw]


/-! ## A window whose rows are all masked (R69, R122) -/

theorem mem_insertBy {α : Type} {lt : α → α → Bool} {x y : α} {l : List α} : y ∈ insertBy lt x l ↔ y = x ∨ y ∈ l := by
  induction l with
  | nil => simp [insertBy]
  | cons a l ih =>
    unfold insertBy
    split
    · simp
    · simp only [List.mem_cons, ih]
      tauto

/-- Sorting keeps the elements. -/
theorem mem_sortBy {α : Type} {lt : α → α → Bool} {y : α} {l : List α} : y ∈ sortBy lt l ↔ y ∈ l := by
  have hfold : ∀ (l acc : List α), y ∈ l.foldl (fun acc x => insertBy lt x acc) acc ↔ y ∈ l ∨ y ∈ acc := by
    intro l
    induction l with
    | nil => simp
    | cons a l ih =>
      intro acc
      rw [List.foldl_cons, ih, mem_insertBy, List.mem_cons]
      tauto
  simpa [sortBy] using hfold l []

/-- R122: the rows of a window are rows of the bolt. -/
theorem State.mem_windowRows {s : State} {b : Bolt} {r : Row} (h : r ∈ s.windowRows b) : r ∈ b.rows :=
  List.mem_of_mem_filter (List.mem_of_mem_take (mem_sortBy.mp h))

/-- R122: what the rest of a window's grouping leaves of a bolt all of whose rows are masked. -/
structure Bolt.GoesOn (b b' : Bolt) : Prop where
  id : b'.id = b.id
  desc : b'.desc = b.desc
  windows : b'.windows = b.windows
  sprint : b'.sprint = b.sprint
  remote : b'.remote = b.remote
  results : b.results ⊆ b'.results
  rows : ∀ r' ∈ b'.rows, ∃ r ∈ b.rows, r'.index = r.index ∧ r'.mask = r.mask ∧ r'.grouped = r.grouped

theorem Bolt.GoesOn.refl (b : Bolt) : b.GoesOn b := ⟨rfl, rfl, rfl, rfl, rfl, List.Subset.refl _, fun r h => ⟨r, h, rfl, rfl, rfl⟩⟩

theorem Bolt.GoesOn.trans {a b c : Bolt} (h : a.GoesOn b) (k : b.GoesOn c) : a.GoesOn c where
  id := k.id.trans h.id
  desc := k.desc.trans h.desc
  windows := k.windows.trans h.windows
  sprint := k.sprint.trans h.sprint
  remote := k.remote.trans h.remote
  results := List.Subset.trans h.results k.results
  rows := fun r'' h'' => by
    obtain ⟨r', h', hi', hm', hg'⟩ := k.rows r'' h''
    obtain ⟨r, hr, hi, hm, hg⟩ := h.rows r' h'
    exact ⟨r, hr, hi'.trans hi, hm'.trans hm, hg'.trans hg⟩

/-- A change of rows that keeps index, metadata and grouping. -/
theorem Bolt.goesOn_modRows (b : Bolt) (p : Row → Bool) {f : Row → Row}
    (hf : ∀ r, (f r).index = r.index ∧ (f r).mask = r.mask ∧ (f r).grouped = r.grouped) :
    b.GoesOn { b with rows := modWhere p f b.rows } where
  id := rfl
  desc := rfl
  windows := rfl
  sprint := rfl
  remote := rfl
  results := List.Subset.refl _
  rows := fun r' h' => by
    obtain ⟨r, hr, rfl⟩ := List.mem_map.mp h'
    refine ⟨r, hr, ?_⟩
    split
    · exact hf r
    · exact ⟨rfl, rfl, rfl⟩

/-- R122: from a state whose only bolt is local, one in which that bolt has gone on, and nothing else but the window and the Weft port
has changed. -/
structure GroupsOn (s t : State) (b b' : Bolt) : Prop where
  frame : t = { s with regs := t.regs, weft := t.weft }
  alone : t.weft.bolts = [b']
  bolt : b.GoesOn b'

theorem GroupsOn.refl {s : State} {b : Bolt} (h : s.weft.bolts = [b]) : GroupsOn s s b b := ⟨rfl, h, .refl b⟩

theorem GroupsOn.trans {s t u : State} {a b c : Bolt} (h : GroupsOn s t a b) (k : GroupsOn t u b c) : GroupsOn s u a c :=
  ⟨by rw [k.frame, h.frame], k.alone, h.bolt.trans k.bolt⟩

theorem GroupsOn.modBolt {s : State} {b : Bolt} (h : s.weft.bolts = [b]) (id : Nat) {f : Bolt → Bolt} (hf : b.GoesOn (f b)) :
    GroupsOn s (s.modBolt id f) b (if b.id == id then f b else b) := by
  refine ⟨rfl, ?_, ?_⟩
  · change modWhere (·.id == id) f s.weft.bolts = _
    rw [h]
    rfl
  · split
    · exact hf
    · exact .refl b

theorem State.bolt?_alone {s : State} {b : Bolt} (h : s.weft.bolts = [b]) : s.bolt? b.id = some b := by
  simp [State.bolt?, h]

theorem State.eq_of_bolt?_alone {s : State} {b c : Bolt} {id : Nat} (h : s.weft.bolts = [b]) (hc : s.bolt? id = some c) : c = b := by
  have hmem : c ∈ s.weft.bolts := List.mem_of_find?_eq_some hc
  rw [h] at hmem
  exact List.mem_singleton.mp hmem

/-- R71: the record of a local bolt's result goes to a link. -/
theorem GroupsOn.sendRecord {s : State} {b : Bolt} (h : s.weft.bolts = [b]) (hl : b.remote = none) (i : Nat) (e : Egress) :
    GroupsOn s (s.sendRecord i e) b b := by
  unfold State.sendRecord
  split
  · exact .refl h
  · next c hc =>
    rw [State.eq_of_bolt?_alone h hc, hl]
    exact ⟨rfl, h, .refl b⟩

theorem GroupsOn.answer {s : State} {b : Bolt} (h : s.weft.bolts = [b]) (hl : b.remote = none) (i bolt row proj : Nat)
    (data : List Byte) (nan sat : Bool) : GroupsOn s (s.answer i bolt row proj data nan sat) b b := by
  unfold State.answer
  split
  · exact .refl h
  · split
    · exact .refl h
    · split
      · exact .refl h
      · exact .sendRecord h hl i _

/-- R69: the result of a row that is not APPLIED. -/
def Judged.result (j : Judged) : Result :=
  { row := j.row.index, proj := j.proj, status := j.status, adapter := j.row.adapter, harness := j.row.link, table := j.row.embed }

/-- R69: an outcome MASKED. -/
def Judged.masked (j : Judged) : Prop := j.status = 1 ∧ j.bad = []

/-- R69: a bolt with one result more. -/
def Bolt.answered (b : Bolt) (j : Judged) : Bolt :=
  { b with results := b.results ++ [j.result], tierTimeout := b.tierTimeout || (j.status == 4 && j.gone),
           tierError := b.tierError || (j.status == 4 && !j.gone) }

/-- R69: a MASKED outcome is answered: its result joins the bolt's. -/
theorem State.answerOut_masked {s : State} {b : Bolt} {j : Judged} (hj : j.masked) (owner : Nat) : s.answerOut b j owner =
    ((s.modBolt b.id (fun x => x.answered j)).bump (SD_ROW_EVENTS.ROWS_COMPACTED j.row.link)).answer j.row.link b.id j.row.index
      j.proj [] false false := by
  obtain ⟨hst, hbad⟩ := hj
  have hother : (j.status == 3) = false := by rw [hst]; rfl
  unfold State.answerOut
  rw [hother, hbad]
  rfl

theorem Bolt.goesOn_answered (b : Bolt) (j : Judged) : b.GoesOn (b.answered j) :=
  ⟨rfl, rfl, rfl, rfl, rfl, List.subset_append_left _ _, fun r h => ⟨r, h, rfl, rfl, rfl⟩⟩

theorem GroupsOn.answerOut {s : State} {b b₀ : Bolt} (h : s.weft.bolts = [b]) (hl : b.remote = none) (hid : b₀.id = b.id)
    {j : Judged} (hj : j.masked) (owner : Nat) : GroupsOn s (s.answerOut b₀ j owner) b (b.answered j) := by
  rw [State.answerOut_masked hj, hid]
  have hmod := GroupsOn.modBolt h b.id (f := fun x => x.answered j) (Bolt.goesOn_answered b j)
  rw [if_pos (by simp)] at hmod
  have hans := GroupsOn.answer (s := (s.modBolt b.id (fun x => x.answered j)).bump (SD_ROW_EVENTS.ROWS_COMPACTED j.row.link))
    (b := b.answered j) hmod.alone hl j.row.link b.id j.row.index j.proj [] false false
  have hbump : GroupsOn (s.modBolt b.id (fun x => x.answered j))
      ((s.modBolt b.id (fun x => x.answered j)).bump (SD_ROW_EVENTS.ROWS_COMPACTED j.row.link)) (b.answered j) (b.answered j) :=
    ⟨rfl, hmod.alone, .refl _⟩
  exact hmod.trans (hbump.trans hans)

/-- R69: MASKED outcomes are answered one after another, and each leaves its result. -/
theorem GroupsOn.answerAll {b₀ : Bolt} (owner : State → Judged → Nat) {js : List Judged} (hjs : ∀ j ∈ js, j.masked) {s : State}
    {b : Bolt} (h : s.weft.bolts = [b]) (hl : b.remote = none) (hid : b₀.id = b.id) :
    ∃ b', GroupsOn s (js.foldl (fun t j => t.answerOut b₀ j (owner t j)) s) b b' ∧ ∀ j ∈ js, j.result ∈ b'.results := by
  induction js generalizing s b with
  | nil => exact ⟨b, .refl h, by simp⟩
  | cons j js ih =>
    have hone := GroupsOn.answerOut (b₀ := b₀) h hl hid (hjs j (by simp)) (owner s j)
    obtain ⟨b', hrest, hres⟩ := ih (fun x hx => hjs x (by simp [hx])) hone.alone hl hid
    refine ⟨b', hone.trans hrest, fun x hx => ?_⟩
    rcases List.mem_cons.mp hx with rfl | hx
    · exact hrest.bolt.results (by simp [Bolt.answered])
    · exact hres x hx

/-- R74: rows leave the replay buffer, or stay. -/
theorem GroupsOn.releaseRow {s : State} {b : Bolt} (h : s.weft.bolts = [b]) (bolt row : Nat) :
    ∃ b', GroupsOn s (s.releaseRow bolt row) b b' := by
  rcases State.releaseRow_cases s bolt row with hr | hr
  · rw [hr]
    exact ⟨b, .refl h⟩
  · rw [hr]
    exact ⟨_, GroupsOn.modBolt h bolt (f := fun x => { x with
      rows := modWhere (·.index == row) (fun r => { r with held := false }) x.rows })
      (b.goesOn_modRows _ (fun _ => ⟨rfl, rfl, rfl⟩))⟩

theorem GroupsOn.releaseRows {s : State} {b : Bolt} (h : s.weft.bolts = [b]) (bolt : Nat) :
    ∃ b', GroupsOn s (s.releaseRows bolt) b b' := by
  have hall : ∀ (l : List Nat) (t : State) (c : Bolt), t.weft.bolts = [c] →
      ∃ b', GroupsOn t (l.foldl (fun t i => t.releaseRow bolt i) t) c b' := by
    intro l
    induction l with
    | nil => exact fun t c hc => ⟨c, .refl hc⟩
    | cons i l ih =>
      intro t c hc
      obtain ⟨c', hone⟩ := GroupsOn.releaseRow hc bolt i
      obtain ⟨b', hrest⟩ := ih _ c' hone.alone
      exact ⟨b', hone.trans hrest⟩
  unfold State.releaseRows
  split
  · exact ⟨b, .refl h⟩
  · exact hall _ s b h

/-- R232: masked rows form no bag. -/
theorem State.bagsDue_masked (s : State) {b : Bolt} (h : ∀ r ∈ b.rows, r.mask = true) : s.bagsDue b = [] := by
  have hnone : b.rows.filter (fun r => r.grouped && !r.bagged) = [] :=
    List.filter_eq_nil_iff.mpr (fun r hr => by simp [Row.bagged, h r hr])
  simp [State.bagsDue, hnone, sortBy, bagRuns]

/-- R232: a bolt with the rows of bags that are formed marked. -/
def Bolt.pool (b : Bolt) (done : Row → Bool) : Bolt := { b with rows := modWhere done (fun r => { r with pooled := true }) b.rows }

/-- R232 to R236: a bolt all of whose rows are masked forms no bag, and no Harness takes a pointer. -/
theorem State.formBags_masked {s : State} {b : Bolt} (h : s.weft.bolts = [b]) (hm : ∀ r ∈ b.rows, r.mask = true)
    (hj : ∀ i < 8, (s.spindle i).jobs = []) (window : Nat) :
    s.formBags b.id window = s.modBolt b.id (fun y => y.pool (fun _ => false)) := by
  unfold State.formBags
  rw [State.bolt?_alone h]
  dsimp only
  rw [State.bagsDue_masked s hm, List.foldl_nil]
  refine foldl_idle fun i hi => ?_
  have hjobs := hj i (List.mem_range.mp hi)
  unfold State.spindle at hjobs ⊢
  rw [State.modBolt_spindles, hjobs]
  rfl

theorem GroupsOn.formBags {s : State} {b : Bolt} (h : s.weft.bolts = [b]) (hm : ∀ r ∈ b.rows, r.mask = true)
    (hj : ∀ i < 8, (s.spindle i).jobs = []) (window : Nat) : ∃ b', GroupsOn s (s.formBags b.id window) b b' := by
  rw [State.formBags_masked h hm hj]
  exact ⟨_, GroupsOn.modBolt h b.id (f := fun y => y.pool (fun _ => false)) (b.goesOn_modRows _ (fun _ => ⟨rfl, rfl, rfl⟩))⟩

/-- R310: a window without an APPLIED row runs nothing. -/
theorem State.runWindow_none {s : State} {b c : Bolt} (window : Nat) {js : List Judged} (hc : s.bolt? b.id = some c)
    (hs : c.sprint = false) (hjs : ∀ j ∈ js, j.status ≠ 0) : s.runWindow b window js = s := by
  have hnone : js.filter (fun j => j.status == 0 && j.owner == .here) = [] :=
    List.filter_eq_nil_iff.mpr (fun j hj => by simp [hjs j hj])
  unfold State.runWindow
  rw [hc]
  dsimp only
  rw [hs, hnone]
  rfl

/-- R69: every outcome of masked rows is MASKED. -/
theorem State.judgeRows_masked (s : State) (b : Bolt) {rows : List Row} (h : ∀ r ∈ rows, r.mask = true) :
    s.judgeRows b rows = rows.flatMap (fun r => (dProjs b.desc).map (fun p => { row := r, proj := p, status := 1 })) := by
  have hall : rows.filter (fun r => !(r.embed && !r.mask)) = rows := List.filter_eq_self.mpr (fun r hr => by simp [h r hr])
  unfold State.judgeRows
  rw [hall]
  refine List.flatMap_congr fun r hr => List.map_congr_left fun p _ => ?_
  simp [State.judge, h r hr]

/-- R122: a bolt whose rows of its n-th window are grouped. -/
def Bolt.windowed (b : Bolt) (n : Nat) (rows : List Row) : Bolt :=
  { b with windows := n, checking := false,
           rows := modWhere (fun r => rows.any (fun q => q.index == r.index)) (fun r => { r with grouped := true }) b.rows }

/-- R122: the rows of a bolt, once those of a window are grouped. -/
theorem Bolt.mem_windowed {b : Bolt} {n : Nat} {rows : List Row} {r : Row} (h : r ∈ (b.windowed n rows).rows) :
    (∃ r₀ ∈ b.rows, r.mask = r₀.mask) ∧ ∀ q ∈ rows, q.index = r.index → r.grouped = true := by
  obtain ⟨r₀, hr₀, rfl⟩ := List.mem_map.mp h
  refine ⟨⟨r₀, hr₀, by split <;> rfl⟩, fun q hq hidx => ?_⟩
  split
  · rfl
  · next hmiss =>
    rw [if_neg hmiss] at hidx
    exact absurd (List.any_eq_true.mpr ⟨q, hq, by simp [hidx]⟩) hmiss

/-- R69: the outcomes of masked rows. -/
def maskedOutcomes (b : Bolt) (rows : List Row) : List Judged :=
  rows.flatMap (fun r => (dProjs b.desc).map (fun p => { row := r, proj := p, status := 1 }))

theorem maskedOutcomes_masked {b : Bolt} {rows : List Row} : ∀ j ∈ maskedOutcomes b rows, j.masked := by
  intro j hj
  obtain ⟨r, -, hj⟩ := List.mem_flatMap.mp hj
  obtain ⟨p, -, rfl⟩ := List.mem_map.mp hj
  exact ⟨rfl, rfl⟩

/-- R122: the grouping of a window of masked rows, piece by piece. -/
theorem State.groupWindow_masked {s : State} {b : Bolt} (hm : ∀ r ∈ b.rows, r.mask = true) (hf : b.findsMode = false)
    (hw : s.windowRows b ≠ []) : ∃ owner : State → Judged → Nat,
      s.groupWindow b = ((((maskedOutcomes b (s.windowRows b)).foldl (fun t j => t.answerOut b j (owner t j))
        (s.modBolt b.id (fun y => y.windowed (b.windows + 1) (s.windowRows b)))).formBags b.id (b.windows + 1)).runWindow b
          (b.windows + 1) ((maskedOutcomes b (s.windowRows b)).filter (fun j => !j.row.spoiled))).releaseRows b.id := by
  have hempty : (s.windowRows b).isEmpty = false := by simpa using hw
  have hmask : ∀ r ∈ s.windowRows b, r.mask = true := fun r hr => hm r (State.mem_windowRows hr)
  have hasks : (s.windowRows b ++ []).filter (fun r : Row => !r.embed && !r.mask) = [] :=
    List.filter_eq_nil_iff.mpr (fun r hr => by simp [hmask r (by simpa using hr)])
  refine ⟨fun t j => ((t.dir? j.row.adapter).map Dir.tenant).getD 0, ?_⟩
  unfold State.groupWindow
  dsimp only
  rw [hf, hempty]
  simp only [Bool.false_eq_true, if_false, Bool.false_and]
  rw [hasks, State.judgeRows_masked _ b hmask, ← maskedOutcomes]
  refine congrArg (fun u => ((State.formBags u b.id _).runWindow b _ _).releaseRows b.id) (List.foldl_ext _ _ _ fun t j hj => ?_)
  rw [(maskedOutcomes_masked j hj).1]
  rfl

/-- R122: the rest of a window's grouping, once each of its rows is answered. -/
theorem GroupsOn.windowEnd {s : State} {b c : Bolt} (h : s.weft.bolts = [c]) (hid : c.id = b.id) (hm : ∀ r ∈ c.rows, r.mask = true)
    (hs : c.sprint = false) (hj : ∀ i < 8, (s.spindle i).jobs = []) (n : Nat) {js : List Judged} (hjs : ∀ j ∈ js, j.status ≠ 0) :
    ∃ b', GroupsOn s (((s.formBags b.id n).runWindow b n js).releaseRows b.id) c b' := by
  obtain ⟨c', hbags⟩ := GroupsOn.formBags h hm hj n
  obtain ⟨b', hrelease⟩ := GroupsOn.releaseRows hbags.alone b.id
  have hfound := State.bolt?_alone hbags.alone
  rw [hbags.bolt.id] at hfound
  rw [hid] at hbags hrelease hfound
  rw [State.runWindow_none n hfound (hbags.bolt.sprint.trans hs) hjs]
  exact ⟨b', hbags.trans hrelease⟩

/-- R69, R122: the grouping of a window of the only bolt, local, whose rows are all masked. -/
theorem GroupsOn.groupWindow {s : State} {b : Bolt} (h : s.weft.bolts = [b]) (hl : b.remote = none)
    (hm : ∀ r ∈ b.rows, r.mask = true) (hs : b.sprint = false) (hf : b.findsMode = false) (hj : ∀ i < 8, (s.spindle i).jobs = [])
    (hw : s.windowRows b ≠ []) :
    ∃ b', GroupsOn (s.modBolt b.id (fun y => y.windowed (b.windows + 1) (s.windowRows b))) (s.groupWindow b)
      (b.windowed (b.windows + 1) (s.windowRows b)) b' ∧ ∀ j ∈ maskedOutcomes b (s.windowRows b), j.result ∈ b'.results := by
  obtain ⟨owner, hgroup⟩ := State.groupWindow_masked hm hf hw
  have hstart : (s.modBolt b.id (fun y => y.windowed (b.windows + 1) (s.windowRows b))).weft.bolts =
      [b.windowed (b.windows + 1) (s.windowRows b)] := by
    change modWhere (·.id == b.id) _ s.weft.bolts = _
    rw [h]
    simp [modWhere]
  obtain ⟨c, hanswers, hresults⟩ := GroupsOn.answerAll (b₀ := b) owner (js := maskedOutcomes b (s.windowRows b))
    maskedOutcomes_masked hstart hl rfl
  have hmask : ∀ r ∈ c.rows, r.mask = true := fun r hr => by
    obtain ⟨r₀, hr₀, -, hkept, -⟩ := hanswers.bolt.rows r hr
    obtain ⟨⟨r₁, hr₁, hkept₁⟩, -⟩ := Bolt.mem_windowed hr₀
    rw [hkept, hkept₁, hm r₁ hr₁]
  rw [hgroup]
  generalize (maskedOutcomes b (s.windowRows b)).foldl _ _ = u at hanswers ⊢
  obtain ⟨b', hend⟩ := GroupsOn.windowEnd (b := b) hanswers.alone hanswers.bolt.id hmask (hanswers.bolt.sprint.trans hs)
    (fun i hi => by rw [hanswers.frame]; exact hj i hi) (b.windows + 1)
    (js := (maskedOutcomes b (s.windowRows b)).filter (fun j => !j.row.spoiled))
    (fun j hj => by rw [(maskedOutcomes_masked j (List.mem_of_mem_filter hj)).1]; decide)
  exact ⟨b', hanswers.trans hend, fun j hj => hend.bolt.results (hresults j hj)⟩

/-! ## GROUPING_WINDOW_CLOSE (R122) -/

theorem exec_groupingWindowClose (id : BitVec 32) (s : State) :
    exec (.groupingWindowClose id) s = execGroupingWindowClose id s := rfl

theorem exec_groupingWindowClose_none {s : State} {id : BitVec 32} (hn : s.named id.toNat s.windowCloses = none) :
    exec (.groupingWindowClose id) s = .next s := by
  simp [exec_groupingWindowClose, execGroupingWindowClose, hn]

/-- R122: the window of a bolt that may close does. -/
theorem exec_groupingWindowClose_some {s : State} {id : BitVec 32} {b : Bolt} (hs : s.serving = true)
    (hn : s.named id.toNat s.windowCloses = some b) :
    exec (.groupingWindowClose id) s = .next (s.after (s.closeWindow b).carryOn) := by
  simp [exec_groupingWindowClose, execGroupingWindowClose, hs, hn]

/-- R122, R249: in a state at rest, a window whose grouping asks for no tile closes at once, and nothing else goes on. -/
theorem exec_groupingWindowClose_rest {s t : State} {id : BitVec 32} {b : Bolt} (hs : s.serving = true) (hr : s.atRest)
    (hn : s.named id.toNat s.windowCloses = some b) (hgroup : s.opened.groupWindow b = t.opened)
    (ht : t = { s with regs := t.regs, weft := t.weft }) : exec (.groupingWindowClose id) s = .next t := by
  have hidle := hr
  obtain ⟨⟨htry, hwant, hstarve, -⟩, -⟩ := hidle
  have htiers : t.tiers = s.tiers := by rw [ht]
  have hclose : s.closeWindow b = t := by
    rw [State.closeWindow, State.attempt_opened htry hgroup (by rw [htiers, htry]) (by rw [htiers, hwant]) (by rw [htiers, hstarve])]
    rfl
  have hrest : t.atRest := State.atRest_of hr htiers (by rw [ht]) (by rw [ht])
  rw [exec_groupingWindowClose_some hs hn, hclose, State.carryOn_atRest hrest, State.after_eq s t (by rw [ht]) (by rw [ht])]

/-- Settles O30: a window of masked rows is answered row by row and asks for nothing, and TURN_PLACE is `placeHead`. -/
theorem windowsAndTurnsGoForward : Obligations.WindowsAndTurnsGoForward := by
  intro s id h hs
  refine ⟨exec_groupingWindowClose_none, fun b hn => ⟨exec_groupingWindowClose_some hs hn, fun hr hb hl hm _ hsp hf hj hw => ?_⟩,
    fun w rest hw => ⟨fun hi => ?_, fun hi => ?_⟩, exec_turnPlace_none⟩
  · obtain ⟨b', hgroup, hres⟩ := GroupsOn.groupWindow (s := s.opened) hb hl hm hsp hf hj hw
    have hopen : s.opened.groupWindow b = State.opened { s with
        regs := (s.opened.groupWindow b).regs, weft := (s.opened.groupWindow b).weft } := by
      rw [hgroup.frame]
      rfl
    refine ⟨_, b', exec_groupingWindowClose_rest hs hr hn hopen rfl, hgroup.alone, hgroup.bolt.windows, fun r hmem r' hr' hidx => ?_,
      fun r hmem p hp => ?_, rfl, rfl⟩
    · obtain ⟨r₀, hr₀, hidx₀, -, hgrouped⟩ := hgroup.bolt.rows r' hr'
      rw [hgrouped]
      exact (Bolt.mem_windowed hr₀).2 r hmem (hidx.symm.trans hidx₀)
    · have hout : ({ row := r, proj := p, status := 1 } : Judged) ∈ maskedOutcomes b (s.windowRows b) :=
        List.mem_flatMap.mpr ⟨r, hmem, List.mem_map.mpr ⟨p, hp, rfl⟩⟩
      exact ⟨_, hres _ hout, rfl, rfl, rfl⟩
  · obtain ⟨hturns, hcount⟩ := State.placeHead_shows hw
    exact ⟨s.after (s.placeHead h.val), _, by rw [exec_turnPlace_window hs hw, if_pos hi], rfl, rfl, hturns, hcount⟩
  · rw [exec_turnPlace_window hs hw, if_neg (by simp [hi]), State.after_self]

end Sys2Proof.Machine

/-! The queues of the cores and their power (family 04_heddle_cores): changes of one core and of one pick, and the statements O28 and
O32. -/

namespace Sys2Proof.Machine

/-! ## One core, one pick -/

/-- What a change leaves of its own core, it leaves of every core. -/
theorem State.core_modCore_keeps {γ : Type} (g : Core → γ) {f : Core → Core} (hg : ∀ k, g (f k) = g k) (s : State) (h c h' c' : Nat) :
    g ((s.modCore h c f).core h' c') = g (s.core h' c') := by
  by_cases hk : coreKey h' c' = coreKey h c
  · have hcore : ∀ u : State, u.core h' c' = u.core h c := fun u => by rw [State.core, State.core, hk]
    rw [hcore, hcore, State.core_modCore_self, hg]
  · rw [State.core_modCore_ne s f hk]

/-- The pick of an ID after its change. -/
theorem State.pick?_modPick (s : State) (id : Nat) {f : Pick → Pick} (hf : ∀ p, (f p).id = p.id) :
    (s.modPick id f).pick? id = (s.pick? id).map f := find?_modWhere (fun p => by rw [hf])

/-! ## PICK_ENQUEUE (R96, R313) -/

/-- R96: a pick enters the queue of its core. -/
def State.queuePick (s : State) (h c : Nat) (p : Pick) : State :=
  (s.modCore h c (fun k => { k with queue := s.enqueue (s.core h c).queue p })).modPick p.id (fun q => { q with queued := true })

theorem State.core_queuePick (s : State) (h c : Nat) (p : Pick) :
    ((s.queuePick h c p).core h c).queue = s.enqueue (s.core h c).queue p :=
  congrArg Core.queue (State.core_modCore_self s h c (fun k => { k with queue := s.enqueue (s.core h c).queue p }))

theorem State.pick?_queuePick {s : State} {h c : Nat} {p q : Pick} (hq : (s.queuePick h c p).pick? p.id = some q) : q.queued = true := by
  rw [State.queuePick, State.pick?_modPick] at hq
  · obtain ⟨x, -, rfl⟩ := Option.map_eq_some_iff.mp hq
    rfl
  · exact fun _ => rfl

/-- R96: a pick of no flying-shuttle bolt enters behind those that wait. -/
theorem State.enqueue_plain (s : State) (q : List Nat) {p : Pick} (hp : p.sprint = false) : s.enqueue q p = q ++ [p.id] := by
  simp [State.enqueue, hp]

/-- R313: is this queued pick one that a flying-shuttle pick does not overtake? -/
def State.keepsPlace (s : State) (i : Nat) : Bool := (s.pick? i).any (fun x => x.sprint || x.issued != 0)

/-- R313: a flying-shuttle pick enters behind the first picks that keep their places. -/
theorem State.enqueue_sprint (s : State) (q : List Nat) {p : Pick} (hp : p.sprint = true) :
    s.enqueue q p = q.takeWhile s.keepsPlace ++ [p.id] ++ q.dropWhile s.keepsPlace := by
  rw [State.enqueue, if_pos hp]
  rfl

/-- The test fails where the first run of a list that meets it ends. -/
theorem dropWhile_head_fails {α : Type} {p : α → Bool} {l : List α} {x : α} (h : (l.dropWhile p).head? = some x) : p x = false := by
  have hnot := List.head?_dropWhile_not p l
  rwa [h] at hnot

theorem exec_pickEnqueue (h : Fin 8) (c : Fin 66) (s : State) : exec (.pickEnqueue h c) s = execPickEnqueue h c s := rfl

section
variable {s : State} {h : Fin 8} {c : Fin 66} {p : Pick}

theorem exec_pickEnqueue_none (hn : s.nextQueued h.val c.val = none) : exec (.pickEnqueue h c) s = .next s := by
  rw [exec_pickEnqueue, execPickEnqueue, hn, State.after_self]

theorem exec_pickEnqueue_some (hs : s.serving = true) (hn : s.nextQueued h.val c.val = some p) : exec (.pickEnqueue h c) s =
    .next (if (s.core h.val c.val).queue.length < 16 then s.queuePick h.val c.val p else s) := by
  rw [exec_pickEnqueue, execPickEnqueue, hn]
  by_cases hroom : (s.core h.val c.val).queue.length < 16
  · simp only [hs, hroom, decide_true, Bool.and_self, if_true]
    rfl
  · simp [hroom]

end

/-- Settles O28: the pick that `nextQueued` finds enters the queue where `enqueue` places it, while there is room. -/
theorem picksEnterTheQueueOfTheirCore : Obligations.PicksEnterTheQueueOfTheirCore := by
  intro s h c hs due q
  refine ⟨fun p hp => ?_, fun hdue => exec_pickEnqueue_none ?_⟩
  · have hnext : s.nextQueued h.val c.val = some p := Option.or_eq_some_iff.mpr hp
    rw [exec_pickEnqueue_some hs hnext]
    refine ⟨fun hroom => ⟨s.queuePick h.val c.val p, by rw [if_pos hroom], fun x hx => State.pick?_queuePick hx, rfl, rfl, rfl,
      fun hplain => ?_, fun hsprint => ⟨q.takeWhile s.keepsPlace, q.dropWhile s.keepsPlace, List.takeWhile_append_dropWhile.symm, ?_,
        fun i hi => List.mem_takeWhile_imp (p := s.keepsPlace) hi, fun i hi => dropWhile_head_fails (p := s.keepsPlace) hi⟩⟩,
      fun hfull => by rw [if_neg (Nat.not_lt.mpr hfull)]⟩
    · rw [State.core_queuePick, State.enqueue_plain s q hplain]
    · rw [State.core_queuePick, State.enqueue_sprint s q hsprint]
  · show (due.find? Pick.sprint).or due.head? = none
    rw [hdue]
    rfl

/-! ## CORE_GATE and CORE_RAMP (R112 to R114, R314) -/

theorem exec_coreGate (h : Fin 8) (c : Fin 66) (s : State) : exec (.coreGate h c) s = execCoreGate h c s := rfl

theorem exec_coreRamp (h : Fin 8) (c : Fin 66) (s : State) : exec (.coreRamp h c) s = execCoreRamp h c s := rfl

section
variable {s : State} {h : Fin 8} {c : Fin 66}

/-- R112: an idle core that nothing holds on gates. -/
theorem exec_coreGate_gates (hs : s.serving = true) (hon : (s.core h.val c.val).power = .on) (hidle : (s.core h.val c.val).blocks = [])
    (hfree : s.heldOn h.val c.val = false) :
    exec (.coreGate h c) s = .next (s.modCore h.val c.val (fun k => { k with power := .gated })) := by
  rw [exec_coreGate, execCoreGate]
  simp only [hs, hon, hidle, hfree]
  rfl

theorem exec_coreGate_stays (hstays : (s.core h.val c.val).blocks ≠ [] ∨ s.heldOn h.val c.val = true ∨
    (s.core h.val c.val).power ≠ .on) : exec (.coreGate h c) s = .next s := by
  rw [exec_coreGate, execCoreGate]
  rcases hstays with hblocks | hheld | hoff
  · simp [hblocks]
  · simp [hheld]
  · simp [hoff]

/-- R113: a core that is due ramps up, which counts. -/
theorem exec_coreRamp_ramps (hs : s.serving = true) (hoff : (s.core h.val c.val).power ≠ .on) (hdue : s.rampDue h.val c.val = true) :
    exec (.coreRamp h c) s =
      .next ((s.modCore h.val c.val (fun k => { k with power := .on })).bump (PICK_EVENTS.RAMPS h.val c.val)) := by
  have hramps : (s.serving && (s.core h.val c.val).power != .on && s.rampDue h.val c.val) = true := by simp [hs, hoff, hdue]
  rw [exec_coreRamp, execCoreRamp, if_pos hramps]
  rw [State.after_eq]
  · rw [State.bump_pending, State.modCore_pending]
  · rw [State.bump_fuses, State.modCore_fuses]

theorem exec_coreRamp_on (hon : (s.core h.val c.val).power = .on) : exec (.coreRamp h c) s = .next s := by
  simp [exec_coreRamp, execCoreRamp, hon]

end

/-- Settles O32: each command makes its one change under its conditions, and RAMPS counts the ramp. -/
theorem coresGateAndRamp : Obligations.CoresGateAndRamp := by
  intro s h c hs
  refine ⟨exec_coreGate_gates hs, exec_coreGate_stays, fun hoff hdue => ?_, exec_coreRamp_on, rfl⟩
  refine ⟨_, exec_coreRamp_ramps hs hoff hdue, State.bump_heddle .., ?_, ?_, ?_⟩
  · rw [State.get_bump_self _ _ 1 (Nat.zero_le _) (by decide : 15 < 64), State.modCore_get]
  · rw [State.bump_weft, State.modCore_weft]
  · rw [State.bump_tiers, State.modCore_tiers]

end Sys2Proof.Machine

/-! What issuing a block and its passes leave (family 04_heddle_cores): the rules about BLOCK_ISSUE and about the passes that run on,
which the statement O31 rests on. -/

namespace Sys2Proof.Machine

/-! ## What passes and reads leave (R97 to R104, R121) -/

/-- What names a block in its core, with the tiles it reads. -/
def Block.name (b : Block) : Nat × Nat × List Nat := (b.pick, b.index, b.refs)

/-- What passes leave of a core: which banks are front, what they hold, and the blocks by name. -/
def Core.standing (k : Core) : BitVec 32 × SMap StatTile × List (Nat × Nat × List Nat) :=
  (k.front, k.frontTile, k.blocks.map Block.name)

/-- A state later than another, in which its blocks and picks still stand, that rests where the other did, and whose word at `off`
is the same. -/
structure BlocksStand (off : Nat) (s t : State) : Prop where
  picks : t.heddle.picks = s.heddle.picks
  core : ∀ h c, (t.core h c).standing = (s.core h c).standing
  rest : s.atRest → t.atRest
  word : t.word off = s.word off

section
variable {off : Nat} {s t u : State}

theorem BlocksStand.refl (off : Nat) (s : State) : BlocksStand off s s := ⟨rfl, fun _ _ => rfl, id, rfl⟩

theorem BlocksStand.trans (a : BlocksStand off s t) (b : BlocksStand off t u) : BlocksStand off s u where
  picks := b.picks.trans a.picks
  core h c := (b.core h c).trans (a.core h c)
  rest := b.rest ∘ a.rest
  word := b.word.trans a.word

theorem BlocksStand.foldl {α : Type} {f : State → α → State} (hf : ∀ s a, BlocksStand off s (f s a)) (l : List α) (s : State) :
    BlocksStand off s (l.foldl f s) := by
  induction l generalizing s with
  | nil => exact .refl off s
  | cons a l ih => exact (hf s a).trans (ih _)

theorem BlocksStand.of_rewrites {l : List Nat} (h : rewrites s t l) (ho : off ∉ l) : BlocksStand off s t where
  picks := by rw [h.1]
  core _ _ := by rw [h.1]; rfl
  rest := fun hs => State.atRest_of_rewrites hs h
  word := h.2 off ho

theorem BlocksStand.bump {f : Fld} (hf : off ≠ f.off) (s : State) (n : Nat) : BlocksStand off s (s.bump f n) :=
  .of_rewrites (rewrites_set s f _) (by simpa using hf)

theorem BlocksStand.of_onlyPins (h : onlyPins s t) : BlocksStand off s t where
  picks := by rw [h]
  core _ _ := by rw [h]; rfl
  rest := h.atRest
  word := by rw [h]; rfl

theorem BlocksStand.of_onlyBolts (h : onlyBolts s t) : BlocksStand off s t where
  picks := by rw [h]
  core _ _ := by rw [h]; rfl
  rest hs := by rw [h]; exact hs
  word := by rw [h]; rfl

theorem BlocksStand.modCore {f : Core → Core} (hf : ∀ k, (f k).standing = k.standing) (s : State) (h c : Nat) :
    BlocksStand off s (s.modCore h c f) :=
  ⟨rfl, State.core_modCore_keeps Core.standing hf s h c, id, rfl⟩

end

/-! ## Passes (R91, R92, R98) -/

theorem rewrites_logSat (s : State) (source h c tile pick : Nat) :
    rewrites s (s.logSat source h c tile pick) [RN_SAT_LOG.VALID.off] := by
  unfold State.logSat
  split
  · exact rewrites_refl s _
  · exact (((((rewrites_set s _ _).set _ _ (by decide)).set _ _ (by decide)).set _ _ (by decide)).set _ _ (by decide)).set _ _
      (by decide)

theorem rewrites_logNan (s : State) (source h c tile pick : Nat) :
    rewrites s (s.logNan source h c tile pick) [RN_NAN_LOG.VALID.off] := by
  unfold State.logNan
  split
  · exact rewrites_refl s _
  · exact (((((rewrites_set s _ _).set _ _ (by decide)).set _ _ (by decide)).set _ _ (by decide)).set _ _ (by decide)).set _ _
      (by decide)

/-- What a change leaves of every element, it leaves of the list. -/
theorem map_modWhere_keeps {α β : Type} (g : α → β) {p : α → Bool} {f : α → α} (hf : ∀ x, g (f x) = g x) (l : List α) :
    (modWhere p f l).map g = l.map g := by
  rw [modWhere, List.map_map]
  refine List.map_congr_left fun x _ => ?_
  by_cases h : p x = true <;> simp [h, hf]

/-- Is this a word apart from the logs of the reed file's first events? -/
def besideLogs (off : Nat) : Prop := off ∉ [RN_SAT_LOG.VALID.off] ∧ off ∉ [RN_NAN_LOG.VALID.off]

section
variable {off : Nat}

/-- R140, R142, R143: the logs take events. -/
theorem BlocksStand.logEvents (ho : besideLogs off) (s : State) (p : Pick) (tile : Nat) (es : List SlotEvent) :
    BlocksStand off s (s.logEvents p tile es) := by
  unfold State.logEvents
  refine .foldl (fun s e => ?_) es s
  cases e with
  | sat src => exact .of_rewrites (rewrites_logSat ..) ho.1
  | nan src => exact .of_rewrites (rewrites_logNan ..) ho.2

/-- R98: a pass. -/
theorem BlocksStand.passBlock (ho : besideLogs off) (s : State) (p : Pick) (b : Block) : BlocksStand off s (s.passBlock p b) := by
  unfold State.passBlock
  refine (BlocksStand.modCore (fun k => ?_) s p.h p.c).trans (.foldl (fun s e => .logEvents ho s p _ _) _ _)
  refine congrArg (fun l => (k.front, k.frontTile, l)) (map_modWhere_keeps Block.name ?_ k.blocks)
  exact fun _ => rfl

theorem BlocksStand.passFronts (ho : besideLogs off) (p : Pick) (b : Block) (n : Nat) (s : State) :
    BlocksStand off s (State.passFronts p b n s) := by
  induction n generalizing s with
  | zero => exact .refl off s
  | succ n ih =>
    unfold State.passFronts
    split
    · exact .refl off s
    · split
      · exact (BlocksStand.passBlock ho s p _).trans (ih _)
      · exact .refl off s

theorem BlocksStand.passBlocks (ho : besideLogs off) (h c : Nat) (busy : List Nat) (l : List Block) (s : State) :
    BlocksStand off s (State.passBlocks h c busy l s) := by
  induction l generalizing busy s with
  | nil => exact .refl off s
  | cons b l ih =>
    unfold State.passBlocks
    split
    · exact ih _ _
    · next p _ =>
      refine .trans ?_ (ih _ _)
      split
      · exact .refl off s
      · exact .passFronts ho p b _ s

/-- R92, R98: the passes of a core go on. -/
theorem BlocksStand.advance (ho : besideLogs off) (s : State) (h c : Nat) : BlocksStand off s (s.advance h c) :=
  .passBlocks ho h c [] _ s

/-! ## The tiles and rows of a block that issues (R74, R121, R253) -/

theorem onlyPins_refTiles (s : State) (h : Nat) (tiles : List Nat) (up : Bool) : onlyPins s (s.refTiles h tiles up) := by
  unfold State.refTiles
  refine onlyPins_foldl (fun s t => ?_) tiles s
  dsimp only
  split <;> rfl

/-- R253, R255: a read of tiles counts in its slice, and touches frames and pages. -/
theorem BlocksStand.countReads {h : Nat} (ho : off ≠ (BC_SLICE_EVENTS.HITS h).off) (s : State) (tiles : List Nat) :
    BlocksStand off s (s.countReads h tiles) := by
  have hclock : ∀ s : State, BlocksStand off s { s with tiers := { s.tiers with readClock := s.tiers.readClock + 1 } } :=
    fun s => ⟨rfl, fun _ _ => rfl, id, rfl⟩
  unfold State.countReads
  refine (((BlocksStand.foldl (fun s t => ?_) tiles s).trans (.foldl (f := State.touchPage) (fun s p => .of_onlyPins rfl) _ _)).trans
    (hclock _)).trans (.bump ho _ _)
  split <;> exact .of_onlyPins rfl

/-- R74: rows that were fed leave their replay buffers. -/
theorem BlocksStand.releaseFed (s : State) : BlocksStand off s s.releaseFed := by
  unfold State.releaseFed
  split
  · exact .refl off s
  · refine .foldl (fun s b => .foldl (fun s r => ?_) _ s) _ s
    split
    · exact .of_onlyBolts rfl
    · exact .refl off s

end

/-! ## A block issues (R97) -/

theorem Pick.part_nil {α : Type} (p : Pick) (b : Nat) : p.part b ([] : List α) = [] := by
  unfold Pick.part
  cases p.kind <;> simp

theorem State.readStash_none {p : Pick} (h : p.stash = []) (s : State) (b : Nat) : s.readStash p b = (s, []) := by
  rw [State.readStash, h, Pick.part_nil]
  rfl

theorem Pick.stashTiles_none {p : Pick} (h : p.stash = []) (b : Nat) : p.stashTiles b = [] := by
  rw [Pick.stashTiles, h, Pick.part_nil]
  rfl

/-- R97, R101: a block enters its core, whose choice of tiles and reed words change with it. -/
def Core.place (b : Block) (sel : BitVec 32) (reed : SMap (BitVec 32)) (k : Core) : Core :=
  { k with blocks := k.blocks ++ [b], tileSel := sel, reed := reed }

/-- R97: the next block of a pick enters its core. -/
def State.placeBlock (s : State) (p : Pick) (b : Block) (sel : BitVec 32) (reed : SMap (BitVec 32)) : State :=
  (s.modCore p.h p.c (Core.place b sel reed)).modPick p.id (fun q => { q with issued := p.issued + 1 })

theorem State.atRest_placeBlock {s : State} (hs : s.atRest) (p : Pick) (b : Block) (sel : BitVec 32) (reed : SMap (BitVec 32)) :
    (s.placeBlock p b sel reed).atRest :=
  State.atRest_of hs (by rw [State.placeBlock, State.modPick_tiers, State.modCore_tiers])
    (by rw [State.placeBlock, State.modPick_skein, State.modCore_skein]) (by rw [State.placeBlock, State.modPick_exch, State.modCore_exch])

theorem State.get_placeBlock (s : State) (p : Pick) (b : Block) (sel : BitVec 32) (reed : SMap (BitVec 32)) (f : Fld) :
    (s.placeBlock p b sel reed).get f = s.get f := by rw [State.placeBlock, State.modPick_get, State.modCore_get]

theorem State.issued_placeBlock {s : State} {p q : Pick} {b : Block} {sel : BitVec 32} {reed : SMap (BitVec 32)}
    (hq : (s.placeBlock p b sel reed).pick? p.id = some q) : q.issued = p.issued + 1 := by
  rw [State.placeBlock, State.pick?_modPick] at hq
  · obtain ⟨x, -, rfl⟩ := Option.map_eq_some_iff.mp hq
    rfl
  · exact fun _ => rfl

theorem State.blocks_placeBlock (s : State) (p : Pick) (b : Block) (sel : BitVec 32) (reed : SMap (BitVec 32)) :
    ((s.placeBlock p b sel reed).core p.h p.c).blocks = (s.core p.h p.c).blocks ++ [b] :=
  congrArg Core.blocks (State.core_modCore_self s p.h p.c (Core.place b sel reed))

/-- R121, R154, R253: the tiles of a block are referenced and its reads counted; an other-axis read that saturates is logged. -/
def State.readBlock (s : State) (p : Pick) (tiles : List Nat) (other : Bool) (tile : Nat) : State :=
  let t := (s.refTiles p.h tiles true).countReads p.h tiles
  if other then t.logSat 4 p.h p.c tile p.id else t

/-- R97: the counts of a block that issues, beside BLOCKS. -/
def State.countBlock (s : State) (p : Pick) (macs stripes : Nat) : State :=
  let t := (s.bump (CYCLES.MAC_CYCLES p.h p.c) macs).bump (SD_TILE_EVENTS.STRIPES_READ p.h) stripes
  if p.kind == .tStored then t.bump (SD_TILE_EVENTS.OTHER_AXIS p.h) else t

/-- R97: a block of a pick without stashed operands issues: it is placed, its tiles are read, BLOCKS and the other counters count, the
passes run on. -/
theorem State.issueBlock_eq (s : State) {p : Pick} (tiles : List Nat) (h : p.stash = []) :
    ∃ (b : Block) (sel : BitVec 32) (reed : SMap (BitVec 32)) (other : Bool) (tile macs stripes : Nat),
      b.name = (p.id, p.issued, tiles) ∧ s.issueBlock p tiles = ((((((s.placeBlock p b sel reed).readBlock p tiles other tile).bump
        (PICK_EVENTS.BLOCKS p.h p.c)).countBlock p macs stripes).advance p.h p.c).releaseFed) := by
  simp only [State.issueBlock, State.readStash_none h, State.placeBlock, State.readBlock, State.countBlock]
  exact ⟨_, _, _, _, _, _, _, rfl, rfl⟩

theorem besideLogs_blocks (h c : Nat) : besideLogs (PICK_EVENTS.BLOCKS h c).off := by
  simp only [besideLogs, PICK_EVENTS.BLOCKS, RN_SAT_LOG.VALID, RN_NAN_LOG.VALID, List.mem_singleton]
  omega

theorem BlocksStand.readBlock (s : State) (p : Pick) (tiles : List Nat) (other : Bool) (tile : Nat) :
    BlocksStand (PICK_EVENTS.BLOCKS p.h p.c).off s (s.readBlock p tiles other tile) := by
  have hhits : (PICK_EVENTS.BLOCKS p.h p.c).off ≠ (BC_SLICE_EVENTS.HITS p.h).off := by
    simp only [PICK_EVENTS.BLOCKS, BC_SLICE_EVENTS.HITS]
    omega
  have hreads := (BlocksStand.of_onlyPins (onlyPins_refTiles s p.h tiles true)).trans (.countReads hhits _ tiles)
  unfold State.readBlock
  dsimp only
  split
  · exact hreads.trans (.of_rewrites (rewrites_logSat ..) (besideLogs_blocks p.h p.c).1)
  · exact hreads

theorem BlocksStand.countBlock (s : State) (p : Pick) (macs stripes : Nat) :
    BlocksStand (PICK_EVENTS.BLOCKS p.h p.c).off s (s.countBlock p macs stripes) := by
  have hmacs : (PICK_EVENTS.BLOCKS p.h p.c).off ≠ (CYCLES.MAC_CYCLES p.h p.c).off := by
    simp only [PICK_EVENTS.BLOCKS, CYCLES.MAC_CYCLES]
    omega
  have hreads : (PICK_EVENTS.BLOCKS p.h p.c).off ≠ (SD_TILE_EVENTS.STRIPES_READ p.h).off := by
    simp only [PICK_EVENTS.BLOCKS, SD_TILE_EVENTS.STRIPES_READ]
    omega
  have hother : (PICK_EVENTS.BLOCKS p.h p.c).off ≠ (SD_TILE_EVENTS.OTHER_AXIS p.h).off := by
    simp only [PICK_EVENTS.BLOCKS, SD_TILE_EVENTS.OTHER_AXIS]
    omega
  have hcounts := (BlocksStand.bump hmacs s macs).trans (.bump hreads _ stripes)
  unfold State.countBlock
  dsimp only
  split
  · exact hcounts.trans (.bump hother _ 1)
  · exact hcounts

/-- What a block that has issued leaves: its pick counts it, it stands in its core with its tiles, BLOCKS counts it, and nothing new
waits. -/
structure BlockIssued (s t : State) (p : Pick) (tiles : List Nat) : Prop where
  rest : s.atRest → t.atRest
  issued : ∀ q, t.pick? p.id = some q → q.issued = p.issued + 1
  stands : ∃ b ∈ (t.core p.h p.c).blocks, b.name = (p.id, p.issued, tiles)
  counted : t.get (PICK_EVENTS.BLOCKS p.h p.c) = min (s.get (PICK_EVENTS.BLOCKS p.h p.c) + 1)
    (2 ^ fldWidth (PICK_EVENTS.BLOCKS p.h p.c) - 1)

/-- The seal of a command leaves what a block that has issued leaves. -/
theorem BlockIssued.after {s t : State} {p : Pick} {tiles : List Nat} (h : BlockIssued s t p tiles) :
    BlockIssued s (s.after t) p tiles := ⟨h.rest, h.issued, h.stands, h.counted⟩

theorem State.issueBlock_shows (s : State) {p : Pick} (tiles : List Nat) (hstash : p.stash = []) :
    BlockIssued s (s.issueBlock p tiles) p tiles := by
  obtain ⟨b, sel, reed, other, tile, macs, stripes, hname, heq⟩ := s.issueBlock_eq tiles hstash
  have hread := BlocksStand.readBlock (s.placeBlock p b sel reed) p tiles other tile
  generalize (s.placeBlock p b sel reed).readBlock p tiles other tile = u at hread heq
  have hlater := ((BlocksStand.countBlock (u.bump (PICK_EVENTS.BLOCKS p.h p.c)) p macs stripes).trans
    (.advance (besideLogs_blocks p.h p.c) _ p.h p.c)).trans (.releaseFed _)
  rw [← heq] at hlater
  have hzero : 0 ≠ (PICK_EVENTS.BLOCKS p.h p.c).off := by
    simp only [PICK_EVENTS.BLOCKS]
    omega
  have hcount := BlocksStand.bump hzero u 1
  refine ⟨fun hs => hlater.rest (hcount.rest (hread.rest (State.atRest_placeBlock hs ..))), fun q hq => ?_, ?_, ?_⟩
  · have hpicks := hlater.picks.trans (hcount.picks.trans hread.picks)
    rw [State.pick?, hpicks] at hq
    exact State.issued_placeBlock hq
  · have hcore := (hlater.core p.h p.c).trans ((hcount.core p.h p.c).trans (hread.core p.h p.c))
    have hnames : ((s.issueBlock p tiles).core p.h p.c).blocks.map Block.name =
        ((s.placeBlock p b sel reed).core p.h p.c).blocks.map Block.name := congrArg (fun x => x.2.2) hcore
    have hmem : b.name ∈ ((s.issueBlock p tiles).core p.h p.c).blocks.map Block.name := by
      rw [hnames, State.blocks_placeBlock]
      simp
    obtain ⟨b', hb', hname'⟩ := List.mem_map.mp hmem
    exact ⟨b', hb', hname'.trans hname⟩
  · rw [State.get_of_word (f := PICK_EVENTS.BLOCKS p.h p.c) hlater.word, State.get_bump_self _ _ 1 (by decide : 16 ≤ 31 + 1)
      (by decide : 31 < 64), State.get_of_word (f := PICK_EVENTS.BLOCKS p.h p.c) hread.word, State.get_placeBlock]

/-! ## BLOCK_ISSUE (R97, Table 4.4) -/

theorem State.takeBreaks_unarmed {s : State} (h : s.flag BD_DBG_CTRL.ARM = false) (p : Pick) (tiles : List Nat) :
    s.takeBreaks p tiles = (s, false) := by
  have hhits : (if (s.core p.h p.c).stepping == some p.id then [] else s.blockBreaks p.id (tiles.map (· * tileBytes))) = [] := by
    simp [State.blockBreaks, h]
  rw [State.takeBreaks, hhits]
  rfl

/-- R97: the oldest due pick whose next block waits for nothing issues it. -/
theorem State.tryIssue_head {s : State} {p : Pick} (rest : List Pick) (hmore : p.issued < p.blocks) (hwrites : s.tiers.writes = [])
    (hstash : p.stash = []) (harm : s.flag BD_DBG_CTRL.ARM = false) (hread : (s.blockTiles p p.issued).any s.tileError = false)
    (hwait : s.waitCause p = none) : s.tryIssue (p :: rest) = s.issueBlock p (s.blockTiles p p.issued) := by
  obtain ⟨hto9, hfrom10⟩ := Option.or_eq_none_iff.mp hwait
  have hnone := Pick.stashTiles_none hstash p.issued
  rw [hnone] at hto9
  have hsettled : (s.blockTiles p p.issued ++ []).foldl (fun s t => s.settle (t * tileBytes) tileBytes) s = s :=
    foldl_idle fun _ _ => State.settle_none hwrites _ _
  rw [State.tryIssue, if_neg (by omega)]
  simp only [hnone, hsettled, hread, List.any_nil, hto9, hfrom10, State.takeBreaks_unarmed harm, Bool.false_eq_true, if_false]

theorem exec_blockIssue (h : Fin 8) (c : Fin 66) (s : State) : exec (.blockIssue h c) s = execBlockIssue h c s := rfl

theorem exec_blockIssue_serving {s : State} (hs : s.serving = true) (h : Fin 8) (c : Fin 66) : exec (.blockIssue h c) s =
    .next (s.after (s.tryIssue (duePicks (s.queuePicks h.val c.val))).carryOn) := by
  rw [exec_blockIssue, execBlockIssue, if_pos hs]

theorem exec_blockIssue_none {s : State} {h : Fin 8} {c : Fin 66} (hs : s.serving = true)
    (hdue : duePicks (s.queuePicks h.val c.val) = []) (hr : s.atRest) : exec (.blockIssue h c) s = .next s := by
  rw [exec_blockIssue_serving hs, hdue, State.tryIssue, State.carryOn_atRest hr, State.after_self]

/-- R97, R249: in a state at rest the oldest due pick issues its block, and nothing else goes on. -/
theorem exec_blockIssue_head {s : State} {h : Fin 8} {c : Fin 66} {p : Pick} {rest : List Pick} (hs : s.serving = true)
    (hdue : duePicks (s.queuePicks h.val c.val) = p :: rest) (hr : s.atRest) (hwrites : s.tiers.writes = [])
    (hmore : p.issued < p.blocks) (hstash : p.stash = []) (harm : s.flag BD_DBG_CTRL.ARM = false)
    (hread : (s.blockTiles p p.issued).any s.tileError = false) (hwait : s.waitCause p = none) :
    ∃ t, exec (.blockIssue h c) s = .next t ∧ BlockIssued s t p (s.blockTiles p p.issued) := by
  have hissued := s.issueBlock_shows (s.blockTiles p p.issued) hstash
  rw [exec_blockIssue_serving hs, hdue, State.tryIssue_head rest hmore hwrites hstash harm hread hwait,
    State.carryOn_atRest (hissued.rest hr)]
  exact ⟨_, rfl, hissued.after⟩

end Sys2Proof.Machine

/-! LOAD, SWAP and DRAIN (family 04_heddle_cores), and the statement O31. -/

namespace Sys2Proof.Machine

/-! ## Writes at the keys of a list -/

theorem mapGet_foldl_mapPut_ne {α β : Type} [DecidableEq α] (d : α) (key : β → Nat) (v : β → α) {l : List β} {i : Nat}
    (hi : i ∉ l.map key) (m : SMap α) : mapGet d (l.foldl (fun m y => mapPut d m (key y) (v y)) m) i = mapGet d m i := by
  induction l generalizing m with
  | nil => rfl
  | cons y l ih =>
    rw [List.map_cons, List.mem_cons, not_or] at hi
    obtain ⟨hy, hl⟩ := hi
    rw [List.foldl_cons, ih hl, mapGet_mapPut_ne d m (v y) hy]

/-- After writes at keys of their own each key gives the value written there. -/
theorem mapGet_foldl_mapPut {α β : Type} [DecidableEq α] (d : α) (key : β → Nat) (v : β → α) {l : List β} (hl : (l.map key).Nodup)
    {x : β} (hx : x ∈ l) (m : SMap α) : mapGet d (l.foldl (fun m y => mapPut d m (key y) (v y)) m) (key x) = v x := by
  induction l generalizing m with
  | nil => cases hx
  | cons y l ih =>
    obtain ⟨hy, hl⟩ := List.nodup_cons.mp hl
    rw [List.foldl_cons]
    rcases List.mem_cons.mp hx with rfl | hx
    · rw [mapGet_foldl_mapPut_ne d key v hy, mapGet_mapPut_self]
    · exact ih hl hx _

/-- Each bit of a list of different bits is turned once. -/
theorem getLsbD_foldl_xor {l : List Nat} (hl : l.Nodup) {g : Nat} (hg : g < 32) (w : BitVec 32) :
    (l.foldl (fun w x => w ^^^ (1#32 <<< x)) w).getLsbD g = (w.getLsbD g ^^ l.contains g) := by
  induction l generalizing w with
  | nil => simp
  | cons x l ih =>
    obtain ⟨hx, hl⟩ := List.nodup_cons.mp hl
    have hbit : (1#32 <<< x).getLsbD g = decide (g = x) := by
      rw [BitVec.getLsbD_shiftLeft, BitVec.getLsbD_one]
      by_cases h : g = x
      · simp [h]; omega
      · simp [h]; omega
    rw [List.foldl_cons, ih hl, BitVec.getLsbD_xor, hbit, List.contains_cons]
    by_cases h : g = x
    · simp [h, hx]
    · simp [h]

/-- Different segments of a pick stay different among those that lack a K-tile. -/
theorem Core.lacking_nodup (k : Core) {p : Pick} (h : (p.segs.map (·.1)).Nodup) (b kt : Nat) : ((k.lacking p b kt).map (·.1)).Nodup :=
  h.sublist (List.filter_sublist.map _)

/-! ## LOAD (R83, R89, R92) -/

/-- R89: what the back banks hold after the stationary tile of a block went to segments of a list. -/
def backTiles (p : Pick) (b : Block) (l : List (Nat × Nat)) (m : SMap StatTile) : SMap StatTile :=
  l.foldl (fun m x => mapPut .none m x.1 (p.statTile b.index b.ktDone x.2)) m

/-- What a change of a core's back banks leaves, the writes of a LOAD leave. -/
theorem State.writeBack_keeps {γ : Type} (g : Core → γ)
    (hg : ∀ (k : Core) bt bs sc, g { k with backTile := bt, banks := bs, scales := sc } = g k) (s : State) (p : Pick) (b : Block)
    (l : List (Nat × Nat)) (h c : Nat) : g ((l.foldl (fun s y => s.writeBack p b y) s).core h c) = g (s.core h c) :=
  foldl_keeps (fun u : State => g (u.core h c)) (fun u _ => State.core_modCore_keeps g (fun k => hg k _ _ _) u p.h p.c h c) l s

theorem State.backTile_writeBack (s : State) (p : Pick) (b : Block) (l : List (Nat × Nat)) :
    ((l.foldl (fun s y => s.writeBack p b y) s).core p.h p.c).backTile = backTiles p b l (s.core p.h p.c).backTile := by
  induction l generalizing s with
  | nil => rfl
  | cons x l ih =>
    rw [List.foldl_cons, ih]
    exact congrArg (backTiles p b l) (congrArg Core.backTile (State.core_modCore_self s p.h p.c _))

/-- What a change of a core's blocks and back banks leaves, a LOAD leaves. -/
theorem State.loadBlock_keeps {γ : Type} (g : Core → γ)
    (hg : ∀ (k : Core) bl bt bs sc, g { k with blocks := bl, backTile := bt, banks := bs, scales := sc } = g k) (s : State)
    (x : Block × Pick) (h c : Nat) : g ((s.loadBlock x).core h c) = g (s.core h c) :=
  (State.core_modCore_keeps g (fun k => hg k _ k.backTile k.banks k.scales) _ x.2.h x.2.c h c).trans
    (State.writeBack_keeps g (fun k => hg k k.blocks) s x.2 x.1 _ h c)

theorem State.foldl_loadBlock_keeps {γ : Type} (g : Core → γ)
    (hg : ∀ (k : Core) bl bt bs sc, g { k with blocks := bl, backTile := bt, banks := bs, scales := sc } = g k) (s : State)
    (l : List (Block × Pick)) (h c : Nat) : g ((l.foldl State.loadBlock s).core h c) = g (s.core h c) :=
  foldl_keeps (fun u : State => g (u.core h c)) (fun u x => State.loadBlock_keeps g hg u x h c) l s

/-- R89: the blocks of the core after the LOAD of one. -/
theorem State.blocks_loadBlock (s : State) (x : Block × Pick) : ((s.loadBlock x).core x.2.h x.2.c).blocks =
    modWhere x.1.same (fun b => { b with loaded := true }) (s.core x.2.h x.2.c).blocks := by
  rw [State.loadBlock, State.core_modCore_self, Core.modBlock]
  exact congrArg (modWhere x.1.same _) (State.writeBack_keeps Core.blocks (fun _ _ _ _ => rfl) s x.2 x.1 _ x.2.h x.2.c)

theorem State.backTile_loadBlock (s : State) (x : Block × Pick) : ((s.loadBlock x).core x.2.h x.2.c).backTile =
    backTiles x.2 x.1 ((s.core x.2.h x.2.c).lacking x.2 x.1.index x.1.ktDone) (s.core x.2.h x.2.c).backTile :=
  (congrArg Core.backTile (State.core_modCore_self _ x.2.h x.2.c _)).trans (State.backTile_writeBack s x.2 x.1 _)

theorem Block.same_comm (a b : Block) : a.same b = b.same a := by
  simp only [Block.same, Bool.beq_comm]

/-- Has core (h, c) the stationary tiles of a block in its back banks? -/
def State.holdsLoad (s : State) (h c : Nat) (y : Block) : Prop := ∀ b ∈ (s.core h c).blocks, b.same y = true → b.loaded = true

section
variable {s : State} {h c : Nat} {x : Block × Pick}

theorem State.holdsLoad_self (hh : x.2.h = h) (hc : x.2.c = c) : (s.loadBlock x).holdsLoad h c x.1 := by
  subst hh hc
  intro b hb hsame
  rw [State.blocks_loadBlock] at hb
  obtain ⟨b₀, -, rfl⟩ := List.mem_map.mp hb
  by_cases h₀ : x.1.same b₀ = true
  · rw [if_pos h₀]
  · rw [if_neg h₀, Block.same_comm] at hsame
    exact absurd hsame h₀

/-- R89: a LOAD for another block leaves what is loaded. -/
theorem State.holdsLoad_loadBlock (hh : x.2.h = h) (hc : x.2.c = c) {y : Block} (hy : s.holdsLoad h c y) :
    (s.loadBlock x).holdsLoad h c y := by
  subst hh hc
  intro b hb hsame
  rw [State.blocks_loadBlock] at hb
  obtain ⟨b₀, hb₀, rfl⟩ := List.mem_map.mp hb
  by_cases h₀ : x.1.same b₀ = true
  · rw [if_pos h₀]
  · rw [if_neg h₀] at hsame ⊢
    exact hy b₀ hb₀ hsame

end

/-- R89: one LOAD serves blocks of one core: each is loaded. -/
theorem State.holdsLoad_foldl {h c : Nat} {l : List (Block × Pick)} (hl : ∀ y ∈ l, y.2.h = h ∧ y.2.c = c) (s : State) :
    (∀ y ∈ l, (l.foldl State.loadBlock s).holdsLoad h c y.1) ∧
      ∀ y, s.holdsLoad h c y → (l.foldl State.loadBlock s).holdsLoad h c y := by
  induction l generalizing s with
  | nil => exact ⟨fun _ hy => (List.not_mem_nil hy).elim, fun _ hy => hy⟩
  | cons x l ih =>
    obtain ⟨hh, hc⟩ := hl x List.mem_cons_self
    obtain ⟨hserved, hkept⟩ := ih (fun y hy => hl y (List.mem_cons_of_mem x hy)) (s.loadBlock x)
    refine ⟨fun y hy => ?_, fun y hy => hkept y (State.holdsLoad_loadBlock hh hc hy)⟩
    rcases List.mem_cons.mp hy with rfl | hy
    · exact hkept _ (State.holdsLoad_self hh hc)
    · exact hserved y hy

theorem exec_load (h : Fin 8) (c : Fin 66) (s : State) : exec (.load h c) s = execLoad h c s := rfl

/-- R89: the state that a LOAD for blocks of a core leaves. -/
def State.loaded (s : State) (h c : Nat) (l : List (Block × Pick)) (words : Nat) : State :=
  (l.foldl State.loadBlock s).bump (LOAD_EVENTS.LOAD_CYCLES h c) words

section
variable {s : State} {h : Fin 8} {c : Fin 66}

theorem exec_load_none (hn : s.nextLoad h.val c.val = []) : exec (.load h c) s = .next s := by
  rw [exec_load, execLoad, hn, State.after_self]

/-- What each block's LOAD leaves of the state, LOAD leaves. -/
theorem State.foldl_loadBlock_frame (s : State) (l : List (Block × Pick)) :
    l.foldl State.loadBlock s =
      { s with heddle := { s.heddle with cores := (l.foldl State.loadBlock s).heddle.cores } } := by
  refine onlyCores_foldl (fun s x => ?_) l s
  have hback := onlyCores_foldl (f := fun s y => s.writeBack x.2 x.1 y) (fun _ _ => rfl)
    ((s.core x.2.h x.2.c).lacking x.2 x.1.index x.1.ktDone) s
  unfold onlyCores at *
  rw [State.loadBlock, hback]
  rfl

theorem exec_load_some (hs : s.serving = true) {x : Block × Pick} {rest : List (Block × Pick)}
    (hn : s.nextLoad h.val c.val = x :: rest) :
    exec (.load h c) s = .next (s.loaded h.val c.val (x :: rest) (loadSize x)) := by
  rw [exec_load, execLoad, hn]
  simp only [hs, Bool.not_true, Bool.false_eq_true, if_false]
  rw [State.after_eq, State.loaded]
  · rw [State.bump_pending, State.foldl_loadBlock_frame]
  · rw [State.bump_fuses, State.foldl_loadBlock_frame]

end

/-- R89: what a LOAD for blocks of one core leaves: front banks and picks, and LOAD_CYCLES with its words counted. -/
theorem State.loaded_shows (s : State) (h c : Nat) (l : List (Block × Pick)) (words : Nat) :
    (∀ h' c', (s.loaded h c l words).core h' c' = (l.foldl State.loadBlock s).core h' c') ∧
      ((s.loaded h c l words).core h c).front = (s.core h c).front ∧
      ((s.loaded h c l words).core h c).frontTile = (s.core h c).frontTile ∧
      (s.loaded h c l words).heddle.picks = s.heddle.picks ∧
      (s.loaded h c l words).get (LOAD_EVENTS.LOAD_CYCLES h c) = min (s.get (LOAD_EVENTS.LOAD_CYCLES h c) + words)
        (2 ^ fldWidth (LOAD_EVENTS.LOAD_CYCLES h c) - 1) := by
  have hcore : ∀ h' c', (s.loaded h c l words).core h' c' = (l.foldl State.loadBlock s).core h' c' :=
    onlyRegs.core (onlyRegs_bump _ _ _)
  rw [hcore]
  refine ⟨hcore, State.foldl_loadBlock_keeps Core.front (fun _ _ _ _ _ => rfl) s l h c,
    State.foldl_loadBlock_keeps Core.frontTile (fun _ _ _ _ _ => rfl) s l h c, ?_, ?_⟩
  · rw [State.loaded, State.bump_heddle, State.foldl_loadBlock_frame]
  · rw [State.loaded, State.get_bump_self _ _ _ (by decide : 32 ≤ 63 + 1) (by decide : 63 < 64), State.foldl_loadBlock_frame]
    rfl

/-! ## SWAP (R91, R92) -/

theorem exec_swap (h : Fin 8) (c : Fin 66) (s : State) : exec (.swap h c) s = execSwap h c s := rfl

section
variable {s : State} {h : Fin 8} {c : Fin 66}

theorem exec_swap_none (hn : (s.core h.val c.val).blocks.find? (·.loaded) = none) : exec (.swap h c) s = .next s := by
  rw [exec_swap, execSwap, hn, State.after_self]

theorem exec_swap_some (hs : s.serving = true) {b : Block} {p : Pick} (hb : (s.core h.val c.val).blocks.find? (·.loaded) = some b)
    (hp : s.pick? b.pick = some p) :
    exec (.swap h c) s = .next (s.after ((s.modCore h.val c.val (Core.swapBanks b p)).advance h.val c.val)) := by
  rw [exec_swap, execSwap, hb]
  simp only [hp, hs, Bool.not_true, Bool.false_eq_true, if_false]

end

/-- R91: the banks of a core after SWAP and the passes that follow. -/
theorem State.swap_shows (s : State) (h c : Nat) (b : Block) {p : Pick} (hsegs : (p.segs.map (·.1)).Nodup) :
    let k := s.core h c
    let t := (s.modCore h c (Core.swapBanks b p)).advance h c
    (∀ g < 32, (t.core h c).front.getLsbD g = (k.front.getLsbD g ^^ ((k.lacking p b.index b.ktDone).map (·.1)).contains g)) ∧
      ∀ g ∈ k.lacking p b.index b.ktDone, mapGet .none (t.core h c).frontTile g.1 = mapGet .none k.backTile g.1 := by
  intro k t
  have hstand : (t.core h c).standing = (Core.swapBanks b p k).standing :=
    ((BlocksStand.advance (off := 0) ⟨by decide, by decide⟩ _ h c).core h c).trans
      (congrArg Core.standing (State.core_modCore_self s h c _))
  have hfront : (t.core h c).front = _ := congrArg (·.1) hstand
  have htile : (t.core h c).frontTile = _ := congrArg (·.2.1) hstand
  have hnodup := k.lacking_nodup hsegs b.index b.ktDone
  refine ⟨fun g hg => ?_, fun g hg => ?_⟩
  · rw [hfront]
    exact getLsbD_foldl_xor hnodup hg _
  · rw [htile]
    exact mapGet_foldl_mapPut .none id (mapGet .none k.backTile) (by simpa using hnodup) (List.mem_map_of_mem hg) _

/-! ## DRAIN (R99) -/

theorem exec_drain {s : State} (hs : s.serving = true) (h : Fin 8) (c : Fin 66) :
    exec (.drain h c) s = .next (s.after (((s.drainOne h.val c.val).advance h.val c.val).carryOn)) := by
  show execDrain h c s = _
  rw [execDrain, if_pos hs]

section
variable {s : State} {h c : Nat} {b : Block} {p : Pick} {d : TileOut} {rest : List TileOut}

theorem State.drainOne_refused
    (hb : (s.core h c).blocks.find? (fun b => decide (b.kTiles ≤ b.ktDone) && !b.drains.isEmpty) = some b)
    (hp : s.pick? b.pick = some p) (hd : b.drains = d :: rest) (ha : s.acceptTile p b d = none) : s.drainOne h c = s := by
  simp [State.drainOne, hb, hp, hd, ha]

/-- R140, R143: the counts of a drained tile's flags. -/
def State.countFlags (s : State) (d : TileOut) : State :=
  let t := if d.sat then s.bump RN_FLAG_EVENTS.SAT_TILES else s
  if d.nan then t.bump RN_FLAG_EVENTS.NAN_TILES else t

theorem onlyRegs_countFlags (s : State) (d : TileOut) : onlyRegs s (s.countFlags d) := by
  have hsat : onlyRegs s (if d.sat then s.bump RN_FLAG_EVENTS.SAT_TILES else s) := by
    split
    · exact onlyRegs_bump s _ 1
    · exact onlyRegs_refl s
  unfold State.countFlags
  dsimp only
  split
  · exact onlyRegs_trans hsat (onlyRegs_bump _ _ 1)
  · exact hsat

/-- R99: a block of a core has these tiles left to drain. -/
def Core.leaveTiles (b : Block) (rest : List TileOut) (k : Core) : Core :=
  { k with blocks := modWhere (fun x => x.same b) (fun x => { x with drains := rest }) k.blocks }

/-- R99: a tile that is not the last of its block is taken: the tiles behind it are left. -/
theorem State.drainOne_taken {u : State}
    (hb : (s.core h c).blocks.find? (fun b => decide (b.kTiles ≤ b.ktDone) && !b.drains.isEmpty) = some b)
    (hp : s.pick? b.pick = some p) (hd : b.drains = d :: rest) (ha : s.acceptTile p b d = some u) (hrest : rest ≠ []) :
    s.drainOne h c = ((u.countFlags d).modPick p.id (fun q => { q with drained := q.drained + 1 })).modCore h c
      (Core.leaveTiles b rest) := by
  have hleft : (!rest.isEmpty) = true := by simpa using hrest
  simp only [State.drainOne, hb, hp, hd, ha, hleft, if_true]
  rfl

theorem State.drainOne_leaves {u : State}
    (hb : (s.core h c).blocks.find? (fun b => decide (b.kTiles ≤ b.ktDone) && !b.drains.isEmpty) = some b)
    (hp : s.pick? b.pick = some p) (hd : b.drains = d :: rest) (ha : s.acceptTile p b d = some u) (hrest : rest ≠ [])
    (hcores : u.heddle.cores = s.heddle.cores) :
    ∃ b' ∈ ((s.drainOne h c).core h c).blocks, b'.pick = b.pick ∧ b'.index = b.index ∧ b'.drains = rest := by
  have hcore : (u.countFlags d).core h c = s.core h c := by
    rw [(onlyRegs_countFlags u d).core, State.core, State.core, hcores]
  have hsame : b.same b = true := by simp [Block.same]
  refine ⟨{ b with drains := rest }, ?_, rfl, rfl, rfl⟩
  rw [State.drainOne_taken hb hp hd ha hrest, State.core_modCore_self]
  refine List.mem_map.mpr ⟨b, ?_, if_pos hsame⟩
  show b ∈ ((u.countFlags d).core h c).blocks
  rw [hcore]
  exact List.mem_of_find?_eq_some hb

end

/-- Settles O31: BLOCK_ISSUE is `issueBlock` of the oldest due pick; LOAD, SWAP and DRAIN change the banks and blocks of their core,
and the passes that run on leave both. -/
theorem coreBlocksIssueLoadSwapAndDrain : Obligations.CoreBlocksIssueLoadSwapAndDrain := by
  intro s h c hs k
  refine ⟨exec_blockIssue_none hs, fun p rest hdue hrest hwrites hh hc hmore hstash harm hread hwait => ?_, exec_load_none,
    fun x rest hn hcore => ?_, exec_swap_none, fun b p hb hp _ _ hsegs => ⟨exec_swap_some hs hb hp, ?_⟩, exec_drain hs h c,
    fun b p d rest hb hp hd => ⟨State.drainOne_refused hb hp hd,
      fun u ha hleft hcores => State.drainOne_leaves hb hp hd ha hleft hcores⟩⟩
  · obtain ⟨t, hexec, -, hissued, ⟨b, hb, hname⟩, hcount⟩ :=
      exec_blockIssue_head hs hdue hrest hwrites hmore hstash harm hread hwait
    obtain ⟨hpick, hindex, hrefs⟩ : b.pick = p.id ∧ b.index = p.issued ∧ b.refs = s.blockTiles p p.issued := by
      simpa [Block.name] using hname
    rw [hh, hc] at hb hcount
    exact ⟨t, hexec, hissued, ⟨b, hb, hpick, hindex, hrefs⟩, hcount⟩
  · obtain ⟨hlater, hfront, htile, hpicks, hcycles⟩ := s.loaded_shows h.val c.val (x :: rest) (loadSize x)
    refine ⟨_, exec_load_some hs hn, fun y hy b hb => ?_, hfront, htile, hpicks, hcycles, fun hone hsegs g hg => ?_⟩
    · rw [hlater] at hb
      exact (State.holdsLoad_foldl hcore s).1 y hy b hb
    · subst hone
      obtain ⟨hh, hc⟩ := hcore x List.mem_cons_self
      have hk : k = s.core x.2.h x.2.c := by rw [hh, hc]
      rw [hk] at hg
      rw [hlater, ← hh, ← hc, List.foldl_cons, List.foldl_nil, State.backTile_loadBlock]
      exact mapGet_foldl_mapPut .none Prod.fst (fun y => x.2.statTile x.1.index x.1.ktDone y.2)
        (Core.lacking_nodup _ hsegs _ _) hg _
  · have hexec := exec_swap_some hs hb hp
    have hbanks := s.swap_shows h.val c.val b hsegs
    generalize (s.modCore h.val c.val (Core.swapBanks b p)).advance h.val c.val = t at hexec hbanks
    exact ⟨s.after t, hexec, hbanks⟩

end Sys2Proof.Machine

/-! The row stages of the Harnesses (family 05_shuttle_layouts): ROW_STAGE_COPY, and the statement O29. -/

namespace Sys2Proof.Machine

/-! ## ROW_STAGE_COPY (R126) -/

/-- The oldest row copy due in Harness h is due no more: those behind it stay. -/
def State.copyLeaves (s : State) (h : Nat) (rest : List StageReq) : State := s.modHarness h (fun x => { x with reqs := rest })

/-- What the row stage holds of a row that a copy was due of. -/
def StageReq.entry (q : StageReq) (r : Row) : StageEntry := { bolt := q.bolt, row := q.row, kind := .row, bytes := r.payload }

/-- R126: the oldest row copy due in Harness h is made, and counts. -/
def State.copyRow (s : State) (h : Nat) (q : StageReq) (rest : List StageReq) (r : Row) : State :=
  ((s.copyLeaves h rest).modHarness h (fun x => { x with stage := x.stage ++ [q.entry r] })).bump (SD_ROW_EVENTS.ROWS_MOVED_IN h)

/-- The copy is due no more, and its entry stands last in the row stage. -/
theorem State.copyRow_harnesses (s : State) (h : Nat) (q : StageReq) (rest : List StageReq) (r : Row) :
    (s.copyRow h q rest r).heddle.harnesses =
      modAt s.heddle.harnesses h (fun x => { x with reqs := rest, stage := x.stage ++ [q.entry r] }) := by
  rw [State.copyRow, State.bump_heddle]
  exact modAt_modAt ..

theorem State.copyRow_counts (s : State) (h : Nat) (q : StageReq) (rest : List StageReq) (r : Row) :
    (s.copyRow h q rest r).get (SD_ROW_EVENTS.ROWS_MOVED_IN h) =
      min (s.get (SD_ROW_EVENTS.ROWS_MOVED_IN h) + 1) (2 ^ fldWidth (SD_ROW_EVENTS.ROWS_MOVED_IN h) - 1) := by
  rw [State.copyRow, State.get_bump_self _ _ 1 (Nat.zero_le _) (by decide : 31 < 64), State.modHarness_get, State.copyLeaves,
    State.modHarness_get]

theorem State.copyRow_weft (s : State) (h : Nat) (q : StageReq) (rest : List StageReq) (r : Row) :
    (s.copyRow h q rest r).weft = s.weft := by
  rw [State.copyRow, State.bump_weft, State.modHarness_weft, State.copyLeaves, State.modHarness_weft]

theorem State.copyRow_tiers (s : State) (h : Nat) (q : StageReq) (rest : List StageReq) (r : Row) :
    (s.copyRow h q rest r).tiers = s.tiers := by
  rw [State.copyRow, State.bump_tiers, State.modHarness_tiers, State.copyLeaves, State.modHarness_tiers]

theorem exec_rowStageCopy (h : Fin 8) (s : State) : exec (.rowStageCopy h) s = execRowStageCopy h s := rfl

section
variable {s : State} {h : Fin 8} {q : StageReq} {rest : List StageReq} {r : Row}

/-- A row that left the bolt table is copied no more. -/
theorem exec_rowStageCopy_gone (hs : s.serving = true) (hreqs : (s.harness h.val).reqs = q :: rest)
    (hrow : s.row? q.bolt q.row = none) : exec (.rowStageCopy h) s = .next (s.copyLeaves h.val rest) := by
  rw [exec_rowStageCopy, execRowStageCopy]
  simp only [hreqs, hs, hrow]
  rfl

/-- A row that is held is copied where the stage has room, and else stays due. -/
theorem exec_rowStageCopy_held (hs : s.serving = true) (hreqs : (s.harness h.val).reqs = q :: rest)
    (hrow : s.row? q.bolt q.row = some r) (hheld : r.held = true) (hsound : r.spoiled = false) :
    exec (.rowStageCopy h) s =
      .next (if (s.harness h.val).stageUsed + r.payload.length ≤ 2097152 then s.copyRow h.val q rest r else s) := by
  rw [exec_rowStageCopy, execRowStageCopy]
  simp only [hreqs, hs, hrow, hheld, hsound, State.stageFits]
  by_cases hroom : (s.harness h.val).stageUsed + r.payload.length ≤ 2097152
  · simp only [hroom]
    rfl
  · simp [hroom]

end

/-- Settles O29: a held row is copied by `copyRow` while the stage has room, and the copy of a row that is gone is dropped. -/
theorem rowStageTakesTheOldestCopyDue : Obligations.RowStageTakesTheOldestCopyDue := by
  intro s h q rest hs hreqs
  refine ⟨fun r hrow hheld hsound => ?_, exec_rowStageCopy_gone hs hreqs⟩
  rw [exec_rowStageCopy_held hs hreqs hrow hheld hsound]
  refine ⟨fun hroom => ⟨s.copyRow h.val q rest r, by rw [if_pos hroom], s.copyRow_harnesses .., s.copyRow_counts ..,
    s.copyRow_weft .., s.copyRow_tiers ..⟩, fun hfull => by rw [if_neg (Nat.not_le.mpr hfull)]⟩

end Sys2Proof.Machine

/-! Bytes in Beam, read and written by the engine (R249, R265), for the statements of family 06_arithmetic. -/

namespace Sys2Proof.Machine

/-! ## Reads that only use their pages (R249, R255) -/

/-- R249: a tile of the Loom range that can be read at once. -/
def State.tileReady (s : State) (t : Nat) : Prop :=
  (s.regionOfPage (t / 64)).isSome = true ∧ (s.page (t / 64)).st ≠ .lost ∧ s.pageFailed (t / 64) = false ∧ s.tileState t = .valid

theorem State.inBeam_iff {s : State} {a n : Nat} :
    s.inBeam a n ↔ s.tiers.writes = [] ∧ ∀ t ∈ tilesOf a n, s.tileReady t := Iff.rfl

/-- R255: a state that differs from another in the last use of its pages at most. -/
def onlyUsed (s t : State) : Prop :=
  t = { s with tiers := { s.tiers with pages := t.tiers.pages } } ∧ ∀ p, ∃ n, t.page p = { s.page p with lastUse := n }

section
variable {s t u : State}

theorem onlyUsed_refl (s : State) : onlyUsed s s := ⟨rfl, fun p => ⟨(s.page p).lastUse, rfl⟩⟩

theorem onlyUsed_trans (a : onlyUsed s t) (b : onlyUsed t u) : onlyUsed s u := by
  refine ⟨by rw [b.1, a.1], fun p => ?_⟩
  obtain ⟨m, hm⟩ := a.2 p
  obtain ⟨n, hn⟩ := b.2 p
  exact ⟨n, by rw [hn, hm]⟩

theorem onlyUsed_touchPage (s : State) (p : Nat) : onlyUsed s (s.touchPage p) := by
  refine ⟨rfl, fun q => ?_⟩
  by_cases hq : q = p
  · exact ⟨s.revolution, by rw [hq]; exact mapGet_mapPut_self _ _ _ _⟩
  · exact ⟨(s.page q).lastUse, mapGet_mapPut_ne _ _ _ hq⟩

theorem onlyUsed.regionOfPage (h : onlyUsed s t) (p : Nat) : t.regionOfPage p = s.regionOfPage p := by
  rw [h.1]
  rfl

theorem onlyUsed.pageFailed (h : onlyUsed s t) (p : Nat) : t.pageFailed p = s.pageFailed p := by
  have hback : ∀ r, t.backFailed r = s.backFailed r := fun r => by rw [h.1]; rfl
  obtain ⟨n, hn⟩ := h.2 p
  unfold State.pageFailed
  simp only [hn, hback, h.regionOfPage]

theorem onlyUsed.tileState (h : onlyUsed s t) (x : Nat) : t.tileState x = s.tileState x := by
  obtain ⟨n, hn⟩ := h.2 (x / 64)
  unfold State.tileState
  rw [hn]
  rfl

theorem onlyUsed.tileReady (h : onlyUsed s t) {x : Nat} (hx : s.tileReady x) : t.tileReady x := by
  obtain ⟨n, hn⟩ := h.2 (x / 64)
  unfold State.tileReady at *
  rw [h.regionOfPage, h.pageFailed, h.tileState, hn]
  exact hx

theorem onlyUsed.writes (h : onlyUsed s t) : t.tiers.writes = s.tiers.writes := by rw [h.1]

/-- R249: bytes in Beam are in Beam after a read. -/
theorem onlyUsed.inBeam (h : onlyUsed s t) {a n : Nat} (hb : s.inBeam a n) : t.inBeam a n :=
  ⟨h.writes.trans hb.1, fun x hx => h.tileReady (hb.2 x hx)⟩

theorem onlyUsed.get (h : onlyUsed s t) (f : Fld) : t.get f = s.get f := by
  rw [h.1]
  rfl

theorem onlyUsed.recordAddr (h : onlyUsed s t) (a : Nat) : t.recordAddr a = s.recordAddr a := by
  rw [h.1]
  rfl

theorem onlyUsed.learner? (h : onlyUsed s t) (a rev : Nat) : t.learner? a rev = s.learner? a rev := by
  rw [h.1]
  rfl

theorem onlyUsed.rawDir (h : onlyUsed s t) (a : Nat) : t.rawDir a = s.rawDir a := by
  rw [h.1]
  rfl

theorem onlyUsed.runMat (h : onlyUsed s t) (d : Dir) (run : Run) (sec : Section) : t.runMat d run sec = s.runMat d run sec := by
  rw [h.1]
  rfl

theorem onlyUsed.sectionOf (h : onlyUsed s t) (d : Dir) (opt l p : Nat) (isB : Bool) :
    t.sectionOf d opt l p isB = s.sectionOf d opt l p isB := by
  rw [h.1]
  rfl

end

section
variable {s : State} {a n : Nat}

theorem State.reachTile_ready {x : Nat} (h : s.tileReady x) (source : Nat) : s.reachTile x source = (s.touchPage (x / 64), true) := by
  obtain ⟨hregion, hlost, hfailed, hvalid⟩ := h
  obtain ⟨r, hr⟩ := Option.isSome_iff_exists.mp hregion
  unfold State.reachTile
  simp [hr, hlost, hfailed, hvalid]

/-- R249: tiles that can be read at once are read one after another. -/
theorem State.reachTiles_ready (source : Nat) {l : List Nat} (h : ∀ x ∈ l, s.tileReady x) :
    l.foldl (fun (b : State × Bool) x => let r := b.1.reachTile x source; (r.1, b.2 && r.2)) (s, true) =
      (l.foldl (fun s x => s.touchPage (x / 64)) s, true) := by
  induction l generalizing s with
  | nil => rfl
  | cons x l ih =>
    obtain ⟨hx, hl⟩ := List.forall_mem_cons.mp h
    simp only [List.foldl_cons, State.reachTile_ready hx, Bool.and_self]
    exact ih (fun y hy => (onlyUsed_touchPage s _).tileReady (hl y hy))

theorem onlyUsed_touchTiles (l : List Nat) (s : State) : onlyUsed s (l.foldl (fun s x => s.touchPage (x / 64)) s) := by
  induction l generalizing s with
  | nil => exact onlyUsed_refl s
  | cons x l ih => exact onlyUsed_trans (onlyUsed_touchPage s _) (ih _)

/-- R249: bytes in Beam are read at once, and their pages are used. -/
theorem State.loomRead_inBeam (h : s.inBeam a n) (source : Nat) :
    onlyUsed s (s.loomRead source a n).1 ∧ (s.loomRead source a n).2 = some (getRun s.tiers.beam a n) := by
  obtain ⟨hw, hready⟩ := State.inBeam_iff.mp h
  have hused := onlyUsed_touchTiles (tilesOf a n) s
  unfold State.loomRead
  simp only [State.settle_none hw, State.reachTiles_ready source hready, if_true]
  exact ⟨hused, by rw [hused.1]⟩

theorem onlyUsed_loomReadOpen (h : s.inBeam a n) (source : Nat) : onlyUsed s (s.loomReadOpen source a n).1 := by
  obtain ⟨hused, hbytes⟩ := State.loomRead_inBeam h source
  unfold State.loomReadOpen
  simp only [hbytes]
  exact hused

/-- R213: a directory entry in Beam comes within reach. -/
theorem onlyUsed_reachDir {x : Nat} (h : s.inBeam (s.dirAddr x) 64) : onlyUsed s (s.reachDir x) := by
  unfold State.reachDir
  split
  · exact (State.loomRead_inBeam h 8).1
  · exact onlyUsed_refl s

end

/-! ## Writes of bytes in Beam (R255, R265, R418) -/

/-- What a write of bytes in Beam leaves: beside the tiers, the Treadle's part and the register window nothing changes, no tile and no
frame is asked for, and the word at `off` stands. -/
structure BeamTakes (off : Nat) (s t : State) : Prop where
  frame : t = { s with regs := t.regs, tiers := t.tiers, dbg := t.dbg }
  wanted : t.tiers.wanted = s.tiers.wanted
  starved : t.tiers.starved = s.tiers.starved
  word : t.word off = s.word off

section
variable {off : Nat} {s t u : State}

theorem BeamTakes.refl (off : Nat) (s : State) : BeamTakes off s s := ⟨rfl, rfl, rfl, rfl⟩

theorem BeamTakes.trans (a : BeamTakes off s t) (b : BeamTakes off t u) : BeamTakes off s u where
  frame := by rw [b.frame, a.frame]
  wanted := b.wanted.trans a.wanted
  starved := b.starved.trans a.starved
  word := b.word.trans a.word

theorem BeamTakes.foldl {α : Type} {f : State → α → State} (hf : ∀ s a, BeamTakes off s (f s a)) (l : List α) (s : State) :
    BeamTakes off s (l.foldl f s) := by
  induction l generalizing s with
  | nil => exact .refl off s
  | cons a l ih => exact (hf s a).trans (ih _)

theorem BeamTakes.set {f : Fld} (hf : off ≠ f.off) (s : State) (v : Nat) : BeamTakes off s (s.set f v) :=
  ⟨rfl, rfl, rfl, State.word_set_ne s f v off hf⟩

theorem BeamTakes.bump {f : Fld} (hf : off ≠ f.off) (s : State) (n : Nat) : BeamTakes off s (s.bump f n) := .set hf s _

theorem BeamTakes.of_rewrites {l : List Nat} (h : rewrites s t l) (ho : off ∉ l) : BeamTakes off s t where
  frame := by rw [h.1]
  wanted := by rw [h.1]
  starved := by rw [h.1]
  word := h.2 off ho

theorem BeamTakes.of_used (h : onlyUsed s t) : BeamTakes off s t where
  frame := by rw [h.1]
  wanted := by rw [h.1]
  starved := by rw [h.1]
  word := by rw [h.1]; rfl

/-- R255, R266: a page is evicted, at once or through its write-back. -/
theorem BeamTakes.evictPage (s : State) (p : Nat) : BeamTakes off s (s.evictPage p) := by
  unfold State.evictPage
  split
  · exact ⟨rfl, rfl, rfl, rfl⟩
  · unfold State.startWriteBack
    split
    · exact .refl off s
    · exact ⟨rfl, rfl, rfl, rfl⟩
  · exact .refl off s

/-- R255: evictions keep frames free. -/
theorem BeamTakes.keepFree (s : State) : BeamTakes off s s.keepFree := by
  unfold State.keepFree
  dsimp only
  split
  · exact .refl off s
  · exact .foldl BeamTakes.evictPage _ _

theorem rewrites_tierLog (s : State) (kind unit addr : Nat) : rewrites s (s.tierLog kind unit addr) [TM_FAULT_LOG.VALID.off] := by
  unfold State.tierLog
  split
  · exact rewrites_refl s _
  · exact (((rewrites_set s _ _).set _ _ (by decide)).set _ _ (by decide)).set _ _ (by decide)

end

/-- Does a word lie between the watchpoints of the Treadle and the registers of the Tier Manager? No write of bytes in Beam changes
such a word. -/
def besideAccess (off : Nat) : Prop := BD_DBG_WLOG.VALID.off < off ∧ off < TM_IRQ_STATUS.RO_WRITE.off

section
variable {off : Nat}

theorem State.word_orderHalt (s : State) (r : HaltReq) : (s.orderHalt r).word off = s.word off := by
  unfold State.orderHalt
  split <;> rfl

theorem State.word_xtrigPulse (s : State) : s.xtrigPulse.word off = s.word off := by
  unfold State.xtrigPulse
  split <;> rfl

theorem State.word_ite {c : Bool} {s t : State} (h : t.word off = s.word off) : (if c then t else s).word off = s.word off := by
  cases c
  · rfl
  · exact h

theorem State.word_debugHit {ctrl : Nat} (hc : off ≠ ctrl) (s : State) (code index : Nat) (loc : Option Nat) :
    (s.debugHit code index ctrl loc).word off = s.word off := by
  have hset : ∀ (u : State) (hi lo v : Nat), (u.set ⟨ctrl, hi, lo⟩ v).word off = u.word off := fun u _ _ v =>
    State.word_set_ne u _ v off hc
  have hmark : ∀ u : State, ({ u with dbg := { u.dbg with lastHit := code, lastIndex := index } } : State).word off = u.word off :=
    fun _ => rfl
  have hbefore := (State.word_ite (c := bitOf ((s.bump ⟨ctrl, 31, 0⟩).word ctrl).toNat 58) (State.word_xtrigPulse _)).trans
    ((State.word_ite (c := bitOf ((s.bump ⟨ctrl, 31, 0⟩).word ctrl).toNat 57) (hset _ 63 63 0)).trans
      ((hmark _).trans (State.word_bump_ne s ⟨ctrl, 31, 0⟩ 1 off hc)))
  unfold State.debugHit
  dsimp only
  split
  · exact (State.word_orderHalt _ _).trans hbefore
  · exact (State.word_orderHalt _ _).trans hbefore
  · exact (State.word_orderHalt _ _).trans hbefore
  · exact hbefore

/-- R418: watchpoints see an access. -/
theorem State.word_watchAccess (ho : besideAccess off) (s : State) (write : Bool) (source : Nat) (loc : Option Nat) (lo n : Nat)
    (bytes : List Byte) : (s.watchAccess write source loc lo n bytes).word off = s.word off := by
  have hlog : off ≠ BD_DBG_WLOG.VALID.off := Nat.ne_of_gt ho.1
  have hpoint : ∀ j < 8, off ≠ (BD_DBG_WP.ENABLE j).off := fun j hj => by
    have habove : 0x402500 < off := ho.1
    show off ≠ 0x402400 + j * 0x20
    omega
  unfold State.watchAccess
  split
  · rfl
  · refine List.foldlRecOn (motive := fun u : State => u.word off = s.word off) _ _ rfl fun u hu j hj => ?_
    dsimp only
    split
    · exact hu
    · refine (State.word_debugHit (hpoint j (List.mem_range.mp hj)) _ _ _ _).trans ?_
      split
      · exact hu
      · exact (((((rewrites_set u _ _).set _ _ (by decide)).set _ _ (by decide)).set _ _ (by decide)).set _ _ (by decide)).2 off
          (by simpa using hlog) |>.trans hu

theorem BeamTakes.watchAccess (ho : besideAccess off) (s : State) (write : Bool) (source : Nat) (loc : Option Nat) (lo n : Nat)
    (bytes : List Byte) : BeamTakes off s (s.watchAccess write source loc lo n bytes) := by
  have honly := onlyWatch_watchAccess s write source loc lo n bytes
  unfold onlyWatch at honly
  exact ⟨by rw [honly], by rw [honly], by rw [honly], State.word_watchAccess ho ..⟩

/-- R265: bytes for a tile of Beam that is VALID land or are dropped: no tile and no frame is asked for. -/
theorem BeamTakes.landInTile (ho : besideAccess off) {s : State} {addr : Nat} (h : s.tileReady (addr / tileBytes)) (source : Nat)
    (loc : Option Nat) (bytes : List Byte) : BeamTakes off s (s.landInTile source loc addr bytes).1 := by
  obtain ⟨hregion, hlost, hfailed, hvalid⟩ := h
  obtain ⟨r, hr⟩ := Option.isSome_iff_exists.mp hregion
  have hheld := State.held_of_valid hvalid
  have hfetching : (TileSt.valid == TileSt.fetching) = false := rfl
  have hinvalid : (TileSt.valid == TileSt.invalid) = false := rfl
  have hbelow : off < 0x2000028 := ho.2
  unfold State.landInTile
  simp only [hr, hfailed, hheld, hvalid, hfetching, hinvalid, beq_eq_false_iff_ne.mpr hlost, Bool.not_true,
    Bool.false_and, if_true, Bool.false_eq_true, if_false, Bool.or_false]
  split
  · exact ((BeamTakes.bump (f := TM_WRITE_EVENTS.RO_WRITES) (by show off ≠ 0x2000070; omega) s 1).trans
      (.set (f := TM_IRQ_STATUS.RO_WRITE) (by show off ≠ 0x2000028; omega) _ 1)).trans (.of_rewrites (rewrites_tierLog _ 3 15 addr)
        (by show off ∉ [0x2000060]; simp; omega))
  · refine BeamTakes.trans (t := State.keepFree _) ?_ (.watchAccess ho _ _ _ _ _ _ _)
    refine BeamTakes.trans ?_ (.keepFree _)
    exact ⟨rfl, rfl, rfl, rfl⟩

/-- Bytes that lie in one tile. -/
theorem tilesOf_one {a n : Nat} (hn : 0 < n) (h : a % tileBytes + n ≤ tileBytes) : tilesOf a n = [a / tileBytes] := by
  have hlast : (a + n - 1) / tileBytes = a / tileBytes := by unfold tileBytes at *; omega
  have hsome : ¬ (n == 0) = true := by simpa using Nat.ne_of_gt hn
  unfold tilesOf
  rw [if_neg hsome, hlast, Nat.sub_self]
  simp

theorem splitTiles_one {a : Nat} {bytes : List Byte} (hn : 0 < bytes.length) (h : a % tileBytes + bytes.length ≤ tileBytes) :
    splitTiles a bytes = [(a, bytes)] := by
  have hlo : max a (a / tileBytes * tileBytes) = a := max_eq_left (Nat.div_mul_le_self a tileBytes)
  have hroom : bytes.length ≤ (a / tileBytes + 1) * tileBytes - a := by unfold tileBytes at *; omega
  unfold splitTiles
  rw [tilesOf_one hn h]
  simp only [List.map_cons, List.map_nil, hlo, Nat.sub_self, List.drop_zero, List.take_of_length_le hroom]

/-- R265: an engine write into one tile of Beam lands within its command, or is dropped. -/
theorem BeamTakes.loomWrite (ho : besideAccess off) {s : State} {a : Nat} {bytes : List Byte} (hn : 0 < bytes.length)
    (h : a % tileBytes + bytes.length ≤ tileBytes) (hb : s.inBeam a bytes.length) (source : Nat) :
    BeamTakes off s (s.loomWrite source a bytes) := by
  obtain ⟨hw, hready⟩ := State.inBeam_iff.mp hb
  have htile : s.tileReady (a / tileBytes) := hready _ (by rw [tilesOf_one hn h]; exact List.mem_singleton_self _)
  have hland := BeamTakes.landInTile ho htile source none bytes
  unfold State.loomWrite State.landOrNote State.landBytes
  simp only [State.settle_none hw, splitTiles_one hn h, List.foldl_cons, List.foldl_nil]
  split
  · exact hland
  · exact hland.trans ⟨rfl, rfl, rfl, rfl⟩

end

/-! ## Learn records (R203, R205) -/

/-- R203: the four words of a learn record lie in one tile. -/
theorem State.recordAddr_room (s : State) (x : Nat) : s.recordAddr x % tileBytes + 32 ≤ tileBytes := by
  unfold State.recordAddr tileBytes
  omega

/-- R203: a learn record in Beam is read. -/
theorem onlyUsed_readRecord {s : State} {a : Nat} (hb : s.inBeam (s.recordAddr a) 32) : onlyUsed s (s.readRecord a).1 := by
  have hwords : ∀ r : State × List Byte, onlyUsed s r.1 →
      onlyUsed s (r.1, (groupsOf 8 r.2).map (fun b => BitVec.ofNat 64 (leNat b))).1 := fun _ h => h
  exact hwords _ (onlyUsed_loomReadOpen hb 8)

theorem recordBytes_length (w0 w1 w2 w3 : W64) : ([w0, w1, w2, w3].flatMap wordBytes).length = 32 := rfl

/-- R203: a learn record in Beam is written. -/
theorem BeamTakes.putRecord {off : Nat} (ho : besideAccess off) {s : State} {a : Nat} {ws : List W64}
    (hb : s.inBeam (s.recordAddr a) 32) (hlen : (ws.flatMap wordBytes).length = 32) : BeamTakes off s (s.putRecord a ws) := by
  have hwrite : s.putRecord a ws = s.loomWrite 8 (s.recordAddr a) (ws.flatMap wordBytes) := rfl
  rw [hwrite]
  exact .loomWrite ho (by rw [hlen]; decide) (by rw [hlen]; exact s.recordAddr_room a) (by rw [hlen]; exact hb) 8

/-- R203: a learn record in Beam is read and written back. -/
theorem BeamTakes.writeBackRecord {off : Nat} (ho : besideAccess off) {s : State} {x : Learner}
    (hb : s.inBeam (s.recordAddr x.adapter) 32) (w0 w1 : W64) (skipped clip : Nat) :
    BeamTakes off s (s.writeBackRecord x w0 w1 skipped clip) := by
  have hused : onlyUsed s (s.readRecord x.adapter).1 := onlyUsed_readRecord hb
  unfold State.writeBackRecord
  refine (BeamTakes.of_used hused).trans (.putRecord ho ?_ (recordBytes_length _ _ _ _))
  rw [hused.recordAddr]
  exact hused.inBeam hb

/-- R205: a learner whose update is skipped. -/
def Learner.skip (y : Learner) : Learner := { y with normDone := true, skipped := true, waiting := [] }

theorem State.skipUpdate_eq (s : State) (x : Learner) (normSq : Option F32) : ∃ w0 w1 clip,
    s.skipUpdate x normSq =
      ((s.writeBackRecord x w0 w1 1 clip).bump ST_LEARN_EVENTS.SKIPPED).modLearner x.adapter x.rev Learner.skip :=
  ⟨_, _, _, rfl⟩

theorem State.mem_modLearner {s : State} {a rev : Nat} {f : Learner → Learner} {y : Learner}
    (hy : y ∈ (s.modLearner a rev f).skein.learners) (ha : y.adapter = a) (hr : y.rev = rev) : ∃ z, y = f z := by
  obtain ⟨z, -, rfl⟩ := List.mem_map.mp hy
  by_cases hz : (z.adapter == a && z.rev == rev) = true
  · exact ⟨z, if_pos hz⟩
  · rw [if_neg hz] at ha hr
    simp [ha, hr] at hz

/-- R205: what the skip of an update leaves, from the state in which the learn record is written back. -/
def updateSkipped (s : State) (x : Learner) (t : State) : Prop :=
  t.tiers.wanted = s.tiers.wanted ∧ t.tiers.starved = s.tiers.starved ∧
    t.get ST_LEARN_EVENTS.SKIPPED = min (s.get ST_LEARN_EVENTS.SKIPPED + 1) (2 ^ fldWidth ST_LEARN_EVENTS.SKIPPED - 1) ∧
    ∀ y ∈ t.skein.learners, y.adapter = x.adapter → y.rev = x.rev → y.normDone = true ∧ y.skipped = true

theorem BeamTakes.updateSkipped {s u : State} (h : BeamTakes ST_LEARN_EVENTS.SKIPPED.off s u) (x : Learner) :
    updateSkipped s x ((u.bump ST_LEARN_EVENTS.SKIPPED).modLearner x.adapter x.rev Learner.skip) := by
  refine ⟨h.wanted, h.starved, ?_, fun y hy ha hr => ?_⟩
  · have hcount := State.get_bump_self u ST_LEARN_EVENTS.SKIPPED 1 (by decide) (by decide)
    rw [State.get_of_word h.word] at hcount
    exact hcount
  · obtain ⟨z, rfl⟩ := State.mem_modLearner hy ha hr
    exact ⟨rfl, rfl⟩

/-- R205: the skip of an update whose learn record is in Beam. -/
theorem State.skipUpdate_shows {s : State} {x : Learner} (hb : s.inBeam (s.recordAddr x.adapter) 32) (normSq : Option F32) :
    updateSkipped s x (s.skipUpdate x normSq) := by
  obtain ⟨w0, w1, clip, hskip⟩ := s.skipUpdate_eq x normSq
  rw [hskip]
  exact (BeamTakes.writeBackRecord (by unfold besideAccess; decide) hb w0 w1 1 clip).updateSkipped x

end Sys2Proof.Machine

/-! Strands, long sums and the norm of a learner (family 06_arithmetic): the statement O33. -/

namespace Sys2Proof.Machine

/-! ## Flying-shuttle reductions (R151, R311) -/

theorem State.pinPages_heddle (s : State) (addr n : Nat) (d : Bool) : (s.pinPages addr n d).heddle = s.heddle := by
  unfold State.pinPages
  refine foldl_keeps State.heddle (fun _ _ => ?_) _ s
  rfl

theorem State.queueWrite_heddle (s : State) (source : Nat) (loc : Option Nat) (addr : Nat) (bytes : List Byte) :
    (s.queueWrite source loc addr bytes).heddle = s.heddle := by
  unfold State.queueWrite
  split
  · rfl
  · exact State.pinPages_heddle ..

/-- R191: a stash entry takes no part of the cores or the network. -/
theorem State.stashWrite_heddle (s : State) (h : Nat) (e : Stash) (bytes : List Byte) : (s.stashWrite h e bytes).heddle = s.heddle := by
  unfold State.stashWrite
  dsimp only
  split
  · rfl
  · split
    · rfl
    · exact State.queueWrite_heddle ..

theorem State.stashRow_heddle (s : State) (h : Nat) (b : Bolt) (row proj : Nat) (isDh : Bool) (bytes : List Byte) :
    (s.stashRow h b row proj isDh bytes).heddle = s.heddle := by
  unfold State.stashRow
  split
  · split
    · rfl
    · exact State.stashWrite_heddle ..
  · rfl

theorem rewrites_networkSat (s : State) (source : Nat) (l : Nat × Nat × Nat × Nat) :
    rewrites s (s.networkSat source l) [RN_FLAG_EVENTS.SAT_TILES.off, RN_SAT_LOG.VALID.off] :=
  rewrites_trans (rewrites_set s RN_FLAG_EVENTS.SAT_TILES _) (rewrites_logSat ..) (by simp) (by simp)

theorem onlyRegs_networkSat_ite (s : State) (c : Bool) (source : Nat) (l : Nat × Nat × Nat × Nat) :
    onlyRegs s (if c then s.networkSat source l else s) := by
  cases c
  · exact onlyRegs_refl s
  · exact (rewrites_networkSat s source l).1

theorem State.networkSat_heddle (s : State) (source : Nat) (l : Nat × Nat × Nat × Nat) :
    (s.networkSat source l).heddle = s.heddle := by
  rw [(rewrites_networkSat s source l).1]

/-- R311: once H has returned, the partials of the bolt are gone. -/
def Sprint.returned (f : Sprint) : Sprint := { f with hDone := true, parts := [] }

/-- R311: H returns down the tree. -/
theorem State.sprintReturn_sprint {s : State} {f : Sprint} {b : Bolt} (hb : s.bolt? f.bolt = some b) :
    (s.sprintReturn f).heddle.sprint = some f.returned := by
  unfold State.sprintReturn
  rw [hb]
  dsimp only
  refine (foldl_keeps (fun u : State => u.heddle.sprint) (fun u r => ?_) _ _).trans rfl
  rw [State.stashRow_heddle]
  refine (foldl_keeps (fun u : State => u.heddle.sprint) (fun _ _ => ?_) _ _).trans ?_
  · rfl
  · split <;> split <;> simp only [State.networkSat_heddle]

/-! ## Strands and cells (R146) -/

theorem exec_strandCombine (h : Fin 8) (s : State) : exec (.strandCombine h) s = execStrandCombine h s := rfl

section
variable {s : State} {h : Fin 8}

theorem exec_strandCombine_sprint {f : Sprint} (hs : s.serving = true) (hf : s.heddle.sprint.filter s.sprintDone = some f) :
    exec (.strandCombine h) s = .next (s.after (s.sprintReturn f)) := by
  simp only [exec_strandCombine, execStrandCombine, State.powered_of_serving hs, hf, Bool.not_true, Bool.false_eq_true, if_false]

theorem exec_strandCombine_strand {x : LongSum} {st : Strand} (hs : s.serving = true)
    (hf : s.heddle.sprint.filter s.sprintDone = none) (hx : s.nextStrand h.val = some (x, st)) :
    exec (.strandCombine h) s = .next (s.after (s.combineStrand x st)) := by
  simp only [exec_strandCombine, execStrandCombine, State.powered_of_serving hs, hf, hx, Bool.not_true, Bool.false_eq_true, if_false]

theorem exec_strandCombine_pair {x : LongSum} {c d : Cell} (hs : s.serving = true)
    (hf : s.heddle.sprint.filter s.sprintDone = none) (hx : s.nextStrand h.val = none) (hp : s.nextPair h.val = some (x, c, d)) :
    exec (.strandCombine h) s = .next (s.after (s.combinePair x c d)) := by
  simp only [exec_strandCombine, execStrandCombine, State.powered_of_serving hs, hf, hx, hp, Bool.not_true, Bool.false_eq_true,
    if_false]

theorem exec_strandCombine_none (hs : s.serving = true) (hf : s.heddle.sprint.filter s.sprintDone = none)
    (hx : s.nextStrand h.val = none) (hp : s.nextPair h.val = none) : exec (.strandCombine h) s = .next s := by
  simp only [exec_strandCombine, execStrandCombine, State.powered_of_serving hs, hf, hx, hp, Bool.not_true, Bool.false_eq_true,
    if_false, State.after_self]

end

section
variable {s : State} {x : LongSum}

/-- R146: an add of the network counts, and writes words of the window alone. -/
theorem onlyRegs_countAdd (s : State) (x : LongSum) (a b r : List (Nat × Partial)) : onlyRegs s (s.countAdd x a b r) := by
  unfold State.countAdd
  dsimp only
  split
  · exact onlyRegs_trans (onlyRegs_bump s _ 1) (rewrites_networkSat ..).1
  · exact onlyRegs_bump s _ 1

theorem State.get_countAdd (s : State) (x : LongSum) (a b r : List (Nat × Partial)) : (s.countAdd x a b r).get RN_EVENTS.COMBINES =
    min (s.get RN_EVENTS.COMBINES + 1) (2 ^ fldWidth RN_EVENTS.COMBINES - 1) := by
  have hcount := State.get_bump_self s RN_EVENTS.COMBINES 1 (by decide) (by decide)
  unfold State.countAdd
  dsimp only
  split
  · rw [State.get_of_word ((rewrites_networkSat _ 2 x.last).2 RN_EVENTS.COMBINES.off (by decide)), hcount]
  · exact hcount

theorem State.freeSpill_none {c : Cell} (hc : c.frame = none) : s.freeSpill c = s := by
  unfold State.freeSpill
  rw [hc]

theorem State.freeSpill_get (s : State) (c : Cell) (f : Fld) : (s.freeSpill c).get f = s.get f := by
  unfold State.freeSpill
  split <;> rfl

/-- R146: two siblings that make their node count as one add. -/
theorem State.get_combinePair (s : State) (x : LongSum) (c d : Cell) : (s.combinePair x c d).get RN_EVENTS.COMBINES =
    min (s.get RN_EVENTS.COMBINES + 1) (2 ^ fldWidth RN_EVENTS.COMBINES - 1) := by
  unfold State.combinePair
  dsimp only
  rw [State.get_countAdd, State.freeSpill_get, State.freeSpill_get]
  rfl

/-- R146: the first strand of a cell becomes the cell. -/
theorem State.combineStrand_first {st : Strand} (hc : x.cells.find? st.joins = none) :
    s.combineStrand x st = s.putSum x { x with
      strands := x.strands.filter (· != st)
      cells := x.cells ++ [{ index := cellOf st.firstTerm, outTile := st.outTile, harness := st.harness, elems := st.elems }] } := by
  unfold State.combineStrand
  rw [hc]

/-- R146: a later strand of a cell is added to it. -/
theorem State.combineStrand_later {st : Strand} {c : Cell} (hc : x.cells.find? st.joins = some c) (hf : c.frame = none) :
    s.combineStrand x st = (s.putSum x { x with
      strands := x.strands.filter (· != st)
      cells := modWhere st.joins (fun _ => { c.readBack with elems := addElems c.readBack.elems st.elems }) x.cells }).countAdd x
        c.readBack.elems st.elems (addElems c.readBack.elems st.elems) := by
  unfold State.combineStrand
  rw [hc]
  dsimp only
  rw [State.freeSpill_none hf]

end

/-! ## Attempts that take effect (R249) -/

/-- R249: an attempt that asks for no tile and no frame leaves what its operation leaves. -/
theorem State.attempt_shows {s : State} {op : State → State} (htry : s.tiers.trying = false)
    (hwanted : (op s.opened).tiers.wanted = []) (hstarved : (op s.opened).tiers.starved = false) :
    let t := s.after (s.attempt op).1
    t.regs = (op s.opened).regs ∧ t.heddle = (op s.opened).heddle ∧ t.spindles = (op s.opened).spindles ∧
      t.skein = (op s.opened).skein ∧ t.tiers.work = (op s.opened).tiers.work := by
  rw [State.attempt_taken htry hwanted hstarved]
  exact ⟨rfl, rfl, rfl, rfl, rfl⟩

/-! ## Norm and scalars (R205) -/

theorem exec_normAndScalars (a : BitVec 16) (s : State) : exec (.normAndScalars a) s = execNormAndScalars a s := rfl

/-- R205: whatever its directory entry says, the update of an incomplete learner is skipped. -/
theorem State.normAndScalars_incomplete (s : State) {x : Learner} (hx : x.incomplete = true) :
    s.normAndScalars x = (s.reachDir x.adapter).skipUpdate x none := by
  unfold State.normAndScalars
  dsimp only
  split
  · rfl
  · rw [hx, Bool.true_or, if_pos rfl]

/-- R205: a learner that is ready for its norm: its gradients are all written. -/
def State.normDue (s : State) (a : Nat) (x : Learner) : Bool := x.adapter == a && x.learns && !x.normDone && s.gradientsDone x

theorem exec_normAndScalars_due {s : State} {a : BitVec 16} {x : Learner} (hs : s.serving = true)
    (hdue : s.skein.learners.find? (s.normDue a.toNat) = some x) :
    exec (.normAndScalars a) s = .next (s.after (s.attempt (fun s => s.normAndScalars x)).1) := by
  rw [exec_normAndScalars, execNormAndScalars]
  unfold State.normDue at hdue
  simp only [hdue, hs, if_true]

theorem updateSkipped.of_used {s t u : State} {x : Learner} (h : updateSkipped t x u) (hused : onlyUsed s t) : updateSkipped s x u := by
  obtain ⟨hwanted, hstarved, hcount, hlearners⟩ := h
  rw [hused.1] at hwanted hstarved
  rw [hused.get] at hcount
  exact ⟨hwanted, hstarved, hcount, hlearners⟩

/-- R205: with its directory entry and its record in Beam, the update of an incomplete learner is skipped within the attempt. -/
theorem State.normAndScalars_skips {s : State} {x : Learner} (hx : x.incomplete = true) (hdir : s.inBeam (s.dirAddr x.adapter) 64)
    (hrecord : s.inBeam (s.recordAddr x.adapter) 32) : updateSkipped s x (s.normAndScalars x) := by
  have hused := onlyUsed_reachDir hdir
  rw [State.normAndScalars_incomplete s hx]
  exact (State.skipUpdate_shows (by rw [hused.recordAddr]; exact hused.inBeam hrecord) none).of_used hused

theorem exec_normAndScalars_none {s : State} {a : BitVec 16} (h : s.skein.learners = []) : exec (.normAndScalars a) s = .next s := by
  rw [exec_normAndScalars, execNormAndScalars, h]
  rfl

/-! ## The end of a long sum (R199, R201) -/

theorem exec_longSumFinish (a : BitVec 16) (l : BitVec 10) (pj : BitVec 4) (isB : Bool) (s : State) :
    exec (.longSumFinish a l pj isB) s = execLongSumFinish a l pj isB s := rfl

theorem exec_longSumFinish_none {s : State} {a : BitVec 16} {l : BitVec 10} {pj : BitVec 4} {isB : Bool} (h : s.heddle.sums = []) :
    exec (.longSumFinish a l pj isB) s = .next s := by
  rw [exec_longSumFinish, execLongSumFinish, h]
  rfl

/-- R199: the long sum of a matrix that closes. -/
def State.sumDue (s : State) (a l p : Nat) (isB : Bool) (x : LongSum) : Bool :=
  x.adapter == a && x.layer == l && x.proj == p && x.isB == isB && s.sumCloses x

theorem exec_longSumFinish_due {s : State} {a : BitVec 16} {l : BitVec 10} {pj : BitVec 4} {isB : Bool} {x : LongSum}
    (hs : s.serving = true) (hdue : s.heddle.sums.find? (s.sumDue a.toNat l.toNat pj.toNat isB) = some x) :
    exec (.longSumFinish a l pj isB) s = .next (s.after (s.attempt (fun s => s.finishSum x)).1) := by
  rw [exec_longSumFinish, execLongSumFinish]
  unfold State.sumDue at hdue
  simp only [hdue, hs, if_true]

/-- R256: a long sum leaves the network, and its spilled partials their frames. -/
def State.closedSum (s : State) (x : LongSum) : State :=
  { s with heddle := { s.heddle with sums := s.heddle.sums.filter (· != x) } }.freeSpills x

theorem samePages_closedSum (s : State) (x : LongSum) : samePages s (s.closedSum x) := ⟨rfl, rfl, rfl, rfl⟩

/-- R201: the job of GRAD_OUT that takes the matrix of a long sum. -/
def LongSum.outKey (x : LongSum) : JobKey :=
  { cls := 4, bolt := x.rev, adapter := x.adapter, layer := x.layer, proj := x.proj, isB := x.isB }

/-- R165: a job joins a Spindle, whose vectors close as far as the queue has room. -/
def State.feedJob (s : State) (h : Nat) (j : Job) : State := (s.addJob h j).closeVectors h

/-- R349: a long sum that has lost terms forms nothing. -/
theorem State.finishSum_incomplete (s : State) {x : LongSum} (hx : x.incomplete = true) :
    s.finishSum x = ((s.closedSum x).reachDir x.adapter).gradientsDue := by
  unfold State.finishSum
  dsimp only
  rw [if_pos hx]
  rfl

/-- R199, R201: the result of a long sum counts in the network, and goes to a job of its own. -/
theorem State.finishSum_complete {s u : State} {x : LongSum} {y : Learner} {d : Dir} {sec : Section} {m : Mat}
    (hu : (s.closedSum x).reachDir x.adapter = u) (hx : x.incomplete = false) (hy : u.learner? x.adapter x.rev = some y)
    (hd : u.rawDir x.adapter = some d) (hsec : u.sectionOf d y.opt x.layer x.proj x.isB = some sec)
    (hm : u.runMat d ⟨0, 0⟩ sec = some m) : ∃ v lanes, onlyRegs u v ∧
      s.finishSum x = v.feedJob (v.standIn (x.adapter % 8))
        { key := x.outKey, width := v.laneWidth (v.standIn (x.adapter % 8)), open_ := lanes } := by
  have hclosed :
      ({ s with heddle := { s.heddle with sums := s.heddle.sums.filter (· != x) } }.freeSpills x).reachDir x.adapter = u := hu
  unfold State.finishSum
  dsimp only
  rw [hclosed, hx, hy, hd]
  dsimp only
  rw [hsec]
  dsimp only
  rw [hm]
  refine ⟨_, _, ?_, rfl⟩
  exact onlyRegs_trans (onlyRegs_trans (onlyRegs_bump u _ _) (onlyRegs_networkSat_ite _ _ _ _)) (onlyRegs_networkSat_ite _ _ _ _)

/-! ### The job of a finished sum (R165, R169) -/

/-- R169: vectors that close leave the jobs of their Spindle in place. -/
theorem map_key_closeJobs (fed : JobKey → Bool) (room : Nat) (l : List Job) : (closeJobs fed room l).map Job.key = l.map Job.key := by
  induction l generalizing room with
  | nil => rfl
  | cons j l ih =>
    unfold closeJobs
    split
    · exact congrArg (j.key :: ·) (ih _)
    · exact congrArg (j.key :: ·) (ih _)

/-- An element of a list after its change. -/
theorem getD_modAt {α : Type} {l : List α} {h : Nat} (f : α → α) (d : α) (hl : h < l.length) :
    (modAt l h f).getD h d = f (l.getD h d) := by
  simp [List.getD_eq_getElem?_getD, getElem?_modAt, List.getElem?_eq_getElem hl]

/-- A Spindle of the engine after its change. -/
theorem State.spindle_modSpindle {s : State} {h : Nat} (f : Spindle → Spindle) (hl : h < s.spindles.length) :
    (s.modSpindle h f).spindle h = f (s.spindle h) := getD_modAt f {} hl

theorem State.spindle_of {s t : State} (h : t.spindles = s.spindles) (k : Nat) : t.spindle k = s.spindle k := by
  rw [State.spindle, State.spindle, h]

theorem State.feedJob_key {s : State} {h : Nat} (j : Job) (hl : h < s.spindles.length) :
    ∃ k ∈ ((s.feedJob h j).spindle h).jobs, k.key = j.key := by
  have hlen : h < (s.addJob h j).spindles.length := (length_modAt s.spindles h _).symm ▸ hl
  have hkeys : (((s.feedJob h j).spindle h).jobs).map Job.key = ((s.spindle h).jobs ++ [j]).map Job.key := by
    rw [State.feedJob, State.closeVectors, State.spindle_modSpindle _ hlen, State.addJob, State.spindle_modSpindle _ hl]
    exact map_key_closeJobs _ _ _
  have hmem : j.key ∈ (((s.feedJob h j).spindle h).jobs).map Job.key := by simp [hkeys]
  exact List.mem_map.mp hmem

/-! ### What the end of a long sum leaves (R199, R201, R349) -/

/-- R354: which Harness stands in is a matter of the Harnesses in service. -/
theorem State.standIn_of_cust {s t : State} (h : t.cust = s.cust) (x : Nat) : t.standIn x = s.standIn x := by
  unfold State.standIn State.inService
  rw [h]

/-- R199: what every end of a long sum leaves: it is gone from the network, and no tile and no frame is asked for. -/
structure SumEnds (s : State) (x : LongSum) (t : State) : Prop where
  sums : t.heddle.sums = s.heddle.sums.filter (· != x)
  wanted : t.tiers.wanted = s.tiers.wanted
  starved : t.tiers.starved = s.tiers.starved

section
variable {s : State} {x : LongSum}

theorem onlyUsed_closedSum (hb : s.inBeam (s.dirAddr x.adapter) 64) :
    onlyUsed (s.closedSum x) ((s.closedSum x).reachDir x.adapter) :=
  onlyUsed_reachDir ((samePages_closedSum s x).inBeam rfl hb)

theorem SumEnds.of_used {u : State} (h : onlyUsed (s.closedSum x) u) : SumEnds s x u where
  sums := by rw [h.1]; rfl
  wanted := by rw [h.1]; rfl
  starved := by rw [h.1]; rfl

/-- R349: the gradients of a long sum that has lost terms are looked after. -/
theorem State.gradientsDue_work (s : State) : Work.gradients ∈ s.gradientsDue.tiers.work := by
  unfold State.gradientsDue
  split
  · next h => exact List.contains_iff_mem.mp h
  · exact List.mem_append_right _ (List.mem_singleton_self _)

theorem SumEnds.gradientsDue {u : State} (h : SumEnds s x u) : SumEnds s x u.gradientsDue := by
  unfold State.gradientsDue
  split
  · exact h
  · exact ⟨h.sums, h.wanted, h.starved⟩

theorem State.finishSum_drops (hx : x.incomplete = true) (hb : s.inBeam (s.dirAddr x.adapter) 64) :
    SumEnds s x (s.finishSum x) ∧ Work.gradients ∈ (s.finishSum x).tiers.work := by
  rw [State.finishSum_incomplete s hx]
  exact ⟨(SumEnds.of_used (onlyUsed_closedSum hb)).gradientsDue, State.gradientsDue_work _⟩

theorem SumEnds.feedJob {u v : State} (h : SumEnds s x u) (hv : onlyRegs u v) (k : Nat) (j : Job) : SumEnds s x (v.feedJob k j) := by
  obtain ⟨hsums, hwanted, hstarved⟩ := h
  refine ⟨?_, ?_, ?_⟩
  · exact (by rw [hv]; rfl : (v.feedJob k j).heddle.sums = u.heddle.sums).trans hsums
  · exact (by rw [hv]; rfl : (v.feedJob k j).tiers.wanted = u.tiers.wanted).trans hwanted
  · exact (by rw [hv]; rfl : (v.feedJob k j).tiers.starved = u.tiers.starved).trans hstarved

/-- R201: the matrix of a complete long sum goes to a job of GRAD_OUT in the Spindle that stands in for its adapter's. -/
theorem State.finishSum_forms {y : Learner} {d : Dir} {sec : Section} {m : Mat} (hx : x.incomplete = false)
    (hb : s.inBeam (s.dirAddr x.adapter) 64) (hy : s.learner? x.adapter x.rev = some y) (hd : s.rawDir x.adapter = some d)
    (hsec : s.sectionOf d y.opt x.layer x.proj x.isB = some sec) (hm : s.runMat d ⟨0, 0⟩ sec = some m)
    (hl : s.standIn (x.adapter % 8) < s.spindles.length) :
    SumEnds s x (s.finishSum x) ∧ ∃ j ∈ ((s.finishSum x).spindle (s.standIn (x.adapter % 8))).jobs, j.key = x.outKey := by
  obtain ⟨u, hu⟩ : ∃ u, (s.closedSum x).reachDir x.adapter = u := ⟨_, rfl⟩
  have hused : onlyUsed (s.closedSum x) u := hu ▸ onlyUsed_closedSum hb
  obtain ⟨v, lanes, hv, hfinish⟩ := State.finishSum_complete hu hx ((hused.learner? _ _).trans hy) ((hused.rawDir _).trans hd)
    ((hused.sectionOf _ _ _ _ _).trans hsec) ((hused.runMat _ _ _).trans hm)
  have hcust : v.cust = s.cust := by rw [hv, hused.1]; rfl
  have hspindles : v.spindles = s.spindles := by rw [hv, hused.1]; rfl
  rw [hfinish, State.standIn_of_cust hcust]
  exact ⟨(SumEnds.of_used hused).feedJob hv _ _, State.feedJob_key _ (by rw [hspindles]; exact hl)⟩

end

/-! ## The statement O33 -/

/-- Settles O33: each row is its operation on the state at rest, and what is in Beam is read, and written, within the attempt. -/
theorem sumsCombineAndFinish : Obligations.SumsCombineAndFinish := by
  intro s h a l pj isB hs hr
  obtain ⟨⟨htry, -⟩, -⟩ := hr
  have hopen : ∀ {addr n : Nat}, s.inBeam addr n → s.opened.inBeam addr n := (samePages_opened s).inBeam rfl
  refine ⟨fun f hf => ?_, fun hf hx => ?_, fun x st hf hx => ?_, fun x hdue hdir => ?_, exec_longSumFinish_none,
    fun x hdue hx hdir hrecord => ?_, exec_normAndScalars_none⟩
  · have hexec := exec_strandCombine_sprint (h := h) hs hf
    exact ⟨hexec, fun b hb => ⟨_, hexec, State.sprintReturn_sprint hb⟩⟩
  · refine ⟨exec_strandCombine_none hs hf hx, fun x c d hp => ?_⟩
    have hexec := exec_strandCombine_pair hs hf hx hp
    exact ⟨hexec, _, hexec, State.get_combinePair s x c d⟩
  · have hexec := exec_strandCombine_strand hs hf hx
    refine ⟨fun hc => ⟨_, hexec, ?_⟩, fun c hc hframe => ⟨_, hexec, ?_⟩⟩
    · rw [State.combineStrand_first hc]
      exact ⟨rfl, rfl⟩
    · rw [State.combineStrand_later hc hframe]
      exact ⟨by rw [State.after_heddle, onlyRegs_countAdd]; rfl, State.get_countAdd _ x _ _ _⟩
  · have hexec := exec_longSumFinish_due hs hdue
    refine ⟨fun hx => ?_, fun y d sec m hx hy hd hsec hm hl => ?_⟩
    · obtain ⟨⟨hsums, hwanted, hstarved⟩, hwork⟩ := State.finishSum_drops hx (hopen hdir)
      obtain ⟨-, hheddle, -, -, hlater⟩ := State.attempt_shows (op := fun s => s.finishSum x) htry hwanted hstarved
      exact ⟨_, hexec, hheddle ▸ hsums, hlater ▸ hwork⟩
    · obtain ⟨⟨hsums, hwanted, hstarved⟩, j, hj, hkey⟩ :=
        State.finishSum_forms (s := s.opened) hx (hopen hdir) hy hd hsec hm hl
      obtain ⟨-, hheddle, hspindles, -⟩ := State.attempt_shows (op := fun s => s.finishSum x) htry hwanted hstarved
      refine ⟨_, hexec, hheddle ▸ hsums, j, State.spindle_of hspindles _ ▸ hj, ?_⟩
      rw [hkey]
      exact ⟨rfl, rfl, rfl, rfl, rfl, rfl⟩
  · obtain ⟨hwanted, hstarved, hcount, hlearners⟩ := State.normAndScalars_skips hx (hopen hdir) (hopen hrecord)
    obtain ⟨hregs, -, -, hskein, -⟩ := State.attempt_shows (op := fun s => s.normAndScalars x) htry hwanted hstarved
    exact ⟨_, exec_normAndScalars_due hs hdue, (State.get_of_regs hregs _).trans hcount, hskein ▸ hlearners⟩

end Sys2Proof.Machine

/-! The Spindle's registers (family 07_spindle): words of the Harness ranges of the window, and the statement O36. -/

namespace Sys2Proof.Machine

/-! ## Registers of a Harness range (R425, R427) -/

/-- R425: an offset of a Harness range is looked up in the table of the Harness registers. -/
theorem findReg_harness {h b : Nat} (hh : h < 8) (hb : b < 0x200000) :
    findReg (0x3000000 + h * 0x200000 + b) = regsHA.find? (fun r => coversReg r b) := by
  have hlt : 0x3000000 + h * 0x200000 + b < 0x4000000 := by omega
  have hblock : blockOffset (0x3000000 + h * 0x200000 + b) = b := by
    rw [blockOffset, if_neg (by omega)]
    omega
  obtain ⟨n, hn⟩ : ∃ n, (0x3000000 + h * 0x200000 + b) / 0x400000 = n + 12 := ⟨h / 2, by omega⟩
  rw [findReg, if_pos hlt, hblock, blockRegs, hn]
  rfl

/-- R183: the word of a program slot. -/
def progReg : RegWord := ⟨0x14000, [(32, 0x200), (64, 0x8)], [⟨63, 0, .rw, 0⟩]⟩

theorem findReg_prog {h slot i : Nat} (hh : h < 8) (hs : slot < 32) (hi : i < 64) :
    findReg (SV_PROG.WORD h slot i).off = some progReg := by
  have hoff : (SV_PROG.WORD h slot i).off = 0x3000000 + h * 0x200000 + (0x14000 + slot * 0x200 + i * 8) := by
    simp only [SV_PROG.WORD]
    omega
  have hcovers : coversReg progReg (0x14000 + slot * 0x200 + i * 8) = true := by
    unfold progReg
    simp only [coversReg, inDims, Bool.and_eq_true, decide_eq_true_eq, beq_iff_eq]
    omega
  have hothers : (regsHA.dropLast).find? (fun r => coversReg r (0x14000 + slot * 0x200 + i * 8)) = none := by
    rw [List.find?_eq_none]
    simp only [regsHA, regsHA0, regsHA1, List.cons_append, List.nil_append, List.dropLast_cons_cons, List.dropLast_singleton,
      List.forall_mem_cons, coversReg, inDims, Bool.and_eq_true, decide_eq_true_eq, beq_iff_eq]
    refine ⟨?_, ?_, ?_, ?_, ?_, ?_, ?_, ?_, ?_, ?_, ?_, ?_, ?_, ?_, fun _ h => absurd h List.not_mem_nil⟩ <;> omega
  rw [hoff, findReg_harness hh (by omega), show regsHA = regsHA.dropLast ++ [progReg] from rfl, List.find?_append, hothers,
    Option.none_or, List.find?_singleton, hcovers, if_pos rfl]

theorem plainReg_prog {h slot i : Nat} (hh : h < 8) (hs : slot < 32) (hi : i < 64) : plainReg (SV_PROG.WORD h slot i).off = true := by
  rw [plainReg, findReg_prog hh hs hi]
  rfl

theorem plainAcc_prog {h slot i : Nat} (hh : h < 8) (hs : slot < 32) (hi : i < 64) :
    plainAcc (SV_PROG.WORD h slot i) = some .rw := by
  rw [plainAcc, findReg_prog hh hs hi]
  rfl

theorem plainReg_map : ∀ h < 8, ∀ k < 8, plainReg (SV_MAP.SLOT h k).off = true := by decide +kernel

theorem plainAcc_map : ∀ h < 8, ∀ k < 8, plainAcc (SV_MAP.SLOT h k) = some .rw := by decide +kernel

theorem plainReg_ctrl : ∀ h < 8, plainReg (SV_CTRL.RESUME h).off = true := by decide +kernel

theorem plainAcc_ctrl : ∀ h < 8, plainAcc (SV_CTRL.RESUME h) = some .w1s ∧ plainAcc (SV_CTRL.MODE h) = some .rw := by decide +kernel

/-! ## The port, and writes of one register (R10, R12) -/

/-- R12: the whole word of a register that is one field, after a write. -/
theorem State.word_writeFields_whole {s : State} {v : W64} {g : Fld} (h : plainAcc g = some .rw) (hhi : g.hi = 63) (hlo : g.lo = 0) :
    (s.writeFields g.off v).word g.off = v := by
  have hget : (s.writeFields g.off v).get g = bitsOf v.toNat g.hi g.lo := State.get_writeFields_acc h
  have hall : ∀ w : W64, bitsOf w.toNat 63 0 = w.toNat := fun w => by
    rw [bitsOf, pow_zero, Nat.div_one]
    exact Nat.mod_eq_of_lt w.isLt
  rw [State.get, hhi, hlo, hall, hall] at hget
  exact BitVec.eq_of_toNat_eq hget

/-- R10: a write that the port lets through leaves what it does to the window, and the port's answer. -/
theorem State.after_written {s u : State} {l : List Nat} (h : rewrites s u l) :
    s.after { u with resp := .written } = { u with resp := .written } := by
  obtain ⟨hu, -⟩ := h
  rw [hu]
  rfl

/-- R10: the port lets a write through that touches words of the window alone. -/
theorem State.portWrite_shows {s : State} {off : Nat} {f : State → State} {l : List Nat} (hg : s.writeGate off = .made)
    (h : rewrites s (f s) l) : ∃ t, s.after (s.atPort off f) = t ∧ rewrites { s with resp := .written } t l ∧
      t.regs = (f s).regs := by
  refine ⟨{ f s with resp := .written }, ?_, rewrites_written h, rfl⟩
  rw [State.atPort_made f hg, State.after_written h]

/-! ## SV_MAP, SV_PROG and SV_CTRL (R184, R185, R188) -/

/-- R184: an entry that has no reason to be refused is written. -/
theorem State.writeSvMap_admitted {s : State} {h k : Nat} {v : W64} (hr : mapReason k v (s.progWords h (bitsOf v.toNat 4 0)) = 0) :
    s.writeSvMap h k v = s.writeFields (SV_MAP.SLOT h k).off v := by
  rw [State.writeSvMap]
  split
  · rfl
  · next hn => exact absurd hr hn

/-- R184: an entry that has one stands, and SV_STATUS tells the reason. -/
theorem State.writeSvMap_refused {s : State} {h k : Nat} {v : W64} (hr : mapReason k v (s.progWords h (bitsOf v.toNat 4 0)) ≠ 0) :
    s.writeSvMap h k v = (s.set (SV_STATUS.MAP_REFUSED h) 1).set (SV_STATUS.REFUSE_REASON h)
      (mapReason k v (s.progWords h (bitsOf v.toNat 4 0))) := by
  rw [State.writeSvMap]
  split
  · next h0 => exact absurd h0 hr
  · rfl

/-- R188: the word that SPINDLE_RESUME writes to SV_CTRL: RESUME at 1, and MODE as it stands. -/
def State.resumeWord (s : State) (h : Nat) : W64 := cmdWord [(SV_CTRL.RESUME h, 1), (SV_CTRL.MODE h, s.get (SV_CTRL.MODE h))]

theorem State.bitsOf_resumeWord (s : State) (h : Nat) :
    bitsOf (s.resumeWord h).toNat 8 8 = 1 ∧ bitsOf (s.resumeWord h).toNat 0 0 = s.get (SV_CTRL.MODE h) := by
  constructor
  · exact (bitsOf_putBits_apart _ 0 0 _ 8 8 (by decide) (by decide) (by decide)).trans
      (bitsOf_putBits_self 0 8 8 1 (by decide) (by decide))
  · exact (bitsOf_putBits_self _ 0 0 _ (by decide) (by decide)).trans (Nat.mod_eq_of_lt (State.get_lt s (SV_CTRL.MODE h)))

theorem State.get_resumed (s : State) {h : Nat} (hh : h < 8) :
    (s.writeFields (SV_CTRL.RESUME h).off (s.resumeWord h)).get (SV_CTRL.RESUME h) = 1 ∧
      (s.writeFields (SV_CTRL.RESUME h).off (s.resumeWord h)).get (SV_CTRL.MODE h) = s.get (SV_CTRL.MODE h) := by
  obtain ⟨hresume, hmode⟩ := plainAcc_ctrl h hh
  obtain ⟨hone, hsame⟩ := s.bitsOf_resumeWord h
  have hbit : s.get (SV_CTRL.RESUME h) < 2 := State.get_lt s (SV_CTRL.RESUME h)
  constructor
  · rw [State.get_writeFields_acc hresume]
    change s.get (SV_CTRL.RESUME h) ||| bitsOf (s.resumeWord h).toNat 8 8 = 1
    rw [hone]
    interval_cases s.get (SV_CTRL.RESUME h) <;> rfl
  · exact (State.get_writeFields_acc hmode).trans hsame

/-! ## The statement O36 -/

/-- Settles O36: each write goes through the port, and is one write of a register or of fields of SV_STATUS. -/
theorem spindleRegistersAreChecked : Obligations.SpindleRegistersAreChecked := by
  intro s h k slot i v hb hp reason off
  have hgate : ∀ o, s.writeGate o = .made := fun o => State.writeGate_up hb (by simp [hp]) (by simp [hp])
  refine ⟨fun hr => ?_, fun hr => ?_, fun hu => ?_, fun hu => ?_, ?_⟩
  · have hw : s.writeSvMap h.val k.val v = s.writeFields off v := State.writeSvMap_admitted hr
    obtain ⟨t, ht, hrw, hregs⟩ := State.portWrite_shows (f := fun s => s.writeSvMap h.val k.val v) (hgate off)
      (hw ▸ rewrites_writeFields (plainReg_map h.val h.isLt k.val k.isLt))
    rw [hw] at hregs
    exact ⟨t, congrArg Host.Outcome.next ht, hrw,
      (State.get_of_regs hregs _).trans (State.get_writeFields_acc (plainAcc_map h.val h.isLt k.val k.isLt)), State.word_of_regs hregs _⟩
  · have hw : s.writeSvMap h.val k.val v = (s.set (SV_STATUS.MAP_REFUSED h.val) 1).set (SV_STATUS.REFUSE_REASON h.val) reason :=
      State.writeSvMap_refused hr
    obtain ⟨t, ht, hrw, hregs⟩ := State.portWrite_shows (f := fun s => s.writeSvMap h.val k.val v) (hgate off)
      (hw ▸ (rewrites_set s (SV_STATUS.MAP_REFUSED h.val) 1).set (SV_STATUS.REFUSE_REASON h.val) reason (List.mem_singleton_self _))
    rw [hw] at hregs
    refine ⟨t, congrArg Host.Outcome.next ht, hrw, (State.get_of_regs hregs _).trans ?_, (State.get_of_regs hregs _).trans ?_⟩
    · rw [State.get_set_apart _ _ _ _ (Nat.le_of_ble_eq_true rfl) (Nat.le_of_ble_eq_true rfl) (.inr (.inl (Nat.le_of_ble_eq_true rfl))), State.get_set_self _ _ _ (Nat.le_of_ble_eq_true rfl) (Nat.le_of_ble_eq_true rfl)]
      rfl
    · exact State.get_set_self _ _ _ (Nat.le_of_ble_eq_true rfl) (Nat.le_of_ble_eq_true rfl)
  · have hw : s.writeSvProg h.val slot.val i.val v = s.set (SV_STATUS.PROG_WRITE_REFUSED h.val) 1 := if_pos hu
    obtain ⟨t, ht, hrw, hregs⟩ := State.portWrite_shows (f := fun s => s.writeSvProg h.val slot.val i.val v)
      (hgate (SV_PROG.WORD h.val slot.val i.val).off) (hw ▸ rewrites_set s (SV_STATUS.PROG_WRITE_REFUSED h.val) 1)
    rw [hw] at hregs
    exact ⟨t, congrArg Host.Outcome.next ht, hrw,
      (State.get_of_regs hregs _).trans (State.get_set_self s _ 1 (Nat.le_of_ble_eq_true rfl) (Nat.le_of_ble_eq_true rfl))⟩
  · have hw : s.writeSvProg h.val slot.val i.val v = s.writeFields (SV_PROG.WORD h.val slot.val i.val).off v :=
      if_neg (by simp [hu])
    obtain ⟨t, ht, hrw, hregs⟩ := State.portWrite_shows (f := fun s => s.writeSvProg h.val slot.val i.val v)
      (hgate (SV_PROG.WORD h.val slot.val i.val).off) (hw ▸ rewrites_writeFields (plainReg_prog h.isLt slot.isLt i.isLt))
    rw [hw] at hregs
    exact ⟨t, congrArg Host.Outcome.next ht, hrw, (State.word_of_regs hregs _).trans
      (State.word_writeFields_whole (plainAcc_prog h.isLt slot.isLt i.isLt) rfl rfl)⟩
  · obtain ⟨t, ht, hrw, hregs⟩ := State.portWrite_shows
      (f := fun s => s.writeFields (SV_CTRL.RESUME h.val).off (s.resumeWord h.val)) (hgate (SV_CTRL.RESUME h.val).off)
      (rewrites_writeFields (plainReg_ctrl h.val h.isLt))
    obtain ⟨hone, hsame⟩ := s.get_resumed h.isLt
    exact ⟨t, congrArg Host.Outcome.next ht, hrw, (State.get_of_regs hregs _).trans hone, (State.get_of_regs hregs _).trans hsame⟩

end Sys2Proof.Machine

/-! Parity errors of a Spindle (family 07_spindle): the statement O35. -/

namespace Sys2Proof.Machine

/-! ## A parity error in SERVICE mode (R187) -/

/-- R187: the marks that a parity error leaves in its Spindle. -/
def Spindle.markParity (block : Nat) (inSlot : Bool) (v : Spindle) : Spindle :=
  { v with forced := true, progFault := v.progFault || inSlot,
           blockFault := if inSlot then v.blockFault else v.blockFault ||| (1#8 <<< block) }

/-- R187: the fault record of a parity error of a Spindle without a job that runs; `u` is the state that has the marks. -/
def State.parityFault (u : State) (h : Nat) : FaultInfo :=
  { cls := 8, source := 5, action := 5, harness := h, detail := (u.spindle h).faultBits }

theorem exec_spindleParityError (h b : Fin 8) (inSlot : Bool) (s : State) :
    exec (.spindleParityError h b inSlot) s = execSpindleParityError h b inSlot s := rfl

section
variable {s : State}

theorem onlyRegs.spindles {t : State} (h : onlyRegs s t) : t.spindles = s.spindles := by rw [h]

/-- Which pairs of lane blocks are free is a matter of the Spindles. -/
theorem State.freePair_of_spindles {t : State} (h : t.spindles = s.spindles) (k : Nat) : t.freePair k = s.freePair k := by
  rw [State.freePair, State.freePair, State.spindle_of h]

/-- R187: without a job that runs, and with a fault-free pair left, a parity error leaves its marks and its record. -/
theorem State.spindleParity_idle {h block : Nat} {inSlot : Bool} (hv : s.vectorJob h = none) (ht : s.tailJob h = none)
    (hp : ((s.modSpindle h (Spindle.markParity block inSlot)).freePair h).isSome = true) :
    s.spindleParity h block inSlot =
      (s.modSpindle h (Spindle.markParity block inSlot)).recordFault ((s.modSpindle h (Spindle.markParity block inSlot)).parityFault h) := by
  obtain ⟨u, hu⟩ : ∃ u, s.modSpindle h (Spindle.markParity block inSlot) = u := ⟨_, rfl⟩
  have hmarks : s.modSpindle h (fun v => { v with
      forced := true, progFault := v.progFault || inSlot,
      blockFault := if inSlot then v.blockFault else v.blockFault ||| (1#8 <<< block) }) = u := hu
  have hpair : ((u.recordFault (u.parityFault h)).freePair h).isNone = false := by
    rw [State.freePair_of_spindles (onlyRegs_recordFault u _).spindles, Option.isNone_eq_false_iff, ← hu]
    exact hp
  unfold State.spindleParity
  rw [hmarks, hv, ht, hu]
  unfold State.parityFault at hpair ⊢
  simp only [Option.none_or, Option.bind_none, hpair, Bool.false_eq_true, if_false]

theorem exec_spindleParityError_idle {h b : Fin 8} {inSlot : Bool} (hs : s.serving = true) (hf : (s.spindle h.val).failed = false)
    (hv : s.vectorJob h.val = none) (ht : s.tailJob h.val = none) (hc : s.spChecked h.val = false) :
    exec (.spindleParityError h b inSlot) s = .next (s.after (s.spindleParity h.val b.val inSlot)) := by
  rw [exec_spindleParityError, execSpindleParityError]
  simp [hv, ht, hc, hs, hf]

end

/-! ## The statement O35 -/

/-- Settles O35: what the parity error leaves beside its marks is its fault record. -/
theorem spindleParityErrorForces : Obligations.SpindleParityErrorForces := by
  intro s h b inSlot hs hf hv ht hc u hp
  have hrecord : s.spindleParity h.val b.val inSlot = u.recordFault (u.parityFault h.val) := State.spindleParity_idle hv ht hp
  have hregs : onlyRegs u (u.recordFault (u.parityFault h.val)) := onlyRegs_recordFault u _
  have hseal : s.after (u.recordFault (u.parityFault h.val)) = u.recordFault (u.parityFault h.val) := hregs.after
  refine ⟨u.recordFault (u.parityFault h.val), ?_, hregs, ?_⟩
  · rw [exec_spindleParityError_idle hs hf hv ht hc, hrecord, hseal]
  · exact notesFault_recordFault u (u.parityFault h.val) (Nat.le_of_ble_eq_true rfl) (Nat.le_of_ble_eq_true rfl) (Nat.le_of_ble_eq_true rfl)

end Sys2Proof.Machine

/-! The Spindles under faults (family 07_spindle): the operations of rows, picks, turns and tiers that leave every Spindle as it is. -/

namespace Sys2Proof.Machine

/-! ## Long sums and lost results (R348, R349) -/

@[simp] theorem State.recordFault_spindles (s : State) (f : FaultInfo) : (s.recordFault f).spindles = s.spindles := by
  rw [onlyRegs_recordFault s f]

@[simp] theorem State.withdraw_spindles (s : State) (h c : Nat) : (s.withdraw h c).spindles = s.spindles := rfl

@[simp] theorem State.gradientIncomplete_spindles (s : State) (a rev layer proj : Nat) :
    (s.gradientIncomplete a rev layer proj).spindles = s.spindles := by
  unfold State.gradientIncomplete
  split <;> simp

@[simp] theorem State.sumLost_spindles (s : State) (rev a layer proj : Nat) (isB : Bool) :
    (s.sumLost rev a layer proj isB).spindles = s.spindles := by
  simp [State.sumLost]

@[simp] theorem State.voidStrands_spindles (s : State) (h : Nat) : (s.voidStrands h).spindles = s.spindles :=
  foldl_keeps State.spindles (fun s x => by simp) _ s

@[simp] theorem State.loseResult_spindles (s : State) (bolt row proj : Nat) : (s.loseResult bolt row proj).spindles = s.spindles := by
  unfold State.loseResult
  dsimp only
  split <;> simp

@[simp] theorem State.loseResults_spindles (s : State) (bolt proj : Nat) (rows : List Nat) (retire : Bool) :
    (s.loseResults bolt proj rows retire).spindles = s.spindles := by
  unfold State.loseResults
  dsimp only
  split
  · rfl
  · exact foldl_keeps State.spindles (fun s r => s.loseResult_spindles bolt r proj) _ s

@[simp] theorem State.bagLost_spindles (s : State) (j : Job) (retire : Bool) : (s.bagLost j retire).spindles = s.spindles :=
  foldl_keeps State.spindles (fun s p => s.loseResults_spindles j.key.bolt p j.rows retire) _ s

@[simp] theorem State.modResults_spindles (s : State) (bolt : Nat) (hit : Result → Bool) (f : Result → Result) :
    (s.modResults bolt hit f).spindles = s.spindles := rfl

/-! ## Rows and their copies (R74, R126) -/

@[simp] theorem State.releaseRow_spindles (s : State) (bolt row : Nat) : (s.releaseRow bolt row).spindles = s.spindles := by
  rw [onlyBolts_releaseRow s bolt row]

@[simp] theorem State.releaseRows_spindles (s : State) (bolt : Nat) : (s.releaseRows bolt).spindles = s.spindles := by
  unfold State.releaseRows
  split
  · rfl
  · exact foldl_keeps State.spindles (fun s i => s.releaseRow_spindles bolt i) _ s

@[simp] theorem State.askRows_spindles (s : State) (h bolt : Nat) (rows : List Row) : (s.askRows h bolt rows).spindles = s.spindles := by
  unfold State.askRows
  split
  · rfl
  · refine foldl_keeps State.spindles (fun s r => ?_) _ s
    dsimp only
    split <;> rfl

@[simp] theorem State.queueFill_spindles (s : State) (f : Fill) : (s.queueFill f).spindles = s.spindles := by
  unfold State.queueFill
  split
  · dsimp only
    split <;> rfl
  · rfl

@[simp] theorem State.askRead_spindles (s : State) (h : Nat) (r : RowRead) (o : FillOwner) :
    (s.askRead h r o).spindles = s.spindles := by
  refine foldl_keeps State.spindles (fun s t => ?_) _ s
  split <;> simp

/-! ## Picks and turns (R110, R306 to R308) -/

@[simp] theorem State.addCopy_spindles (s : State) (h : Nat) (g : Gang) (cells : List (Nat × Nat)) (pu : Purpose)
    (rows stash : List Nat) (kLo kHi copy last group first split : Nat) :
    (s.addCopy h g cells pu rows stash kLo kHi copy last group first split).spindles = s.spindles := by
  unfold State.addCopy
  refine foldl_keeps State.spindles ?_ _ s
  exact fun _ _ => rfl

@[simp] theorem State.addPurpose_spindles (s : State) (h : Nat) (p : Placed) (pu : Purpose) :
    (s.addPurpose h p pu).spindles = s.spindles := by
  unfold State.addPurpose
  dsimp only
  split
  · refine foldl_keeps State.spindles (fun s i => foldl_keeps State.spindles (fun s q => ?_) _ s) _ s
    split <;> simp
  · exact foldl_keeps State.spindles (fun s q => by simp) _ s
  · exact foldl_keeps State.spindles (fun s q => by simp) _ s

@[simp] theorem State.addPlaced_spindles (s : State) (h : Nat) (p : Placed) : (s.addPlaced h p).spindles = s.spindles :=
  foldl_keeps State.spindles (fun s pu => s.addPurpose_spindles h p pu) _ s

@[simp] theorem State.placeTurn_spindles (s : State) (h : Nat) (gs : List Gang) : (s.placeTurn h gs).1.spindles = s.spindles := by
  obtain ⟨ps, spans, segs, deferred, hplace⟩ := State.placeTurn_eq s h gs
  rw [hplace, foldl_keeps State.spindles (fun s p => s.addPlaced_spindles h p), State.countTurn, State.bump_spindles,
    State.set_spindles, State.set_spindles, State.bump_spindles, State.bump_spindles, State.bump_spindles]

@[simp] theorem State.nextTurn_spindles (s : State) (h : Nat) (t : Turns) : (s.nextTurn h t).1.spindles = s.spindles := by
  unfold State.nextTurn
  dsimp only
  split
  · split <;> simp
  · simp

@[simp] theorem State.placeHead_spindles (s : State) (h : Nat) : (s.placeHead h).spindles = s.spindles := by
  unfold State.placeHead
  split
  · rfl
  · dsimp only
    split <;> simp

@[simp] theorem State.queueTurns_spindles (s : State) (h : Nat) (t : Turns) : (s.queueTurns h t).spindles = s.spindles := by
  unfold State.queueTurns
  dsimp only
  split
  · rfl
  · split <;> simp

@[simp] theorem State.removePick_spindles (s : State) (p : Pick) : (s.removePick p).spindles = s.spindles := by
  have hblock : ∀ (s : State) (b : Block), (s.dropBlock p.h p.c b).spindles = s.spindles := fun s b => by
    have hpins := onlyPins_refTiles s p.h b.refs false
    rw [State.dropBlock, State.modCore_spindles, hpins]
  exact foldl_keeps State.spindles hblock _ s

@[simp] theorem State.noteDrain_spindles (s : State) (a : Nat) : (s.noteDrain a).spindles = s.spindles := by
  unfold State.noteDrain
  split <;> simp

@[simp] theorem State.freeStage_spindles (s : State) (h bolt : Nat) (rows : List Nat) :
    (s.freeStage h bolt rows).spindles = s.spindles := by
  unfold State.freeStage
  dsimp only
  split <;> simp

/-! ## The Tally (R359 to R362) -/

@[simp] theorem State.tallyAdd_spindles (s : State) (p : Pick) (e : TallyEnd) (faultSeq replayPick : Nat) :
    (s.tallyAdd p e faultSeq replayPick).spindles = s.spindles := by
  have hauto : ∀ s : State, s.tallyAutoDrain.spindles = s.spindles := fun s => by
    unfold State.tallyAutoDrain
    dsimp only
    split <;> rfl
  unfold State.tallyAdd
  dsimp only
  split
  · split <;> simp [hauto]
  · split <;> simp [hauto]

@[simp] theorem State.tallyEnded_spindles (s : State) (p : Pick) (seq : Nat) (replay : Option Nat) :
    (s.tallyEnded p seq replay).spindles = s.spindles := by
  cases replay <;> simp [State.tallyEnded]


/-! ## Bytes of the Loom range (R249 to R265) -/

@[simp] theorem State.tierLog_spindles (s : State) (kind unit addr : Nat) : (s.tierLog kind unit addr).spindles = s.spindles := by
  rw [onlyRegs_tierLog s kind unit addr]

@[simp] theorem State.unmapped_spindles (s : State) (addr : Nat) : (s.unmapped addr).spindles = s.spindles := by
  rw [onlyRegs_unmapped s addr]

@[simp] theorem State.watchAccess_spindles (s : State) (write : Bool) (source : Nat) (loc : Option Nat) (lo n : Nat)
    (bytes : List Byte) : (s.watchAccess write source loc lo n bytes).spindles = s.spindles := by
  rw [onlyWatch_watchAccess s write source loc lo n bytes]

@[simp] theorem State.keepFree_spindles (s : State) : s.keepFree.spindles = s.spindles := by
  have h := BeamTakes.keepFree (off := 0) s
  rw [h.frame]

@[simp] theorem State.fetchTile_spindles (s : State) (r : Region) (tile source : Nat) (keyed : Bool) :
    (s.fetchTile r tile source keyed).spindles = s.spindles := by
  unfold State.fetchTile
  split
  · dsimp only
    split <;> simp
  · simp [State.poisonTile]
  · simp [State.poisonTile, State.keyAbsent]

/-- R265: bytes written into one tile, where they can be. -/
@[simp] theorem State.landInTile_spindles (s : State) (source : Nat) (loc : Option Nat) (addr : Nat) (bytes : List Byte) :
    (s.landInTile source loc addr bytes).1.spindles = s.spindles := by
  unfold State.landInTile
  dsimp only
  split
  · simp
  · simp only [apply_ite Prod.fst, apply_ite State.spindles, State.staleSectors, State.takeFrame, State.starve, State.want,
      State.tierLog_spindles, State.set_spindles, State.bump_spindles, State.watchAccess_spindles, State.keepFree_spindles,
      State.modPage_spindles, State.fetchTile_spindles, ite_self]

@[simp] theorem State.settle_spindles (s : State) (addr n : Nat) : (s.settle addr n).spindles = s.spindles := by
  have hpins : ∀ (s : State) (a n : Nat) (d : Bool), (s.pinPages a n d).spindles = s.spindles := fun s a n d => by
    refine foldl_keeps State.spindles ?_ _ s
    exact fun _ _ => rfl
  have hland : ∀ (s : State) (w : EngWrite), (s.landBytes w.source w.harness w.addr w.bytes).1.spindles = s.spindles := fun s w => by
    refine foldl_keeps (fun a : State × Bool => a.1.spindles) ?_ _ (s, true)
    exact fun a x => a.1.landInTile_spindles w.source w.harness x.1 x.2
  have hwrite : ∀ (s : State) (w : EngWrite), (s.landWrite w).spindles = s.spindles := fun s w => by
    unfold State.landWrite State.landOrNote
    dsimp only
    split
    · rw [hland, hpins]
    · exact (hland _ w).trans (hpins s w.addr w.bytes.length false)
  unfold State.settle
  dsimp only
  split
  · rfl
  · exact foldl_keeps State.spindles hwrite _ _

@[simp] theorem State.reachTile_spindles (s : State) (tile source : Nat) : (s.reachTile tile source).1.spindles = s.spindles := by
  unfold State.reachTile
  dsimp only
  split
  · simp
  · split
    · rfl
    · split
      · rfl
      · rfl
      · simp only [apply_ite Prod.fst, apply_ite State.spindles, State.touchPage, State.want, State.modPage_spindles,
          State.fetchTile_spindles, ite_self]

@[simp] theorem State.loomReadOpen_spindles (s : State) (source addr n : Nat) :
    (s.loomReadOpen source addr n).1.spindles = s.spindles := by
  have hread : (s.loomRead source addr n).1.spindles = s.spindles := by
    unfold State.loomRead
    dsimp only
    refine (foldl_keeps (fun a : State × Bool => a.1.spindles) ?_ _ _).trans (s.settle_spindles addr n)
    exact fun a t => a.1.reachTile_spindles t source
  unfold State.loomReadOpen
  dsimp only
  split <;> exact hread

/-! ## Gangs that learn (R190 to R196) -/

@[simp] theorem State.readRecord_spindles (s : State) (a : Nat) : (s.readRecord a).1.spindles = s.spindles := by
  have hwords : ∀ r : State × List Byte, r.1.spindles = s.spindles →
      (r.1, (groupsOf 8 r.2).map (fun b => BitVec.ofNat 64 (leNat b))).1.spindles = s.spindles := fun _ h => h
  exact hwords _ (s.loomReadOpen_spindles 8 (s.recordAddr a) 32)

@[simp] theorem State.learnPart_spindles (s : State) (b : Bolt) (x : AdPart) (tenant : Nat) :
    (s.learnPart b x tenant).1.spindles = s.spindles := by
  obtain ⟨r, hr⟩ : ∃ r, s.readRecord x.adapter = r := ⟨_, rfl⟩
  have hread : r.1.spindles = s.spindles := hr ▸ s.readRecord_spindles x.adapter
  have hnow : (s.learnsNow x.adapter tenant).1.spindles = s.spindles := by
    unfold State.learnsNow
    rw [hr]
    split
    · rfl
    · split
      · rfl
      · split
        · rfl
        · exact hread
  have hjoin : (s.contribute x.adapter tenant).1.spindles = s.spindles := by
    unfold State.contribute
    rw [hr]
    split
    · rfl
    · split
      · rfl
      · dsimp only
        split
        · exact hread
        · rfl
  unfold State.learnPart
  split
  · obtain ⟨q, hq⟩ : ∃ q, s.learnsNow x.adapter tenant = q := ⟨_, rfl⟩
    rw [hq] at hnow ⊢
    dsimp only
    split <;> simp [hnow]
  · exact hjoin

@[simp] theorem State.partGangs_spindles (s : State) (b : Bolt) (window : Nat) (d : Dir) (x : AdPart) (p replay : Nat)
    (learns plain : Bool) : (s.partGangs b window d x p replay learns plain).1.spindles = s.spindles := by
  have hpairs : ∀ (back : Bool) (rows : List Row), (s.pairRows b p back rows).1.spindles = s.spindles := fun back rows => by
    refine foldl_keeps (fun a : State × List (Row × Nat) => a.1.spindles) (fun a r => ?_) _ (s, [])
    split
    · split <;> rfl
    · rfl
  have hterms : ∀ (s : State) (rev a l p : Nat) (isB : Bool) (n : Nat), (s.takeTerms rev a l p isB n).1.spindles = s.spindles :=
    fun s rev a l p isB n => by
      unfold State.takeTerms
      split <;> rfl
  have hgang : ∀ (back : Bool) (rows : List Row), (s.pairGang b window d x p back rows).1.spindles = s.spindles :=
    fun back rows => by
      unfold State.pairGang
      dsimp only
      simp only [apply_ite Prod.fst, apply_ite State.spindles, hterms, hpairs, State.bump_spindles, ite_self]
  unfold State.partGangs
  dsimp only
  split
  · rfl
  · split
    · exact hgang _ _
    · rfl

@[simp] theorem State.placeLists_spindles (s : State) (b : Bolt) (ls : List AdList) : (s.placeLists b ls).1.spindles = s.spindles := by
  have hchoose : ∀ (s : State) (load : List Nat) (a rank policy windowRows boltRows : Nat),
      (s.chooseHarnesses load a rank policy windowRows boltRows).1.spindles = s.spindles := fun s load a rank policy w r => by
    unfold State.chooseHarnesses
    dsimp only
    split <;> rfl
  unfold State.placeLists
  dsimp only
  refine foldl_keeps (fun a : State × List Nat × List AdPart => a.1.spindles) (fun a l => ?_) _ _
  split
  · rfl
  · next d _ => exact hchoose _ _ _ d.rank _ _ _

@[simp] theorem State.markParts_spindles (s : State) (b : Bolt) (parts : List AdPart) : (s.markParts b parts).spindles = s.spindles := by
  refine foldl_keeps State.spindles ?_ _ s
  exact fun _ _ => rfl

/-! ## Slices, and the exchange of a failed engine (R295, R353, R356) -/

@[simp] theorem State.voidSlice_spindles (s : State) (h : Nat) : (s.voidSlice h).spindles = s.spindles := by
  refine foldl_keeps State.spindles (fun s f => ?_) _ s
  split <;> rfl

@[simp] theorem State.answer_spindles (s : State) (h bolt row proj : Nat) (data : List Byte) (nan sat : Bool) :
    (s.answer h bolt row proj data nan sat).spindles = s.spindles := by
  have hsend : ∀ e, (s.sendRecord h e).spindles = s.spindles := fun e => by
    unfold State.sendRecord
    split
    · rfl
    · split <;> rfl
  unfold State.answer
  split
  · rfl
  · split
    · rfl
    · split
      · rfl
      · exact hsend _

@[simp] theorem State.failRemote_spindles (s : State) (p : RemoteRow → Bool) (timeout : Bool) :
    (s.failRemote p timeout).spindles = s.spindles := by
  refine foldl_keeps State.spindles (fun s x => ?_) _ (s.dropRemote p)
  unfold State.failRemoteRow
  simp [State.modResult]

@[simp] theorem State.sxLog_spindles (s : State) (kind host adapter seq : Nat) :
    (s.sxLog kind host adapter seq).spindles = s.spindles := by
  rw [(rewrites_sxLog s kind host adapter seq).1]

@[simp] theorem State.failReshard_spindles (s : State) (kind host adapter seq : Nat) :
    (s.failReshard kind host adapter seq).spindles = s.spindles := by
  unfold State.failReshard
  split
  · rfl
  · dsimp only
    rw [State.set_spindles, State.sxLog_spindles, foldl_keeps State.spindles]
    exact fun _ _ => rfl

@[simp] theorem State.closeExchange_spindles (s : State) : s.closeExchange.spindles = s.spindles := by
  have hfail : ∀ (s : State) (l : List Nat), (l.foldl State.failLearning s).spindles = s.spindles := fun s l => by
    refine foldl_keeps State.spindles ?_ l s
    exact fun _ _ => rfl
  unfold State.closeExchange
  dsimp only
  split <;> simp [hfail]

@[simp] theorem State.failEngine_spindles (s : State) : s.failEngine.spindles = s.spindles := by
  simp [State.failEngine]

end Sys2Proof.Machine

/-! The marks of faulty lane blocks (family 07_spindle; R160): what a fault does to jobs, picks and Harnesses leaves them as they are. -/

namespace Sys2Proof.Machine

/-! ## Marks of lane blocks (R160) -/

/-- R160: the marks of faulty lane blocks, by Spindle. -/
def State.blockMarks (s : State) : List (BitVec 8) := s.spindles.map Spindle.blockFault

theorem State.blockMarks_of_spindles {s t : State} (h : t.spindles = s.spindles) : t.blockMarks = s.blockMarks :=
  congrArg (List.map Spindle.blockFault) h

/-- R160: the marks of one Spindle. -/
theorem State.blockFault_of_blockMarks {s t : State} (h : t.blockMarks = s.blockMarks) (k : Nat) :
    (t.spindle k).blockFault = (s.spindle k).blockFault := by
  have hget : ∀ u : State, (u.spindle k).blockFault = u.blockMarks.getD k 0 := fun u => by
    simp [State.spindle, State.blockMarks, List.getD_eq_getElem?_getD, List.getElem?_map]
    cases u.spindles[k]? <;> rfl
  rw [hget, hget, h]

/-- Changes beside a Spindle's marks leave the marks. -/
theorem State.blockMarks_modSpindle (s : State) (h : Nat) {f : Spindle → Spindle} (hf : ∀ v, (f v).blockFault = v.blockFault) :
    (s.modSpindle h f).blockMarks = s.blockMarks := by
  have hmap : ∀ (l : List Spindle) (n : Nat), (modAt l n f).map Spindle.blockFault = l.map Spindle.blockFault := fun l n => by
    induction l generalizing n with
    | nil => rfl
    | cons v l ih =>
      cases n with
      | zero => exact congrArg (· :: _) (hf v)
      | succ n => exact congrArg (v.blockFault :: ·) (ih n)
  exact hmap s.spindles h

/-- What every step of a fold keeps of the state that it carries with other results, the fold keeps. -/
theorem foldl_fst_keeps {σ α β τ : Type} (obs : σ → τ) {f : σ × β → α → σ × β} (hf : ∀ a x, obs (f a x).1 = obs a.1) (l : List α)
    (a : σ × β) : obs (l.foldl f a).1 = obs a.1 :=
  foldl_keeps (fun a => obs a.1) hf l a

/-! ## Jobs (R160, R165, R354) -/

@[simp] theorem State.dropJob_blockMarks (s : State) (h : Nat) (k : JobKey) : (s.dropJob h k).blockMarks = s.blockMarks :=
  s.blockMarks_modSpindle h fun _ => rfl

@[simp] theorem State.addJob_blockMarks (s : State) (h : Nat) (j : Job) : (s.addJob h j).blockMarks = s.blockMarks :=
  s.blockMarks_modSpindle h fun _ => rfl

@[simp] theorem State.modJob_blockMarks (s : State) (h : Nat) (k : JobKey) (f : Job → Job) :
    (s.modJob h k f).blockMarks = s.blockMarks :=
  s.blockMarks_modSpindle h fun _ => rfl

@[simp] theorem State.closeVectors_blockMarks (s : State) (h : Nat) : (s.closeVectors h).blockMarks = s.blockMarks :=
  s.blockMarks_modSpindle h fun _ => rfl

@[simp] theorem State.abortJob_blockMarks (s : State) (h : Nat) (j : Job) (retire : Bool) :
    (s.abortJob h j retire).1.blockMarks = s.blockMarks := by
  unfold State.abortJob
  split
  · exact (State.blockMarks_of_spindles (State.sumLost_spindles ..)).trans (s.dropJob_blockMarks h j.key)
  · split
    · exact s.dropJob_blockMarks h j.key
    · split
      · exact (State.blockMarks_of_spindles (State.bagLost_spindles ..)).trans (s.dropJob_blockMarks h j.key)
      · exact (State.blockMarks_modSpindle _ h (f := fun v => v.stopRun j.key) fun _ => rfl).trans
          (s.modJob_blockMarks h j.key Job.again)

@[simp] theorem State.moveJob_blockMarks (s : State) (j : Job) : (s.moveJob j).blockMarks = s.blockMarks := by
  have hreads : ∀ (s : State) (h : Nat) (l : List RowRead), (l.foldl (fun s r => s.askRead h r .none) s).blockMarks = s.blockMarks :=
    fun s h l => foldl_keeps State.blockMarks (fun s r => State.blockMarks_of_spindles (s.askRead_spindles h r .none)) l s
  unfold State.moveJob
  split
  · exact s.addJob_blockMarks _ _
  · split
    · exact State.blockMarks_of_spindles (s.bagLost_spindles j true)
    · dsimp only
      rw [hreads]
      split
      · exact s.addJob_blockMarks _ _
      · exact (State.blockMarks_of_spindles (State.addWork_spindles ..)).trans (s.addJob_blockMarks _ _)

@[simp] theorem State.voidJobs_blockMarks (s : State) (h : Nat) : (s.voidJobs h).1.blockMarks = s.blockMarks := by
  unfold State.voidJobs
  refine foldl_fst_keeps State.blockMarks (fun a j => ?_) _ (s, [])
  split
  · exact a.1.dropJob_blockMarks h j.key
  · exact a.1.dropJob_blockMarks h j.key
  · split
    · exact a.1.abortJob_blockMarks h j true
    · rfl
  · split
    · exact a.1.abortJob_blockMarks h j true
    · rfl
  · exact a.1.abortJob_blockMarks h j true
  · exact (State.moveJob_blockMarks _ j).trans (a.1.dropJob_blockMarks h j.key)

theorem State.askGradRows_blockMarks (s : State) (h : Nat) (b : Bolt) (rows : List Row) :
    (s.askGradRows h b rows).blockMarks = s.blockMarks := by
  unfold State.askGradRows
  split
  · rfl
  · refine foldl_keeps State.blockMarks (fun s r => ?_) _ s
    dsimp only
    split
    · rfl
    · exact s.addJob_blockMarks _ _

@[simp] theorem State.needRows_blockMarks (s : State) (h bolt : Nat) (rows : List Nat) :
    (s.needRows h bolt rows).blockMarks = s.blockMarks := by
  unfold State.needRows
  split
  · rfl
  · exact (State.askGradRows_blockMarks ..).trans (State.blockMarks_of_spindles (s.askRows_spindles h bolt _))

/-! ## Picks that end (R344 to R350) -/

@[simp] theorem State.afterPick_blockMarks (s : State) (p : Pick) : (s.afterPick p).blockMarks = s.blockMarks := by
  unfold State.afterPick
  dsimp only
  rw [State.blockMarks_of_spindles (State.releaseRows_spindles ..), State.closeVectors_blockMarks,
    State.blockMarks_of_spindles (State.freeStage_spindles ..)]
  split
  · rfl
  · exact State.blockMarks_of_spindles (s.noteDrain_spindles p.adapter)

@[simp] theorem State.cutRows_blockMarks (s : State) (hit : Pick → Bool) (rows : List Nat) :
    (s.cutRows hit rows).blockMarks = s.blockMarks := by
  have hsettle : ∀ (s : State) (id : Nat), (s.settlePick id).blockMarks = s.blockMarks := fun s id => by
    unfold State.settlePick
    split
    · rfl
    · split
      · exact (State.afterPick_blockMarks ..).trans (State.blockMarks_of_spindles (s.removePick_spindles _))
      · rfl
  unfold State.cutRows
  dsimp only
  rw [foldl_keeps State.blockMarks (fun s (p : Pick) => hsettle s p.id)]
  refine foldl_keeps State.blockMarks ?_ _ s
  exact fun _ _ => rfl

@[simp] theorem State.loseRows_blockMarks (s : State) (p : Pick) (rows : List Nat) (retire : Bool) :
    (s.loseRows p rows retire).blockMarks = s.blockMarks := by
  have hcut : ∀ s : State, (s.cutCombines p).blockMarks = s.blockMarks := fun s => by
    unfold State.cutCombines
    split
    · rfl
    · exact s.blockMarks_modSpindle p.h fun _ => rfl
  unfold State.loseRows
  split
  · exact State.blockMarks_of_spindles (State.sumLost_spindles ..)
  · dsimp only
    rw [hcut, State.cutRows_blockMarks]
    exact State.blockMarks_of_spindles (s.loseResults_spindles ..)

@[simp] theorem State.reform_blockMarks (s : State) (maps : List FreeSegs) (p : Pick) (void : Bool) :
    (s.reform maps p void).1.blockMarks = s.blockMarks := by
  unfold State.reform
  split
  · extract_lets S copies missing any g last add
    have hadd : ∀ a rows q, (add a rows q).1.blockMarks = a.1.blockMarks := fun a rows q => by
      unfold add
      split
      · rfl
      · split
        · rfl
        · exact (State.needRows_blockMarks ..).trans (State.blockMarks_of_spindles (State.addCopy_spindles ..))
    clear_value add
    split
    · exact foldl_fst_keeps State.blockMarks (fun a q => hadd a any q) _ (s, maps)
    · exact foldl_fst_keeps State.blockMarks (fun a (x : Nat × Option Nat) => hadd a (missing a.1 x.2) x.1) _ (s, maps)
  · rfl

@[simp] theorem State.endPick_blockMarks (a : State × List FreeSegs) (all : List Ended) (e : Ended) (target : Option Nat)
    (retire void : Bool) : (State.endPick a all e target retire void).1.1.blockMarks = a.1.blockMarks := by
  unfold State.endPick
  dsimp only
  split
  · rw [State.reform_blockMarks, State.needRows_blockMarks]
    split <;> rfl
  · exact State.loseRows_blockMarks ..

@[simp] theorem State.formParts_blockMarks (s : State) (b : Bolt) (window : Nat) (parts : List AdPart) (replay : Nat)
    (first plain : Bool) : (s.formParts b window parts replay first plain).blockMarks = s.blockMarks := by
  have hlearn : ∀ (s : State) (x : AdPart) (t : Nat),
      (if first then s.learnPart b x t else (s, false)).1.blockMarks = s.blockMarks := fun s x t => by
    split
    · exact State.blockMarks_of_spindles (s.learnPart_spindles b x t)
    · rfl
  have hpart : ∀ (s : State) (x : AdPart), (s.formPart b window x replay first plain).1.blockMarks = s.blockMarks := fun s x => by
    unfold State.formPart
    split
    · rfl
    · next d _ =>
      obtain ⟨l, hl⟩ : ∃ l, (if first then s.learnPart b x d.tenant else (s, false)) = l := ⟨_, rfl⟩
      have hmarks : l.1.blockMarks = s.blockMarks := hl ▸ hlearn s x d.tenant
      rw [hl]
      have hrows := (State.askGradRows_blockMarks (l.1.askRows x.h b.id (x.rows.map (·.1))) x.h b (x.rows.map (·.1))).trans
        ((State.blockMarks_of_spindles (l.1.askRows_spindles x.h b.id _)).trans hmarks)
      refine (foldl_fst_keeps State.blockMarks ?_ _ _).trans ?_
      · exact fun a p => State.blockMarks_of_spindles (State.partGangs_spindles ..)
      · dsimp only
        split <;> exact hrows
  unfold State.formParts
  dsimp only
  refine (foldl_keeps State.blockMarks (fun s h => ?_) _ _).trans ((foldl_fst_keeps State.blockMarks ?_ _ _).trans rfl)
  rotate_left
  · exact fun a x => hpart a.1 x
  split
  · rfl
  · exact State.blockMarks_of_spindles (State.queueTurns_spindles ..)

@[simp] theorem State.abortSprint_blockMarks (s : State) (f : Sprint) (seq : Nat) (retire : Bool) :
    (s.abortSprint f seq retire).blockMarks = s.blockMarks := by
  have hremove : ∀ (l : List Pick) (s : State), (l.foldl (fun s p => s.removePick p) s).blockMarks = s.blockMarks :=
    foldl_keeps State.blockMarks fun s p => State.blockMarks_of_spindles (s.removePick_spindles p)
  have hafter : ∀ (l : List Pick) (s : State), (l.foldl (fun s p => s.afterPick p) s).blockMarks = s.blockMarks :=
    foldl_keeps State.blockMarks fun s p => s.afterPick_blockMarks p
  have hclose : ∀ (l : List Nat) (s : State), (l.foldl (fun s h => s.closeVectors h) s).blockMarks = s.blockMarks :=
    foldl_keeps State.blockMarks fun s h => s.closeVectors_blockMarks h
  have htally : ∀ (lost : State → Pick → Bool) (id : State → Pick → Nat) (l : List Pick) (s : State), (l.foldl (fun s p =>
      if lost s p then s.tallyAdd p .lost seq 0 else s.tallyAdd p .replayed seq (id s p)) s).blockMarks = s.blockMarks :=
    fun lost id => foldl_keeps State.blockMarks fun s p => by
      split <;> exact State.blockMarks_of_spindles (State.tallyAdd_spindles ..)
  have hlose : ∀ (b : Nat) (l : List Result) (s : State),
      (l.foldl (fun s r => s.loseResults b r.proj [r.row] retire) s).blockMarks = s.blockMarks := fun b =>
    foldl_keeps State.blockMarks fun s r => State.blockMarks_of_spindles (s.loseResults_spindles b r.proj [r.row] retire)
  unfold State.abortSprint
  dsimp only
  split
  · exact hremove _ s
  · rw [hclose, hafter, htally, State.blockMarks_of_spindles (State.bump_spindles ..), State.formParts_blockMarks,
      State.blockMarks_of_spindles (State.markParts_spindles ..), State.blockMarks_of_spindles (State.placeLists_spindles ..), hlose,
      State.blockMarks_of_spindles (State.modBolt_spindles ..), State.blockMarks_of_spindles (State.modResults_spindles ..)]
    exact List.map_map.trans (hremove _ s)

@[simp] theorem State.endPicks_blockMarks (s : State) (es : List Ended) (seq : Nat) (retire void : Bool) :
    (s.endPicks es seq retire void).blockMarks = s.blockMarks := by
  have hremove : ∀ (l : List Ended) (s : State), (l.foldl (fun s e => s.removePick e.pick) s).blockMarks = s.blockMarks :=
    foldl_keeps State.blockMarks fun s e => State.blockMarks_of_spindles (s.removePick_spindles e.pick)
  have hafter : ∀ (l : List Ended) (s : State), (l.foldl (fun s e => s.afterPick e.pick) s).blockMarks = s.blockMarks :=
    foldl_keeps State.blockMarks fun s e => s.afterPick_blockMarks e.pick
  have htally : ∀ (l : List (Pick × Option Nat)) (s : State),
      (l.foldl (fun s x => s.tallyEnded x.1 seq x.2) s).blockMarks = s.blockMarks :=
    foldl_keeps State.blockMarks fun s x => State.blockMarks_of_spindles (s.tallyEnded_spindles x.1 seq x.2)
  unfold State.endPicks
  extract_lets sprint es' ended before maps r t u
  have hended : ended.blockMarks = s.blockMarks := (State.blockMarks_of_spindles (State.bump_spindles ..)).trans (hremove es' s)
  have hr : r.1.1.blockMarks = ended.blockMarks :=
    foldl_keeps (fun a : (State × List FreeSegs) × List (Pick × Option Nat) => a.1.1.blockMarks)
      (fun a e => State.endPick_blockMarks a.1 es' e _ retire void) es' ((ended, maps), [])
  have hu : u.blockMarks = s.blockMarks := (hafter es' t).trans ((htally r.2 r.1.1).trans (hr.trans hended))
  clear_value sprint u
  split
  · exact (State.abortSprint_blockMarks ..).trans hu
  · exact hu

/-! ## Harnesses that retire (R353, R354) -/

@[simp] theorem State.moveTurns_blockMarks (s : State) (ts : List Turns) : (s.moveTurns ts).blockMarks = s.blockMarks := by
  have hlose : ∀ (g : Gang) (s : State), (g.rows.foldl (fun s r => s.loseResults g.bolt g.proj [r] true) s).spindles = s.spindles :=
    fun g s => foldl_keeps State.spindles (fun s r => s.loseResults_spindles g.bolt g.proj [r] true) _ s
  refine foldl_keeps State.blockMarks (fun s t => ?_) ts s
  split
  · exact State.blockMarks_of_spindles (foldl_keeps State.spindles (fun s g => hlose g s) _ s)
  · dsimp only
    rw [State.blockMarks_of_spindles (State.queueTurns_spindles ..)]
    exact foldl_keeps State.blockMarks (fun s (g : Gang) => s.needRows_blockMarks _ g.bolt g.rows) _ s

@[simp] theorem State.retireHarness_blockMarks (s : State) (h seq : Nat) : (s.retireHarness h seq).blockMarks = s.blockMarks := by
  have hcores : ∀ (l : List Nat) (s : State), (l.foldl (fun s c => s.withdraw h c) s).blockMarks = s.blockMarks :=
    foldl_keeps State.blockMarks fun s c => State.blockMarks_of_spindles (s.withdraw_spindles h c)
  unfold State.retireHarness
  split
  · rfl
  · dsimp only
    have hend : ∀ t : State, (if t.servingHarnesses.isEmpty then t.failEngine else t).blockMarks = t.blockMarks := fun t => by
      split
      · exact State.blockMarks_of_spindles t.failEngine_spindles
      · rfl
    rw [hend, State.blockMarks_of_spindles (State.voidSlice_spindles ..), State.moveTurns_blockMarks, State.endPicks_blockMarks,
      State.voidJobs_blockMarks, State.blockMarks_of_spindles (State.voidStrands_spindles ..), State.blockMarks_modSpindle,
      State.blockMarks_of_spindles (State.modHarness_spindles ..), hcores]
    · rfl
    · exact fun _ => rfl

/-- R160: a Spindle that fails keeps its marks, and so do all others. -/
theorem State.failSpindle_blockMarks (s : State) (h : Nat) : (s.failSpindle h).blockMarks = s.blockMarks := by
  unfold State.failSpindle
  dsimp only
  rw [State.retireHarness_blockMarks, State.blockMarks_of_spindles (State.recordFault_spindles ..)]
  exact s.blockMarks_modSpindle h fun _ => rfl

end Sys2Proof.Machine

/-! The instances of a Spindle (family 07_spindle): their start, their vectors and their tail, a lockstep mismatch, and the statement O34. -/

namespace Sys2Proof.Machine

/-! ## Jobs of a Spindle (R169) -/

/-- A job beside the vectors that wait for it. -/
def Job.bare (j : Job) : Job := { j with open_ := [], vecs := [] }

/-- R169: vectors that close leave the rest of their jobs as it is. -/
theorem map_bare_closeJobs (fed : JobKey → Bool) (room : Nat) (l : List Job) : (closeJobs fed room l).map Job.bare = l.map Job.bare := by
  induction l generalizing room with
  | nil => rfl
  | cons j l ih =>
    unfold closeJobs
    split
    · exact congrArg (j.bare :: ·) (ih _)
    · exact congrArg (j.bare :: ·) (ih _)

section
variable {s t : State} {h : Nat} {j : Job}

/-- A Spindle that has jobs is one of the engine. -/
theorem State.spindle_exists (hj : j ∈ (s.spindle h).jobs) : h < s.spindles.length := by
  by_contra hout
  have hnone : s.spindle h = {} := by
    rw [State.spindle, List.getD_eq_getElem?_getD, List.getElem?_eq_none (Nat.le_of_not_lt hout), Option.getD_none]
  rw [hnone] at hj
  exact absurd hj List.not_mem_nil

theorem State.mem_modJob {f : Job → Job} (hj : j ∈ (s.spindle h).jobs) : f j ∈ ((s.modJob h j.key f).spindle h).jobs := by
  rw [State.modJob, State.spindle_modSpindle _ (State.spindle_exists hj)]
  exact List.mem_map.mpr ⟨j, hj, by simp⟩

/-- R169: a job whose vectors close is otherwise as it was. -/
theorem State.mem_closeVectors (hj : j ∈ (s.spindle h).jobs) : ∃ y ∈ ((s.closeVectors h).spindle h).jobs, y.bare = j.bare := by
  have hmem : j.bare ∈ (closeJobs (s.jobFed h) (8 - (s.spindle h).queued) (s.spindle h).jobs).map Job.bare := by
    rw [map_bare_closeJobs]
    exact List.mem_map_of_mem hj
  rw [State.closeVectors, State.spindle_modSpindle _ (State.spindle_exists hj)]
  exact List.mem_map.mp hmem

theorem State.not_mem_dropJob {k : JobKey} (hl : h < s.spindles.length) : ∀ y ∈ ((s.dropJob h k).spindle h).jobs, y.key ≠ k := by
  rw [State.dropJob, State.spindle_modSpindle _ hl]
  intro y hy
  simpa using (List.mem_filter.mp hy).2

/-! ## Instances that start (R170, R171) -/

theorem exec_spindleInstanceStart (h : Fin 8) (s : State) : exec (.spindleInstanceStart h) s = execSpindleInstanceStart h s := rfl

theorem exec_spindleInstanceStart_none {h : Fin 8} (hn : s.spindleOpen h.val = false ∨ s.nextStart h.val = none) :
    exec (.spindleInstanceStart h) s = .next s := by
  rw [exec_spindleInstanceStart, execSpindleInstanceStart]
  rcases hn with hn | hn <;> simp [hn]

theorem exec_spindleInstanceStart_some {h : Fin 8} (ho : s.spindleOpen h.val = true) (hj : s.nextStart h.val = some j) :
    exec (.spindleInstanceStart h) s = .next (s.after (s.attempt (fun s => s.startInstance h.val j)).1) := by
  rw [exec_spindleInstanceStart, execSpindleInstanceStart, hj]
  simp [ho]

theorem State.mem_of_nextStart (hj : s.nextStart h = some j) : j ∈ (s.spindle h).jobs := by
  unfold State.nextStart at hj
  split at hj
  · cases hj
  · exact List.mem_of_find?_eq_some hj

/-- R163: the classes FWD_HIDDEN and GRAD_OUT have no parameters and bring their own vectors. -/
theorem State.startInstance_plain (s : State) (h : Nat) (hc : j.key.cls = 0 ∨ j.key.cls = 4) :
    s.startInstance h j = s.begin_ h j [] none := by
  unfold State.startInstance
  rcases hc with hc | hc <;> simp only [hc]

/-- R170, R171: an instance that begins is started, in the present lane width, on the slot of the map's entry for its class. -/
theorem State.begin_starts (hj : j ∈ (s.spindle h).jobs) (params : List F32) :
    ∃ y ∈ ((s.begin_ h j params none).spindle h).jobs, y.key = j.key ∧ y.started = true ∧ y.width = s.laneWidth h ∧
      y.slot = s.get (SV_MAP.SLOT h (min j.key.cls 7)) := by
  have hkey : (s.startJob h j params).key = j.key := by
    unfold State.startJob
    dsimp only
    split <;> rfl
  have hstart : s.startJob h j params ∈ ((s.modJob h j.key (fun _ => s.startJob h j params)).spindle h).jobs :=
    State.mem_modJob (f := fun _ => s.startJob h j params) hj
  have hlast : s.startJob h j params ∈ (((s.modJob h j.key (fun _ => s.startJob h j params)).modSpindle h
      (fun v => { v with last := v.last.filter (· != j.key) })).spindle h).jobs := by
    rw [State.spindle_modSpindle _ (State.spindle_exists hstart)]
    exact hstart
  obtain ⟨y, hy, hbare⟩ := State.mem_closeVectors hlast
  refine ⟨y, hy, ?_, ?_, ?_, ?_⟩
  · exact (congrArg Job.key hbare).trans hkey
  · exact congrArg Job.started hbare
  · exact congrArg Job.width hbare
  · exact congrArg Job.slot hbare

/-- R170, R171: the first job that may start, of FWD_HIDDEN or GRAD_OUT, is started. -/
theorem exec_spindleInstanceStart_starts {h : Fin 8} (htry : s.tiers.trying = false) (ho : s.spindleOpen h.val = true)
    (hj : s.nextStart h.val = some j) (hc : j.key.cls = 0 ∨ j.key.cls = 4) :
    ∃ t, exec (.spindleInstanceStart h) s = .next t ∧ ∃ y ∈ (t.spindle h.val).jobs, y.key = j.key ∧ y.started = true ∧
      y.width = s.laneWidth h.val ∧ y.slot = s.get (SV_MAP.SLOT h.val j.key.cls) := by
  have hplain : s.opened.startInstance h.val j = s.opened.begin_ h.val j [] none := State.startInstance_plain _ _ hc
  obtain ⟨-, -, hspindles, -⟩ := State.attempt_shows (op := fun s => s.startInstance h.val j) htry
    (by rw [hplain]; rfl) (by rw [hplain]; rfl)
  refine ⟨_, exec_spindleInstanceStart_some ho hj, ?_⟩
  rw [State.spindle_of hspindles, hplain]
  have hmin : min j.key.cls 7 = j.key.cls := by omega
  exact hmin ▸ State.begin_starts (s := s.opened) (State.mem_of_nextStart hj) []

/-! ## Lockstep mismatches (R160) -/

theorem State.abortInstance_blockMarks (s : State) (h : Nat) (j : Job) (seq : Nat) :
    (s.abortInstance h j seq).blockMarks = s.blockMarks := by
  unfold State.abortInstance
  dsimp only
  split
  · exact s.abortJob_blockMarks h j false
  · exact (State.endPicks_blockMarks ..).trans (s.abortJob_blockMarks h j false)

/-- R160: a lockstep mismatch marks the pair that was compared, and no other block, whatever then becomes of the Harness. -/
theorem State.mismatch_marks {k : Nat} (hl : h < s.spindles.length) (hk : s.freePair h = some k) :
    ((s.mismatch h j).spindle h).blockFault = (s.spindle h).blockFault ||| (3#8 <<< (2 * k)) := by
  obtain ⟨u, hu⟩ : ∃ u, s.modSpindle h (fun v => { v with blockFault := v.blockFault ||| (3#8 <<< (2 * k)) }) = u := ⟨_, rfl⟩
  have hmarks : (s.mismatch h j).blockMarks = u.blockMarks := by
    unfold State.mismatch
    rw [hk]
    dsimp only
    rw [hu]
    split
    · exact u.failSpindle_blockMarks h
    · exact State.abortInstance_blockMarks ..
  rw [State.blockFault_of_blockMarks hmarks, ← hu, State.spindle_modSpindle _ hl]

/-! ## Runs of a program (R171, R179 to R181) -/

/-- What the writes of a run leave of the state: the events count, a bolt may note an empty reduction, and values that the spec leaves
open are drawn. -/
structure EventsCount (h : Nat) (s t : State) : Prop where
  frame : t = { s with regs := t.regs, weft := t.weft, free := t.free }
  word : ∀ off, off ≠ (SV_EVENTS.SAT h).off → t.word off = s.word off

theorem EventsCount.refl (h : Nat) (s : State) : EventsCount h s s := ⟨rfl, fun _ _ => rfl⟩

theorem EventsCount.trans {u : State} (a : EventsCount h s t) (b : EventsCount h t u) : EventsCount h s u where
  frame := by rw [b.frame, a.frame]
  word off ho := (b.word off ho).trans (a.word off ho)

theorem EventsCount.bump {f : Fld} (hf : f.off = (SV_EVENTS.SAT h).off) (s : State) (n : Nat) : EventsCount h s (s.bump f n) :=
  ⟨rfl, fun _ ho => State.word_bump_ne s f n _ (hf ▸ ho)⟩

theorem EventsCount.foldl_fst {α β : Type} {f : State × β → α → State × β} (hf : ∀ a x, EventsCount h a.1 (f a x).1) (l : List α)
    (a : State × β) : EventsCount h a.1 (l.foldl f a).1 := by
  induction l generalizing a with
  | nil => exact .refl h a.1
  | cons x l ih => exact (hf a x).trans (ih _)

theorem EventsCount.modBolt (h : Nat) (s : State) (id : Nat) (f : Bolt → Bolt) : EventsCount h s (s.modBolt id f) :=
  ⟨rfl, fun _ _ => rfl⟩

theorem EventsCount.fresh (h : Nat) (s : State) : EventsCount h s s.fresh.2 := ⟨rfl, fun _ _ => rfl⟩

theorem EventsCount.takeRun (s : State) (h : Nat) (j : Job) (r : Run1) (tags : List Lane) (outFmt : Nat) (storage : EFmt) :
    EventsCount h s (s.takeRun h j r tags outFmt storage).1 := by
  unfold State.takeRun
  extract_lets cls a outs u v
  have ha : EventsCount h s a.1 := by
    refine EventsCount.foldl_fst (fun a x => ?_) r.vst (s, j.outs)
    split
    · exact .fresh h a.1
    · refine EventsCount.foldl_fst (fun a t => ?_) _ a
      exact (EventsCount.bump (f := SV_EVENTS.SAT h) rfl a.1 _).trans (.bump (f := SV_EVENTS.NAN h) rfl _ _)
  have hu : EventsCount h s u := ha.trans (.bump (f := SV_EVENTS.PERM_RANGE h) rfl a.1 r.permRange)
  clear_value u
  have hv : EventsCount h s v := by
    unfold v
    split
    · exact hu
    · split
      · exact hu.trans (.bump (f := SV_EVENTS.EMPTY h) rfl u r.empty)
      · exact hu.trans (.modBolt h u _ _)
  exact hv

/-- A job after a run that leaves its key, the place in its row and the elements of the row. -/
structure Job.GoesOn (j k : Job) : Prop where
  key : k.key = j.key
  pos : k.pos = j.pos
  width : k.width = j.width
  total : k.total = j.total

/-- R181: a run's writes enter its job, which goes on. -/
theorem Job.GoesOn.takeRun {k : Job} (hk : j.GoesOn k) (s : State) (h : Nat) (r : Run1) (tags : List Lane) (outFmt : Nat)
    (storage : EFmt) : j.GoesOn (s.takeRun h k r tags outFmt storage).2 := by
  obtain ⟨hkey, hpos, hwidth, htotal⟩ := hk
  exact ⟨hkey, hpos, hwidth, htotal⟩

/-- R186: the issue cycles of a run. -/
def State.runCost (s : State) (h : Nat) (j : Job) (m : MidRun) : Nat :=
  if m.tail then progCost (s.runWords h j m) else max 1 (progCost (s.runWords h j m))

/-- R171: the state as a run ends, before its writes are taken: its cycles count, and the file stands as the run left it. -/
def State.ran (s : State) (h : Nat) (j : Job) (m : MidRun) : State :=
  (s.bump (SV_CYCLES.ISSUE_CYCLES h) (s.runCost h j m)).modSpindle h (fun v =>
    { v.stopRun j.key with file := m.run.regs, vl := m.run.vl, last := some j.key })

/-- R171: a job after a run of its body has taken its oldest vector, or after a run of its tail. -/
def Job.tookVector (j : Job) (m : MidRun) : Job :=
  if m.tail then j else { j with vecs := j.vecs.tail, largest := max j.largest m.run.vl }

theorem Job.goesOn_tookVector (j : Job) (m : MidRun) : j.GoesOn (j.tookVector m) := by
  unfold Job.tookVector
  split <;> exact ⟨rfl, rfl, rfl, rfl⟩

/-- R171: as a run ends, its writes are taken. -/
theorem State.endRun_eq (s : State) (h : Nat) (j : Job) (m : MidRun) (outFmt : Nat) (storage : EFmt) :
    s.endRun h j m outFmt storage = (s.ran h j m).takeRun h (j.tookVector m) m.run
      (if m.tail || !streamClass j.key.cls then [] else (j.vecs.headD { v0 := [] }).v0) outFmt storage := rfl

theorem EventsCount.endRun (s : State) (h : Nat) (j : Job) (m : MidRun) (outFmt : Nat) (storage : EFmt) :
    EventsCount h (s.ran h j m) (s.endRun h j m outFmt storage).1 := by
  rw [State.endRun_eq]
  exact .takeRun ..

theorem Job.goesOn_endRun (s : State) (h : Nat) (j : Job) (m : MidRun) (outFmt : Nat) (storage : EFmt) :
    j.GoesOn (s.endRun h j m outFmt storage).2 := by
  rw [State.endRun_eq]
  exact (j.goesOn_tookVector m).takeRun ..

theorem State.spindle_ran (hl : h < s.spindles.length) (m : MidRun) : (s.ran h j m).spindle h =
    { (s.spindle h).stopRun j.key with file := m.run.regs, vl := m.run.vl, last := some j.key } := by
  rw [State.ran, State.spindle_modSpindle _ (by rwa [State.bump_spindles]), State.spindle_of (State.bump_spindles ..)]

theorem State.length_spindles_ran (s : State) (h : Nat) (j : Job) (m : MidRun) :
    (s.ran h j m).spindles.length = s.spindles.length := by
  rw [State.ran, State.modSpindle, length_modAt, State.bump_spindles]

theorem State.ran_tiers (s : State) (h : Nat) (j : Job) (m : MidRun) : (s.ran h j m).tiers = s.tiers := by
  rw [State.ran, State.modSpindle_tiers, State.bump_tiers]

/-- R186: the count of the cycles as a run ends. -/
theorem State.get_ran (s : State) (h : Nat) (j : Job) (m : MidRun) : (s.ran h j m).get (SV_CYCLES.ISSUE_CYCLES h) =
    min (s.get (SV_CYCLES.ISSUE_CYCLES h) + s.runCost h j m) (2 ^ fldWidth (SV_CYCLES.ISSUE_CYCLES h) - 1) := by
  rw [State.ran, State.modSpindle_get, State.get_bump_self]
  · exact Nat.le_of_ble_eq_true rfl
  · exact Nat.le_of_ble_eq_true rfl

/-- R171: a run after the words that it has still to execute. -/
def MidRun.finish (m : MidRun) (words : List W64) : MidRun := { m with run := m.run.run (words.drop m.pc) }

theorem State.runCost_finish (s : State) (h : Nat) (j : Job) (m : MidRun) (words : List W64) :
    s.runCost h j (m.finish words) = s.runCost h j m := by
  obtain ⟨key, tail, pc, run⟩ := m
  rw [MidRun.finish]
  generalize run.run (words.drop pc) = r
  rfl

/-- R171: the next run of a job, executed to its end. -/
def State.ranOut (s : State) (h : Nat) (j : Job) : MidRun := (s.midOf h j).finish (s.runWords h j (s.midOf h j))

theorem State.finishRun_eq (s : State) (h : Nat) (j : Job) (outFmt : Nat) (storage : EFmt) :
    s.finishRun h j outFmt storage = s.endRun h j (s.ranOut h j) outFmt storage := rfl

theorem EventsCount.finishRun (s : State) (h : Nat) (j : Job) (outFmt : Nat) (storage : EFmt) :
    EventsCount h (s.ran h j (s.ranOut h j)) (s.finishRun h j outFmt storage).1 := by
  rw [State.finishRun_eq]
  exact .endRun ..

theorem Job.goesOn_finishRun (s : State) (h : Nat) (j : Job) (outFmt : Nat) (storage : EFmt) :
    j.GoesOn (s.finishRun h j outFmt storage).2 := by
  rw [State.finishRun_eq]
  exact j.goesOn_endRun ..

theorem EventsCount.spindles {u v : State} (e : EventsCount h u v) : v.spindles = u.spindles := by rw [e.frame]

theorem EventsCount.tiers {u v : State} (e : EventsCount h u v) : v.tiers = u.tiers := by rw [e.frame]

/-! ## Vectors (R171, R186) -/

theorem exec_spindleVector (h : Fin 8) (mm : Bool) (s : State) : exec (.spindleVector h mm) s = execSpindleVector h mm s := rfl

theorem exec_spindleVector_closed {h : Fin 8} (mm : Bool) (hn : (s.spindle h.val).failed = true ∨ s.spindleStopped h.val = true) :
    exec (.spindleVector h mm) s = .next s := by
  rw [exec_spindleVector, execSpindleVector]
  rcases hn with hn | hn <;> simp [hn]

section
variable {h : Fin 8} {mm : Bool} (hs : s.serving = true) (hf : (s.spindle h.val).failed = false)
  (hh : s.spindleStopped h.val = false)
include hs hf hh

theorem exec_spindleVector_mismatch (hj : s.vectorJob h.val = some j) (hm : mm = true) (hw : j.width = 256) :
    exec (.spindleVector h mm) s = .next (s.after (s.mismatch h.val j)) := by
  rw [exec_spindleVector, execSpindleVector, hj]
  simp [hs, hf, hh, hm, hw]

theorem exec_spindleVector_runs (hj : s.vectorJob h.val = some j) (hm : mm = false ∨ j.width ≠ 256) :
    exec (.spindleVector h mm) s = .next (s.after (s.attempt (fun s => s.runJob h.val j)).1) := by
  rw [exec_spindleVector, execSpindleVector, hj]
  rcases hm with hm | hm <;> simp [hs, hf, hh, hm]

end

theorem State.mem_of_vectorJob (hj : s.vectorJob h = some j) : j ∈ (s.spindle h).jobs := by
  unfold State.vectorJob at hj
  rcases Option.or_eq_some_iff.mp hj with hj | ⟨-, hj⟩
  · exact List.mem_of_find?_eq_some hj
  · exact List.mem_of_find?_eq_some hj

theorem State.get_ranOut (s : State) (h : Nat) (j : Job) : (s.ran h j (s.ranOut h j)).get (SV_CYCLES.ISSUE_CYCLES h) =
    min (s.get (SV_CYCLES.ISSUE_CYCLES h) + s.runCost h j (s.midOf h j)) (2 ^ fldWidth (SV_CYCLES.ISSUE_CYCLES h) - 1) := by
  rw [State.get_ran, State.ranOut, State.runCost_finish]

/-- R171: a run of a job is the run itself and the count of its cycles, beside what its writes leave and the place of its job. -/
theorem State.runJob_eq (s : State) (h : Nat) (j : Job) : ∃ u k, EventsCount h (s.ran h j (s.ranOut h j)) u ∧
    s.runJob h j = (u.modJob h j.key (fun _ => k)).closeVectors h :=
  ⟨_, _, .finishRun .., rfl⟩

theorem State.closeVectors_tiers (s : State) (h : Nat) : (s.closeVectors h).tiers = s.tiers := rfl

theorem State.closeVectors_get (s : State) (h : Nat) (f : Fld) : (s.closeVectors h).get f = s.get f := rfl

theorem State.spindle_closed (hl : h < s.spindles.length) (k : JobKey) (f : Job → Job) :
    (((s.modJob h k f).closeVectors h).spindle h).last = (s.spindle h).last ∧
      (((s.modJob h k f).closeVectors h).spindle h).file = (s.spindle h).file := by
  rw [State.closeVectors, State.spindle_modSpindle _ (by rwa [State.modJob, State.modSpindle, length_modAt]), State.modJob,
    State.spindle_modSpindle _ hl]
  exact ⟨rfl, rfl⟩

/-- R171, R186: a run of a job leaves the Spindle's file and the count of its cycles as the run itself did. -/
theorem State.runJob_shows (hl : h < s.spindles.length) : (s.runJob h j).tiers = s.tiers ∧
    ((s.runJob h j).spindle h).last = some j.key ∧ ((s.runJob h j).spindle h).file = (s.ranOut h j).run.regs ∧
    (s.runJob h j).get (SV_CYCLES.ISSUE_CYCLES h) =
      min (s.get (SV_CYCLES.ISSUE_CYCLES h) + s.runCost h j (s.midOf h j)) (2 ^ fldWidth (SV_CYCLES.ISSUE_CYCLES h) - 1) := by
  obtain ⟨u, k, hrun, hjob⟩ := s.runJob_eq h j
  have hlu : h < u.spindles.length := by rwa [hrun.spindles, State.length_spindles_ran]
  obtain ⟨hlast, hfile⟩ := State.spindle_closed hlu j.key (fun _ => k)
  have hcycles : u.get (SV_CYCLES.ISSUE_CYCLES h) = (s.ran h j (s.ranOut h j)).get (SV_CYCLES.ISSUE_CYCLES h) :=
    State.get_of_word (hrun.word _ (by simp [SV_CYCLES.ISSUE_CYCLES, SV_EVENTS.SAT]))
  rw [hjob, hlast, hfile, State.closeVectors_tiers, State.modJob_tiers, hrun.tiers, State.ran_tiers, State.closeVectors_get,
    State.modJob_get, hcycles, State.spindle_of hrun.spindles, State.spindle_ran hl, State.get_ranOut]
  exact ⟨rfl, rfl, rfl, rfl⟩

/-- R171, R186: the oldest closed vector of a started job runs. -/
theorem exec_spindleVector_shows {h : Fin 8} {mm : Bool} (htry : s.tiers.trying = false)
    (hs : s.serving = true) (hf : (s.spindle h.val).failed = false) (hh : s.spindleStopped h.val = false)
    (hj : s.vectorJob h.val = some j) (hm : mm = false ∨ j.width ≠ 256) :
    ∃ t, exec (.spindleVector h mm) s = .next t ∧ (t.spindle h.val).last = some j.key ∧
      (t.spindle h.val).file = (s.ranOut h.val j).run.regs ∧ t.get (SV_CYCLES.ISSUE_CYCLES h.val) =
        min (s.get (SV_CYCLES.ISSUE_CYCLES h.val) + s.runCost h.val j (s.midOf h.val j))
          (2 ^ fldWidth (SV_CYCLES.ISSUE_CYCLES h.val) - 1) := by
  obtain ⟨htiers, hlast, hfile, hcount⟩ := State.runJob_shows (s := s.opened) (j := j) (State.spindle_exists (State.mem_of_vectorJob hj))
  obtain ⟨hregs, -, hspindles, -⟩ := State.attempt_shows (op := fun s => s.runJob h.val j) htry
    (by rw [htiers]; rfl) (by rw [htiers]; rfl)
  refine ⟨_, exec_spindleVector_runs hs hf hh hj hm, ?_, ?_, ?_⟩
  · rw [State.spindle_of hspindles]
    exact hlast
  · rw [State.spindle_of hspindles]
    exact hfile
  · exact (State.get_of_regs hregs _).trans hcount

/-! ## The tail of a GRAD_ROW instance (R171, R181) -/

theorem exec_spindleTail (h : Fin 8) (mm : Bool) (s : State) : exec (.spindleTail h mm) s = execSpindleTail h mm s := rfl

theorem exec_spindleTail_closed {h : Fin 8} (mm : Bool) (hn : (s.spindle h.val).failed = true ∨ s.spindleStopped h.val = true) :
    exec (.spindleTail h mm) s = .next s := by
  rw [exec_spindleTail, execSpindleTail]
  rcases hn with hn | hn <;> simp [hn]

section
variable {h : Fin 8} {mm : Bool} (hs : s.serving = true) (hf : (s.spindle h.val).failed = false)
  (hh : s.spindleStopped h.val = false)
include hs hf hh

theorem exec_spindleTail_mismatch (hj : s.tailJob h.val = some j) (hm : mm = true) (hw : j.width = 256) :
    exec (.spindleTail h mm) s = .next (s.after (s.mismatch h.val j)) := by
  rw [exec_spindleTail, execSpindleTail, hj]
  simp [hs, hf, hh, hm, hw]

theorem exec_spindleTail_runs (hj : s.tailJob h.val = some j) (hm : mm = false ∨ j.width ≠ 256) :
    exec (.spindleTail h mm) s = .next (s.after (s.attempt (fun s => s.runTailOf h.val j)).1) := by
  rw [exec_spindleTail, execSpindleTail, hj]
  rcases hm with hm | hm <;> simp [hs, hf, hh, hm]

end

theorem State.mem_of_tailJob (hj : s.tailJob h = some j) : j ∈ (s.spindle h).jobs := List.mem_of_find?_eq_some hj

/-- R181: a row of GRAD_ROW that is complete touches its Spindle in its job alone, and nothing of the tiers. -/
theorem State.endGradRow_keeps (s : State) (h : Nat) (j : Job) :
    (s.endGradRow h j).tiers = s.tiers ∧ (s.endGradRow h j).spindles = (s.dropJob h j.key).spindles := by
  have hvalues : ∀ (s : State) (os : List Stored) (n : Nat),
      ((s.rowValues os n).1.tiers, (s.rowValues os n).1.spindles) = (s.tiers, s.spindles) := fun s os n => by
    refine foldl_fst_keeps (fun s : State => (s.tiers, s.spindles)) (fun a i => ?_) _ (s, [], false, false)
    split <;> rfl
  have hrows : ∀ (s : State) (b : Nat), ((s.releaseRows b).tiers, (s.releaseRows b).spindles) = (s.tiers, s.spindles) := fun s b => by
    unfold State.releaseRows
    split
    · rfl
    · refine foldl_keeps (fun s : State => (s.tiers, s.spindles)) (fun s i => ?_) _ s
      rw [onlyBolts_releaseRow s b i]
  have hfed : ∀ s : State, (s.releaseFed.tiers, s.releaseFed.spindles) = (s.tiers, s.spindles) := fun s => by
    unfold State.releaseFed
    split
    · rfl
    · refine foldl_keeps (fun s : State => (s.tiers, s.spindles)) (fun s b => ?_) _ s
      refine foldl_keeps (fun s : State => (s.tiers, s.spindles)) (fun s r => ?_) _ s
      split <;> rfl
  have hend : ((s.endGradRow h j).tiers, (s.endGradRow h j).spindles) = (s.tiers, (s.dropJob h j.key).spindles) := by
    unfold State.endGradRow
    dsimp only
    rw [hfed, hrows]
    split <;> exact hvalues (s.dropJob h j.key) _ _
  exact Prod.ext_iff.mp hend

/-- R164, R181: the instance of a GRAD_ROW job ends: with elements left its place goes on, else its row is complete. -/
theorem State.endInstance_gradRow (hc : j.key.cls = 2) : s.endInstance h j =
    if j.pos + j.width < j.total then s.modJob h j.key (fun _ => { j with started := false, pos := j.pos + j.width })
    else s.endGradRow h { j with started := false, pos := j.pos + j.width } := by
  unfold State.endInstance State.endJob
  simp [hc, streamClass]

theorem State.runTailOf_eq (s : State) (h : Nat) (j : Job) : ∃ u k, EventsCount h (s.ran h j (s.ranOut h j)) u ∧ j.GoesOn k ∧
    s.runTailOf h j = u.endInstance h k :=
  ⟨_, _, .finishRun .., j.goesOn_finishRun .., rfl⟩

section
variable (hj : j ∈ (s.spindle h).jobs) (hc : j.key.cls = 2)
include hj hc

/-- R164: with elements left, the job of a GRAD_ROW tail waits for its next instance. -/
theorem State.runTailOf_goesOn (hleft : j.pos + j.width < j.total) : (s.runTailOf h j).tiers = s.tiers ∧
    ∃ y ∈ ((s.runTailOf h j).spindle h).jobs, y.key = j.key ∧ y.started = false ∧ y.pos = j.pos + j.width := by
  obtain ⟨u, k, hrun, ⟨hkey, hpos, hwidth, htotal⟩, htail⟩ := s.runTailOf_eq h j
  have hmem : j ∈ (u.spindle h).jobs := by
    rw [State.spindle_of hrun.spindles, State.spindle_ran (State.spindle_exists hj)]
    exact hj
  rw [htail, State.endInstance_gradRow (hkey ▸ hc), if_pos (by omega), State.modJob_tiers, hrun.tiers, State.ran_tiers]
  have hwaits := State.mem_modJob (f := fun _ => { k with started := false, pos := k.pos + k.width }) hmem
  rw [← hkey] at hwaits
  refine ⟨rfl, _, hwaits, hkey, rfl, ?_⟩
  rw [hpos, hwidth]

/-- R181: without, the job of a GRAD_ROW tail leaves. -/
theorem State.runTailOf_leaves (hdone : j.total ≤ j.pos + j.width) : (s.runTailOf h j).tiers = s.tiers ∧
    ∀ y ∈ ((s.runTailOf h j).spindle h).jobs, y.key ≠ j.key := by
  obtain ⟨u, k, hrun, ⟨hkey, hpos, hwidth, htotal⟩, htail⟩ := s.runTailOf_eq h j
  have hlu : h < u.spindles.length := by
    rw [hrun.spindles, State.length_spindles_ran]
    exact State.spindle_exists hj
  obtain ⟨htiers, hspindles⟩ := u.endGradRow_keeps h { k with started := false, pos := k.pos + k.width }
  rw [htail, State.endInstance_gradRow (hkey ▸ hc), if_neg (by omega), htiers, hrun.tiers, State.ran_tiers, State.spindle_of hspindles,
    ← hkey]
  exact ⟨rfl, State.not_mem_dropJob hlu⟩

end

end

/-! ## The statement O34 -/

/-- Settles O34: each row is its operation on the state at rest, and none of them asks for a tile. -/
theorem spindleJobsRun : Obligations.SpindleJobsRun := by
  intro s h mm hr
  obtain ⟨⟨htry, -⟩, -⟩ := hr
  refine ⟨fun j ho hj hc => exec_spindleInstanceStart_starts htry ho hj hc, exec_spindleInstanceStart_none, fun j hs hf hh hj => ?_,
    fun j hs hf hh hj => ?_, fun hn => ⟨exec_spindleVector_closed mm hn, exec_spindleTail_closed mm hn⟩⟩
  · refine ⟨fun hm hw => ?_, exec_spindleVector_shows htry hs hf hh hj⟩
    have hexec := exec_spindleVector_mismatch hs hf hh hj hm hw
    exact ⟨hexec, fun k hk _ => ⟨_, hexec, State.mismatch_marks (State.spindle_exists (State.mem_of_vectorJob hj)) hk⟩⟩
  · refine ⟨exec_spindleTail_mismatch hs hf hh hj, fun hm hc => ⟨fun hleft => ?_, fun hdone => ?_⟩⟩
    · obtain ⟨htiers, hgoes⟩ := State.runTailOf_goesOn (s := s.opened) (State.mem_of_tailJob hj) hc hleft
      obtain ⟨-, -, hspindles, -⟩ := State.attempt_shows (op := fun s => s.runTailOf h.val j) htry
        (by rw [htiers]; rfl) (by rw [htiers]; rfl)
      exact ⟨_, exec_spindleTail_runs hs hf hh hj hm, State.spindle_of hspindles _ ▸ hgoes⟩
    · obtain ⟨htiers, hleaves⟩ := State.runTailOf_leaves (s := s.opened) (State.mem_of_tailJob hj) hc hdone
      obtain ⟨-, -, hspindles, -⟩ := State.attempt_shows (op := fun s => s.runTailOf h.val j) htry
        (by rw [htiers]; rfl) (by rw [htiers]; rfl)
      exact ⟨_, exec_spindleTail_runs hs hf hh hj hm, State.spindle_of hspindles _ ▸ hleaves⟩

end Sys2Proof.Machine

/-! Directory commands (family 09_skein_tables): a command whose unit is free, the command word of the directory, and what the entry
makes of each command; the statements O37 and O38. -/

namespace Sys2Proof.Machine

/-! ## Commands that find their unit free (R51, R249) -/

section
variable {s : State} {off : Nat} {go busy : Fld} {v : W64} {f : State → State}

/-- A command at a free unit takes effect through the port, and what waits goes on. -/
theorem State.portWork_free {u : State} (hg : s.writeGate off = .made) (hb : s.flag busy = false) (hu : f s = u) :
    s.portWork off busy f = s.after ({ u with resp := .written } : State).carryOn := by
  rw [State.portWork, hb, State.atPort_made f hg, hu]
  rfl

theorem State.issue_free (hgo : bitOf v.toNat go.lo = true) (hb : s.flag busy = false) :
    s.issue v go busy f = f (s.writeFields go.off v) := by
  simp [State.issue, hgo, hb]

end

section
variable {s : State} {w : Work}

/-- R249: in a state at rest, a piece of work that may not be begun yet stays, and nothing else goes on. -/
theorem State.carryOn_addWork_held (hs : s.atRest) (hready : (s.addWork w).workReady w = false) :
    (s.addWork w).carryOn = s.addWork w := by
  obtain ⟨⟨htry, hwanted, hstarved, hnone, hdrop, hcmd, hretiring, hreplacing⟩, hidle⟩ := hs
  have hpend : (s.addWork w).tiers.work = [w] := by simp [State.addWork, hnone]
  have hitems : State.runItems [w] [] (s.addWork w) = s.addWork w := by simp [State.runItems, hpend, hready]
  have hsame : ∀ op : State → State, (∀ u : State, u.skein = s.skein → op u = u) → ((s.addWork w).attempt op).1 = s.addWork w :=
    fun op h => by rw [State.attempt_same (s := s.addWork w) htry hwanted hstarved h]
  have hretire : (s.addWork w).retireSlots = s.addWork w := hsame _ fun u hu => State.retireNow_same (hu ▸ hretiring)
  have hreplace : (s.addWork w).runReplacement = s.addWork w := hsame _ fun u hu => State.replaceNow_same (hu ▸ hreplacing)
  have hresume : (s.addWork w).resumePageCmd = s.addWork w := by
    rw [State.resumePageCmd, show (s.addWork w).tiers.cmd = none from hcmd]
  have hidle' : exchangeIdle (s.addWork w) := hidle
  obtain ⟨hrounds, -, -, -, -, hreshard⟩ := id hidle'
  unfold State.carryOn
  simp only [State.takeDropped_same (s := s.addWork w) hdrop, hpend, hitems, hretire, hreplace, hresume, State.launchDue_same hrounds,
    State.checkReshard_same hreshard, State.exchangeBusy_idle hidle', Bool.and_false, Bool.false_eq_true, if_false, ite_self]

end

/-- The work that waits stands beside the words that a write leaves. -/
theorem rewrites_work {s t : State} {l : List Nat} (h : rewrites s t l) (ws : List Work) :
    rewrites { s with tiers := { s.tiers with work := ws } } { t with tiers := { s.tiers with work := ws } } l :=
  ⟨congrArg (fun x : State => { x with tiers := { s.tiers with work := ws } }) h.1, h.2⟩

theorem rewrites.powered {s t : State} {l : List Nat} (h : rewrites s t l) : t.powered = s.powered := by
  rw [h.1]
  rfl

/-- What rewrites the window of a state with the queue and the fuses of `s` passes the seal of a command. -/
theorem rewrites.sealed {s u t : State} {l : List Nat} (h : rewrites u t l) (hp : u.pending = s.pending) (hf : u.fuses = s.fuses) :
    s.after t = t :=
  State.after_eq s t (by rw [h.1]; exact hp) (by rw [h.1]; exact hf)

/-! ## The command word of the directory (Table 9.3) -/

theorem plainReg_descCmd : plainReg ST_DESC_CMD.GO.off = true := by decide +kernel

theorem plainAcc_descFields : ∀ f ∈ [ST_DESC_CMD.OP, ST_DESC_CMD.ADAPTER], f.off = ST_DESC_CMD.GO.off ∧ plainAcc f = some .rw := by
  decide +kernel

/-- The fields of the word that issues a directory command. -/
theorem descWord_fields {op a : Nat} (hop : op < 16) (ha : a < 2 ^ 16) :
    bitOf (descWord op a).toNat ST_DESC_CMD.GO.lo = true ∧
      bitsOf (descWord op a).toNat ST_DESC_CMD.OP.hi ST_DESC_CMD.OP.lo = op ∧
      bitsOf (descWord op a).toNat ST_DESC_CMD.ADAPTER.hi ST_DESC_CMD.ADAPTER.lo = a := by
  have hopw : op % 2 ^ (ST_DESC_CMD.OP.hi + 1 - ST_DESC_CMD.OP.lo) = op := Nat.mod_eq_of_lt hop
  have haw : a % 2 ^ (ST_DESC_CMD.ADAPTER.hi + 1 - ST_DESC_CMD.ADAPTER.lo) = a := Nat.mod_eq_of_lt ha
  have hword : descWord op a = putBits (putBits (putBits 0 ST_DESC_CMD.GO.hi ST_DESC_CMD.GO.lo 1)
    ST_DESC_CMD.OP.hi ST_DESC_CMD.OP.lo op) ST_DESC_CMD.ADAPTER.hi ST_DESC_CMD.ADAPTER.lo a := rfl
  rw [bitOf_eq_bitsOf, hword]
  refine ⟨?_, ?_, ?_⟩
  · rw [bitsOf_putBits_apart _ _ _ _ _ _ (by decide) (by decide) (by decide),
      bitsOf_putBits_apart _ _ _ _ _ _ (by decide) (by decide) (by decide)]
    rfl
  · rw [bitsOf_putBits_apart _ _ _ _ _ _ (by decide) (by decide) (by decide), bitsOf_putBits_self _ _ _ _ (by decide) (by decide), hopw]
  · rw [bitsOf_putBits_self _ _ _ _ (by decide) (by decide), haw]

/-- The state that a directory command is taken in: its word is written and BUSY is 1. -/
def State.descTaken (s : State) (op a : Nat) : State :=
  { (s.writeFields ST_DESC_CMD.GO.off (descWord op a)).set ST_DESC_CMD.BUSY 1 with resp := .written }

theorem State.descTaken_rewrites (s : State) (op a : Nat) :
    rewrites { s with resp := .written } (s.descTaken op a) [ST_DESC_CMD.GO.off] :=
  rewrites_written ((rewrites_writeFields plainReg_descCmd).set _ _ (by decide))

/-- Table 9.3: the codes of the directory commands. -/
def directoryCommands (a : BitVec 16) : List (Instr × Nat) :=
  [(.dirWrite a, 0), (.dirRead a, 1), (.dirInvalidate a, 2), (.dirUpdate a, 3), (.dirSetPending a, 4)]

theorem exec_directory (s : State) {a : BitVec 16} {c : Instr} {op : Nat} (h : (c, op) ∈ directoryCommands a) :
    op < 16 ∧ exec c s = .next (s.portWork ST_DESC_CMD.GO.off ST_DESC_CMD.BUSY (fun s => s.writeDescCmd (descWord op a.toNat))) := by
  simp only [directoryCommands, List.mem_cons, Prod.mk.injEq, List.not_mem_nil, or_false] at h
  obtain ⟨rfl, rfl⟩ | ⟨rfl, rfl⟩ | ⟨rfl, rfl⟩ | ⟨rfl, rfl⟩ | ⟨rfl, rfl⟩ := h <;> exact ⟨by decide, rfl⟩

section
variable {s : State} {op a : Nat}

theorem State.writeDescCmd_free (hop : op < 16) (ha : a < 2 ^ 16) (hb : s.flag ST_DESC_CMD.BUSY = false) :
    s.writeDescCmd (descWord op a) =
      ((s.writeFields ST_DESC_CMD.GO.off (descWord op a)).set ST_DESC_CMD.BUSY 1).addWork (.directory op a) := by
  obtain ⟨hgo, hopw, haw⟩ := descWord_fields hop ha
  have hfield : ∀ f ∈ [ST_DESC_CMD.OP, ST_DESC_CMD.ADAPTER],
      (s.writeFields ST_DESC_CMD.GO.off (descWord op a)).get f = bitsOf (descWord op a).toNat f.hi f.lo := fun f hf => by
    obtain ⟨hoff, hacc⟩ := plainAcc_descFields f hf
    rw [← hoff, State.get_writeFields_rw s _ hacc]
  rw [State.writeDescCmd, State.issue_free hgo hb, State.takeDesc, hfield ST_DESC_CMD.OP (by simp),
    hfield ST_DESC_CMD.ADAPTER (by simp), hopw, haw]

theorem State.written_addWork (s : State) (w : Work) :
    ({ s.addWork w with resp := .written } : State) = ({ s with resp := .written } : State).addWork w := rfl

/-- R218: a directory command that finds its unit free. -/
theorem exec_directory_free {a : BitVec 16} {c : Instr} (h : (c, op) ∈ directoryCommands a)
    (hg : s.writeGate ST_DESC_CMD.GO.off = .made) (hb : s.flag ST_DESC_CMD.BUSY = false) :
    exec c s = .next (s.after ((s.descTaken op a.toNat).addWork (.directory op a.toNat)).carryOn) := by
  obtain ⟨hop, hexec⟩ := exec_directory s h
  rw [hexec, State.portWork_free hg hb (State.writeDescCmd_free hop a.isLt hb), State.written_addWork, State.descTaken]

theorem State.descTaken_get (s : State) (op a : Nat) {f : Fld} (hf : f.off ≠ ST_DESC_CMD.GO.off) : (s.descTaken op a).get f = s.get f :=
  State.get_of_word ((s.descTaken_rewrites op a).2 f.off (by simpa using hf))

theorem State.descTaken_flag (s : State) (op a : Nat) {f : Fld} (hf : f.off ≠ ST_DESC_CMD.GO.off) :
    (s.descTaken op a).flag f = s.flag f := by
  rw [State.flag, State.descTaken_get s op a hf, State.flag]

theorem State.descTaken_atRest (h : s.atRest) : (s.descTaken op a).atRest := by
  have hframe := (s.descTaken_rewrites op a).1
  exact State.atRest_of h (by rw [hframe]) (by rw [hframe]) (by rw [hframe])

theorem State.descTaken_powered (s : State) (op a : Nat) : (s.descTaken op a).powered = s.powered :=
  (s.descTaken_rewrites op a).powered

/-- R218: a directory that is not ready refuses every command. -/
theorem State.runDesc_notReady (h : s.dirReady = false) : s.runDesc op a = s.descDone 6 := by
  simp [State.runDesc, h]

/-- R218: how a directory command completes. -/
theorem State.descDone_shows (s : State) {code : Nat} (hc : code < 256) :
    let t := s.descDone code
    rewrites s t [ST_DESC_CMD.GO.off] ∧ t.get ST_DESC_CMD.STATUS = code ∧ t.get ST_DESC_CMD.BUSY = 0 ∧ t.get ST_DESC_CMD.GO = 0 := by
  have hcode : code % 2 ^ fldWidth ST_DESC_CMD.STATUS = code := Nat.mod_eq_of_lt hc
  have hbusy : 0 % 2 ^ fldWidth ST_DESC_CMD.BUSY = 0 := rfl
  have hgo : 0 % 2 ^ fldWidth ST_DESC_CMD.GO = 0 := rfl
  refine ⟨(((rewrites_refl s _).set _ _ (by decide)).set _ _ (by decide)).set _ _ (by decide), ?_⟩
  simp (disch := decide) only [State.descDone, State.complete, State.get_set_self, State.get_set_apart, hcode, hbusy, hgo, and_self]

end

section
variable {s : State} {op a : Nat}

theorem State.descTaken_inBoundary (s : State) (op a : Nat) : (s.descTaken op a).inBoundary = s.inBoundary :=
  s.descTaken_flag op a (by decide)

theorem State.descTaken_dirReady (s : State) (op a : Nat) : (s.descTaken op a).dirReady = s.dirReady :=
  s.descTaken_flag op a (by decide)

/-- R218: a directory command may be begun outside a boundary. -/
theorem State.workReady_directory {b : Bool} (h : s.inBoundary = b) :
    (s.addWork (.directory op a)).workReady (.directory op a) = !b := congrArg (!·) h

/-- A directory command as it waits, of an engine without other work. -/
def State.descWaits (s : State) (op a : Nat) : State :=
  { s.descTaken op a with tiers := { s.tiers with work := [.directory op a] } }

theorem State.descTaken_addWork (h : s.tiers.work = []) : (s.descTaken op a).addWork (.directory op a) = s.descWaits op a := by
  have htiers : (s.descTaken op a).tiers = s.tiers := by rw [(s.descTaken_rewrites op a).1]
  rw [State.addWork_rest (htiers ▸ h), State.descWaits, htiers]

theorem State.descWaits_rewrites (s : State) (op a : Nat) :
    rewrites { s with resp := .written, tiers := { s.tiers with work := [.directory op a] } } (s.descWaits op a)
      [ST_DESC_CMD.GO.off] := rewrites_work (s.descTaken_rewrites op a) _

theorem State.descWaits_regs (s : State) (op a : Nat) :
    (s.descWaits op a).regs = ((s.writeFields ST_DESC_CMD.GO.off (descWord op a)).set ST_DESC_CMD.BUSY 1).regs := rfl

theorem State.descWaits_busy (s : State) (op a : Nat) : (s.descWaits op a).flag ST_DESC_CMD.BUSY = true := by
  have hset := State.get_set_self (s.writeFields ST_DESC_CMD.GO.off (descWord op a)) ST_DESC_CMD.BUSY 1 (by decide) (by decide)
  rw [State.flag, State.get_of_regs (s := State.set _ ST_DESC_CMD.BUSY 1) (s.descWaits_regs op a), hset]
  rfl

theorem State.opened_descDone (s : State) (code : Nat) : s.opened.descDone code = (s.descDone code).opened := by
  unfold State.descDone State.complete
  rw [State.opened_set, State.opened_set, State.opened_set]

/-- R218: a directory that is not ready refuses every command, also within an attempt. -/
theorem State.doWork_notReady (h : s.dirReady = false) : s.opened.doWork (.directory op a) = (s.descDone 6).opened := by
  have hopen : s.opened.dirReady = false := h
  rw [← State.opened_descDone]
  exact State.runDesc_notReady hopen

/-- R218: while the directory is not ready, a command outside a boundary completes with DIR_NOT_READY. -/
theorem State.carryOn_notReady (hr : s.atRest) (hp : s.powered = true) (hout : s.inBoundary = false) (hnot : s.dirReady = false) :
    (s.addWork (.directory op a)).carryOn = s.descDone 6 := by
  obtain ⟨hdone, -⟩ := s.descDone_shows (code := 6) (by decide)
  exact State.carryOn_addWork hr hp (State.workReady_directory hout) (State.doWork_notReady hnot) (State.atRest_of_rewrites hr hdone)
    (hdone.powered.trans hp)

end

/-! ## The statement O37 -/

/-- Settles O37: the command becomes a piece of work, which stays while IN_BOUNDARY is 1 and else is done at once. -/
theorem directoryCommandsRunOrWait : Obligations.DirectoryCommandsRunOrWait := by
  intro s a hg hp hb hr c op hc u
  have hwork : s.tiers.work = [] := by obtain ⟨⟨-, -, -, hnone, -⟩, -⟩ := hr; exact hnone
  have hexec := exec_directory_free hc hg hb
  have hwaits := s.descWaits_rewrites op a.toNat
  refine ⟨?_, fun hin => ?_, fun hout hnot => ?_⟩
  · rw [hexec, State.descTaken_addWork hwork]
    rfl
  · have hheld : ((s.descTaken op a.toNat).addWork (.directory op a.toNat)).workReady (.directory op a.toNat) = false :=
      State.workReady_directory ((s.descTaken_inBoundary op a.toNat).trans hin)
    rw [State.carryOn_addWork_held (State.descTaken_atRest hr) hheld, State.descTaken_addWork hwork,
      hwaits.sealed (s := s) rfl rfl] at hexec
    exact ⟨_, hexec, s.descWaits_busy op a.toNat, hwaits⟩
  · obtain ⟨hdone, hstatus, hbusy, hgo⟩ := (s.descTaken op a.toNat).descDone_shows (code := 6) (by decide)
    have hends := rewrites_trans (s.descTaken_rewrites op a.toNat) hdone (List.Subset.refl _) (List.Subset.refl _)
    rw [State.carryOn_notReady (State.descTaken_atRest hr) ((s.descTaken_powered op a.toNat).trans hp)
      ((s.descTaken_inBoundary op a.toNat).trans hout) ((s.descTaken_dirReady op a.toNat).trans hnot),
      hends.sealed (s := s) rfl rfl] at hexec
    refine ⟨_, hexec, hends, hstatus, ?_, ?_⟩
    · rw [State.flag, hbusy]
      rfl
    · rw [State.flag, hgo]
      rfl

/-! ## What a command makes of the entry (R218 to R220, Table 9.3) -/

/-- A read of bytes in Beam within an attempt is one without. -/
theorem onlyUsed.of_opened {s x : State} (h : onlyUsed s.opened x) : ∃ y, onlyUsed s y ∧ x = y.opened :=
  ⟨{ s with tiers := { s.tiers with pages := x.tiers.pages } }, ⟨rfl, h.2⟩, h.1⟩

section
variable {s : State} {a : Nat} {d : Dir}

theorem State.descWrite_valid (hd : s.rawDir a = some d) (hv : d.valid = true) : s.descWrite a = s.descDone 1 := by
  simp [State.descWrite, hd, hv]

/-- Table 9.3: READ, without its completion. -/
def State.stageEntry (s : State) (d : Dir) : State :=
  (List.range 8).foldl (fun s i => s.setWord (ST_DESC_STAGE.WORD i).off (d.words.getD i 0)) s

theorem State.descRead_some (hd : s.rawDir a = some d) : s.descRead a = (s.stageEntry d).descDone 0 := by
  simp only [State.descRead, hd, State.stageEntry]

theorem State.opened_stageEntry (s : State) (d : Dir) : s.opened.stageEntry d = (s.stageEntry d).opened := rfl

theorem onlyRegs_stageEntry (s : State) (d : Dir) : onlyRegs s (s.stageEntry d) :=
  onlyRegs_foldl _ (fun s _ => onlyRegs_setWord s _ _) _ s

theorem onlyRegs.goesOn {t : State} (h : onlyRegs s t) (hr : s.atRest) (hp : s.powered = true) : t.atRest ∧ t.powered = true := by
  unfold onlyRegs at h
  rw [h]
  exact ⟨hr, hp⟩

theorem State.word_stageWords (s : State) (ws : List W64) (n : Nat) : ∀ i < n,
    ((List.range n).foldl (fun s i => s.setWord (ST_DESC_STAGE.WORD i).off (ws.getD i 0)) s).word (ST_DESC_STAGE.WORD i).off =
      ws.getD i 0 := by
  induction n with
  | zero => exact fun i hi => absurd hi (Nat.not_lt_zero i)
  | succ n ih =>
    intro i hi
    rw [List.range_succ, List.foldl_append, List.foldl_cons, List.foldl_nil]
    by_cases h : i = n
    · rw [h, State.word_setWord_self]
    · have hne : (ST_DESC_STAGE.WORD i).off ≠ (ST_DESC_STAGE.WORD n).off := by
        simp only [ST_DESC_STAGE.WORD]
        omega
      rw [State.word_setWord_ne _ _ hne]
      exact ih i (by omega)

/-- Table 9.3: UPDATE, without its completion: the staged fields wait for the boundary. -/
def State.stageUpdate (s : State) (a : Nat) : State :=
  { s with skein := { s.skein with updates := s.skein.updates.filter (fun u => u.1 != a) ++ [(a, s.staged.words)] } }

theorem State.descUpdate_valid (hd : s.rawDir a = some d) (hv : d.valid = true) (hpolicy : s.staged.policy ≠ 3) :
    s.descUpdate a = (s.stageUpdate a).descDone 0 := by
  simp [State.descUpdate, hd, hv, hpolicy, State.stageUpdate]

end

section
variable {s : State} {a : BitVec 16} {c : Instr} {op : Nat} {d : Dir}

section
variable {t : State} (h : onlyUsed s t)
include h

/-- R249: a read of bytes in Beam leaves an engine at rest at rest. -/
theorem onlyUsed.atRest (hs : s.atRest) : t.atRest := by
  rw [h.1]
  exact hs

theorem onlyUsed.powered : t.powered = s.powered := by
  rw [h.1]
  rfl

theorem onlyUsed.skein : t.skein = s.skein := by rw [h.1]

theorem onlyUsed.beam : t.tiers.beam = s.tiers.beam := by rw [h.1]

theorem onlyUsed.word (off : Nat) : t.word off = s.word off := by
  rw [h.1]
  rfl

end

theorem State.dirAddr_of_rewrites {t : State} {l : List Nat} (h : rewrites s t l) (hbase : ST_DIR_BASE.BASE.off ∉ l) (x : Nat) :
    t.dirAddr x = s.dirAddr x := by
  have hskein : t.skein = s.skein := by rw [h.1]
  unfold State.dirAddr State.getF State.inForce
  rw [hskein, h.2 _ hbase]

theorem State.rawDir_of_rewrites {t : State} {l : List Nat} (h : rewrites s t l) (hstatus : ST_STATUS.DIR_READY.off ∉ l)
    (hbase : ST_DIR_BASE.BASE.off ∉ l) (x : Nat) : t.rawDir x = s.rawDir x := by
  have htiers : t.tiers = s.tiers := by rw [h.1]
  have hready : t.dirReady = s.dirReady := State.flag_of_word (h.2 _ hstatus)
  unfold State.rawDir State.peekWords
  rw [htiers, hready, State.dirAddr_of_rewrites h hbase]

theorem samePages_descTaken (s : State) (op a : Nat) : samePages s (s.descTaken op a) := by
  obtain ⟨hframe, hword⟩ := s.descTaken_rewrites op a
  refine ⟨?_, by rw [hframe], hword _ (by decide), hword _ (by decide)⟩
  exact (State.regionRegs_set _ ST_DESC_CMD.BUSY 1 (by unfold besideRegions; decide)).trans
    (s.regionRegs_writeFields _ (by unfold besideRegions; decide))

/-- R213: an entry in Beam, as a directory command finds it. -/
theorem State.descTaken_inBeam {op x : Nat} (h : s.inBeam (s.dirAddr x) 64) :
    (s.descTaken op x).inBeam ((s.descTaken op x).dirAddr x) 64 := by
  have htiers : (s.descTaken op x).tiers = s.tiers := by rw [(s.descTaken_rewrites op x).1]
  have haddr : (s.descTaken op x).dirAddr x = s.dirAddr x := State.dirAddr_of_rewrites (s.descTaken_rewrites op x) (by decide) x
  rw [haddr]
  exact (samePages_descTaken s op x).inBeam (by rw [htiers]) h

/-- Table 9.3: what the directory command of a code does once its entry is within reach. -/
def State.descOperation (s : State) (op x : Nat) : State :=
  match op with
  | 0 => s.descWrite x
  | 1 => s.descRead x
  | 2 => s.descInvalidate x
  | 3 => s.descUpdate x
  | 4 => s.descSetPending x
  | _ => s.descDone 3

theorem State.runDesc_ready {op x : Nat} (h : s.dirReady = true) : s.runDesc op x = (s.reachDir x).descOperation op x := by
  unfold State.runDesc State.descOperation
  rw [h]
  rfl

/-- Table 9.3: INVALIDATE, UPDATE and SET_PENDING want a VALID entry. -/
theorem State.descOperation_notValid {op x : Nat} (hop : op = 2 ∨ op = 3 ∨ op = 4) (hd : s.rawDir x = some d) (hv : d.valid = false) :
    s.descOperation op x = s.descDone 1 := by
  obtain rfl | rfl | rfl := hop
  · simp [State.descOperation, State.descInvalidate, hd, hv]
  · simp [State.descOperation, State.descUpdate, hd, hv]
  · simp [State.descOperation, State.descSetPending, hd, hv]

/-- R218, R249: with the entry in Beam, a directory command that may run comes down to its operation. -/
theorem State.carryOn_directory {op x : Nat} (hr : s.atRest) (hp : s.powered = true) (hout : s.inBoundary = false)
    (hready : s.dirReady = true) (hb : s.inBeam (s.dirAddr x) 64) :
    ∃ y, onlyUsed s y ∧ ∀ t, y.opened.descOperation op x = t.opened → t.atRest → t.powered = true →
      (s.addWork (.directory op x)).carryOn = t := by
  have hopen : s.opened.inBeam (s.opened.dirAddr x) 64 := (samePages_opened s).inBeam rfl hb
  obtain ⟨y, hy, hreach⟩ := (onlyUsed_reachDir hopen).of_opened
  refine ⟨y, hy, fun t ht hrest hpt => State.carryOn_addWork hr hp (State.workReady_directory hout) ?_ hrest hpt⟩
  have hrun : s.opened.runDesc op x = (s.opened.reachDir x).descOperation op x := State.runDesc_ready hready
  rw [← ht, ← hreach, ← hrun]
  rfl

/-- The state in which the operation of a directory command finds its entry: beside the command word and the last use of pages, it is
the state before. -/
structure FindsEntry (s : State) (x : Nat) (d : Dir) (y : State) : Prop where
  entry : y.rawDir x = some d
  atRest : y.atRest
  powered : y.powered = true
  skein : y.skein = s.skein
  beam : y.tiers.beam = s.tiers.beam
  word : ∀ off, off ≠ ST_DESC_CMD.GO.off → y.word off = s.word off

theorem FindsEntry.of_used {op x : Nat} {y : State} (h : onlyUsed (s.descTaken op x) y) (hr : s.atRest) (hp : s.powered = true)
    (hd : s.rawDir x = some d) : FindsEntry s x d y := by
  obtain ⟨hframe, hword⟩ := id (s.descTaken_rewrites op x)
  have hraw := State.rawDir_of_rewrites (s.descTaken_rewrites op x) (by decide) (by decide) x
  exact {
    entry := (h.rawDir x).trans (hraw.trans hd)
    atRest := h.atRest (State.descTaken_atRest hr)
    powered := h.powered.trans ((s.descTaken_powered op x).trans hp)
    skein := h.skein.trans (by rw [hframe])
    beam := h.beam.trans (by rw [hframe])
    word := fun off ho => (h.word off).trans (hword off (by simpa using ho)) }

theorem FindsEntry.staged {x : Nat} {y : State} (h : FindsEntry s x d y) : y.staged = s.staged := by
  unfold State.staged
  refine congrArg Dir.mk (List.map_congr_left fun i hi => h.word _ ?_)
  have hi := List.mem_range.mp hi
  simp only [ST_DESC_STAGE.WORD, ST_DESC_CMD.GO]
  omega

/-- What a directory command leaves that completes with a code: no work waits. -/
def endsDirectory (s : State) (c : Instr) (t : State) (code : Nat) : Prop :=
  exec c s = .next t ∧ t.get ST_DESC_CMD.STATUS = code ∧ t.get ST_DESC_CMD.BUSY = 0 ∧ t.get ST_DESC_CMD.GO = 0 ∧ t.tiers.work = []

/-- R218: a directory command outside a boundary, of an engine with nothing else waiting, whose entry is in Beam: it completes as its
operation does. -/
theorem exec_directory_ends (hc : (c, op) ∈ directoryCommands a) (hg : s.writeGate ST_DESC_CMD.GO.off = .made)
    (hp : s.powered = true) (hb : s.flag ST_DESC_CMD.BUSY = false) (hr : s.atRest) (hout : s.inBoundary = false)
    (hd : s.rawDir a.toNat = some d) (hbeam : s.inBeam (s.dirAddr a.toNat) 64) :
    ∃ y, FindsEntry s a.toNat d y ∧ ∀ (z : State) (code : Nat), y.opened.descOperation op a.toNat = z.opened.descDone code →
      code < 256 → z.atRest → z.powered = true → endsDirectory s c (s.after (z.descDone code)) code := by
  have hready : s.dirReady = true := by
    by_contra hn
    simp [State.rawDir, hn] at hd
  obtain ⟨y, hused, hends⟩ := State.carryOn_directory (State.descTaken_atRest hr) ((s.descTaken_powered op a.toNat).trans hp)
    ((s.descTaken_inBoundary op a.toNat).trans hout) ((s.descTaken_dirReady op a.toNat).trans hready) (State.descTaken_inBeam hbeam)
  refine ⟨y, .of_used hused hr hp hd, fun z code hz hcode hrest hpow => ?_⟩
  obtain ⟨hdone, hstatus, hbusy, hgo⟩ := z.descDone_shows hcode
  have hrest' := State.atRest_of_rewrites hrest hdone
  obtain ⟨⟨-, -, -, hwork, -⟩, -⟩ := id hrest'
  refine ⟨?_, (State.after_get ..).trans hstatus, (State.after_get ..).trans hbusy, (State.after_get ..).trans hgo,
    (congrArg Tiers.work (State.after_tiers ..)).trans hwork⟩
  rw [exec_directory_free hc hg hb, hends _ (hz.trans (z.opened_descDone code)) hrest' (hdone.powered.trans hpow)]

end

/-! ## The statement O38 -/

/-- Settles O38: with the entry in Beam each command is its operation, which completes by what the entry is. -/
theorem directoryCommandsMeetTheEntry : Obligations.DirectoryCommandsMeetTheEntry := by
  intro s a d hg hp hb hr hout hd hbeam ends
  have hends : ∀ (c : Instr) (op : Nat) (hc : (c, op) ∈ directoryCommands a), _ := fun c op hc =>
    exec_directory_ends hc hg hp hb hr hout hd hbeam
  refine ⟨?_, fun hv => ?_, fun hv c hc => ?_, fun hv hpolicy => ?_⟩
  · obtain ⟨y, hy, hdone⟩ := hends (.dirRead a) 1 (by simp [directoryCommands])
    have hread : y.opened.descRead a.toNat = (y.opened.stageEntry d).descDone 0 := State.descRead_some hy.entry
    rw [State.opened_stageEntry] at hread
    obtain ⟨hrest, hpow⟩ := (onlyRegs_stageEntry y d).goesOn hy.atRest hy.powered
    refine ⟨_, hdone (y.stageEntry d) 0 hread (by decide) hrest hpow, fun i hi => ?_⟩
    obtain ⟨⟨-, hword⟩, -⟩ := (y.stageEntry d).descDone_shows (code := 0) (by decide)
    rw [State.after_word, hword _ (by simp only [ST_DESC_STAGE.WORD, ST_DESC_CMD.GO, List.mem_singleton]; omega)]
    exact y.word_stageWords d.words 8 i hi
  · obtain ⟨y, hy, hdone⟩ := hends (.dirWrite a) 0 (by simp [directoryCommands])
    exact ⟨_, hdone y 1 (State.descWrite_valid hy.entry hv) (by decide) hy.atRest hy.powered, hy.beam⟩
  · have hop : ∃ op, (c, op) ∈ directoryCommands a ∧ (op = 2 ∨ op = 3 ∨ op = 4) := by
      simp only [List.mem_cons, List.not_mem_nil, or_false] at hc
      obtain rfl | rfl | rfl := hc
      · exact ⟨2, by simp [directoryCommands]⟩
      · exact ⟨3, by simp [directoryCommands]⟩
      · exact ⟨4, by simp [directoryCommands]⟩
    obtain ⟨op, hmem, hop⟩ := hop
    obtain ⟨y, hy, hdone⟩ := hends c op hmem
    exact ⟨_, hdone y 1 (State.descOperation_notValid hop hy.entry hv) (by decide) hy.atRest hy.powered, hy.beam, hy.skein⟩
  · obtain ⟨y, hy, hdone⟩ := hends (.dirUpdate a) 3 (by simp [directoryCommands])
    have hrest : (y.stageUpdate a.toNat).atRest := hy.atRest
    have hstaged : y.opened.staged.policy ≠ 3 := by
      show y.staged.policy ≠ 3
      rw [hy.staged]
      exact hpolicy
    refine ⟨_, hdone (y.stageUpdate a.toNat) 0 (State.descUpdate_valid hy.entry hv hstaged) (by decide) hrest hy.powered, ?_⟩
    show y.skein.updates.filter _ ++ [(a.toNat, y.staged.words)] = _
    rw [hy.skein, hy.staged]

end Sys2Proof.Machine

/-! Boundary-deferred registers (family 09_skein_tables): what a write of one leaves in the register and in force; the statement O39. -/

namespace Sys2Proof.Machine

/-! ## Values in force (R432) -/

/-- The value in force is the one held for the boundary, or else the register's. -/
theorem State.inForce_of {s t : State} {off : Nat} (hheld : mapFind t.skein.deferred off = mapFind s.skein.deferred off)
    (hword : t.word off = s.word off) : t.inForce off = s.inForce off := by
  unfold State.inForce
  rw [hheld, hword]

/-- The tables stand, and of the register window every word but that of ST_STATUS. -/
def besideStatus (s t : State) : Prop :=
  t.skein = s.skein ∧ ∀ off, off ≠ ST_STATUS.DIR_READY.off → t.word off = s.word off

theorem besideStatus_trans {s t u : State} (a : besideStatus s t) (b : besideStatus t u) : besideStatus s u := by
  obtain ⟨hskein, hword⟩ := a
  obtain ⟨hskein', hword'⟩ := b
  exact ⟨hskein'.trans hskein, fun off ho => (hword' off ho).trans (hword off ho)⟩

theorem besideStatus_set (s : State) {f : Fld} (hf : f.off = ST_STATUS.DIR_READY.off) (v : Nat) : besideStatus s (s.set f v) :=
  ⟨rfl, fun off ho => State.word_set_ne s f v off (hf ▸ ho)⟩

theorem besideStatus_modPages (g : Page → Page) (l : List Nat) (s : State) :
    besideStatus s (l.foldl (fun s p => s.modPage p g) s) := by
  induction l generalizing s with
  | nil => exact ⟨rfl, fun _ _ => rfl⟩
  | cons p l ih => exact besideStatus_trans (t := s.modPage p g) ⟨rfl, fun _ _ => rfl⟩ (ih _)

/-- R213: the check of the directory's pages shows in ST_STATUS alone. -/
theorem besideStatus_checkDirectory (s : State) : besideStatus s s.checkDirectory := by
  have hunpin := besideStatus_trans
    (besideStatus_modPages (fun q => { q with dirPin := false }) ((s.tiers.pages.filter (fun p => p.2.dirPin)).map (·.1)) s)
    (besideStatus_set _ (f := ST_STATUS.DIR_READY) rfl 0)
  unfold State.checkDirectory
  dsimp only
  split
  · exact hunpin
  · split
    · exact besideStatus_trans hunpin (besideStatus_trans (besideStatus_modPages _ _ _)
        (besideStatus_set _ (f := ST_STATUS.DIR_READY) rfl 1))
    · exact besideStatus_trans hunpin (besideStatus_set _ (f := ST_STATUS.DIR_NOT_WRITABLE) rfl 1)

theorem besideStatus_deferredEffect (s : State) (off : Nat) : besideStatus s (s.deferredEffect off) := by
  unfold State.deferredEffect
  split
  · exact besideStatus_checkDirectory s
  · exact ⟨rfl, fun _ _ => rfl⟩

/-! ## Writes of deferred registers (R213, R432) -/

theorem isDeferred_status : isDeferred LS_STATUS.REVOLUTION_VALID.off = false ∧ isDeferred ST_STATUS.DIR_READY.off = false := by
  decide +kernel

section
variable {s : State} {off : Nat} {v : W64}

theorem isDeferred_apart (h : isDeferred off = true) : off ≠ LS_STATUS.REVOLUTION_VALID.off ∧ off ≠ ST_STATUS.DIR_READY.off := by
  obtain ⟨hrev, hdir⟩ := isDeferred_status
  refine ⟨?_, ?_⟩
  · rintro rfl
    rw [hrev] at h
    cases h
  · rintro rfl
    rw [hdir] at h
    cases h

/-- A write of a deferred register leaves the revolution as it is. -/
theorem State.revValid_writeFields (h : isDeferred off = true) : (s.writeFields off v).revValid = s.revValid :=
  State.flag_of_word (s.word_writeFields_apart v (isDeferred_apart h).1.symm)

/-- The values held for the boundary. -/
def State.withDeferred (s : State) (m : SMap W64) : State := { s with skein := { s.skein with deferred := m } }

theorem State.writeFields_skein (s : State) (off : Nat) (v : W64) : (s.writeFields off v).skein = s.skein := by
  rw [s.writeFields_frame off v]

theorem State.writeDeferred_ignored (h : shapeIgnored off v = true) : s.writeDeferred off v = s := by
  rw [State.writeDeferred, if_pos h]

/-- R432: while a revolution is current the value in force is held. -/
theorem State.writeDeferred_held (hd : isDeferred off = true) (hs : shapeIgnored off v = false) (hr : s.revValid = true) :
    s.writeDeferred off v = (s.writeFields off v).withDeferred (mapIns s.skein.deferred off (s.inForce off)) := by
  rw [State.writeDeferred, if_neg (by simp [hs])]
  dsimp only
  rw [if_pos ((State.revValid_writeFields hd).trans hr), State.withDeferred, State.writeFields_skein]

/-- R432: while none is, the write takes effect at once. -/
theorem State.writeDeferred_atOnce (hd : isDeferred off = true) (hs : shapeIgnored off v = false) (hr : s.revValid = false) :
    s.writeDeferred off v = ((s.writeFields off v).withDeferred (mapDel s.skein.deferred off)).deferredEffect off := by
  rw [State.writeDeferred, if_neg (by simp [hs])]
  dsimp only
  rw [if_neg (by rw [State.revValid_writeFields hd, hr]; exact Bool.false_ne_true), State.withDeferred, State.writeFields_skein]

/-- R432: what a held write leaves. -/
theorem State.heldWrite_shows (s : State) (off : Nat) (v : W64) :
    let t := (s.writeFields off v).withDeferred (mapIns s.skein.deferred off (s.inForce off))
    t.word off = (s.writeFields off v).word off ∧ t.inForce off = s.inForce off ∧
      ∀ o, o ≠ off → t.word o = s.word o ∧ t.inForce o = s.inForce o := by
  refine ⟨rfl, ?_, fun o ho => ?_⟩
  · show (mapFind (mapIns s.skein.deferred off (s.inForce off)) off).getD _ = _
    rw [mapFind_mapIns_self]
    rfl
  · have hword := s.word_writeFields_apart v ho
    exact ⟨hword, State.inForce_of (mapFind_mapIns_ne s.skein.deferred _ ho) hword⟩

/-- R432: what a write leaves that takes effect at once. -/
theorem State.promptWrite_shows (s : State) (v : W64) (hd : isDeferred off = true) :
    let t := ((s.writeFields off v).withDeferred (mapDel s.skein.deferred off)).deferredEffect off
    t.word off = (s.writeFields off v).word off ∧ t.inForce off = t.word off ∧
      ∀ o, o ≠ off → o ≠ ST_STATUS.DIR_READY.off → t.word o = s.word o ∧ t.inForce o = s.inForce o := by
  obtain ⟨hskein, hword⟩ :=
    besideStatus_deferredEffect ((s.writeFields off v).withDeferred (mapDel s.skein.deferred off)) off
  refine ⟨hword off (isDeferred_apart hd).2, ?_, fun o ho hstatus => ?_⟩
  · have hheld : mapFind (mapDel s.skein.deferred off) off = none := mapFind_mapDel_self _ _
    unfold State.inForce
    rw [hskein]
    show (mapFind (mapDel s.skein.deferred off) off).getD _ = _
    rw [hheld]
    rfl
  · have hother := (hword o hstatus).trans (s.word_writeFields_apart v ho)
    refine ⟨hother, State.inForce_of ?_ hother⟩
    rw [hskein]
    exact mapFind_mapDel_ne s.skein.deferred ho

end

section
variable {s : State} {off : BitVec 26} {v : W64}

theorem exec_deferredRegisterWrite (s : State) (off : BitVec 26) (v : W64) :
    exec (.deferredRegisterWrite off v) s = execDeferredRegisterWrite off v s := rfl

theorem exec_deferredRegisterWrite_other (h : isDeferred off.toNat = false) : exec (.deferredRegisterWrite off v) s = .next s := by
  rw [exec_deferredRegisterWrite, execDeferredRegisterWrite, h]
  rfl

theorem exec_deferredRegisterWrite_made {u : State} (h : isDeferred off.toNat = true) (hg : s.writeGate off.toNat = .made)
    (hu : s.writeDeferred off.toNat v = u) :
    exec (.deferredRegisterWrite off v) s = .next (s.after { u with resp := .written }) := by
  rw [exec_deferredRegisterWrite, execDeferredRegisterWrite, if_pos h, State.atPort_made _ hg, hu]

end

/-! ## The statement O39 -/

/-- Settles O39: the write is held, or takes effect at once; other registers keep their words and their values in force. -/
theorem deferredRegistersWaitForTheBoundary : Obligations.DeferredRegistersWaitForTheBoundary := by
  intro s off v
  refine ⟨exec_deferredRegisterWrite_other, fun hd hg => ⟨fun hs => ?_, fun hs hr => ?_, fun hs hr => ?_⟩⟩
  · exact exec_deferredRegisterWrite_made hd hg (State.writeDeferred_ignored hs)
  · exact ⟨_, exec_deferredRegisterWrite_made hd hg (State.writeDeferred_atOnce hd hs hr), s.promptWrite_shows v hd⟩
  · exact ⟨_, exec_deferredRegisterWrite_made hd hg (State.writeDeferred_held hd hs hr), s.heldWrite_shows off.toNat v⟩

end Sys2Proof.Machine

/-! Definitions of embedding tables (family 09_skein_tables): what a write of a word of ST_TABLE does; the statement O40. -/

namespace Sys2Proof.Machine

/-! ## The free list of a definition (R229) -/

/-- An engine write that enters the queue changes the tiers alone. -/
theorem State.queueWrite_frame (s : State) (source addr : Nat) (bytes : List Byte) :
    s.queueWrite source none addr bytes = { s with tiers := (s.queueWrite source none addr bytes).tiers } := by
  by_cases h : bytes = []
  · subst h
    rfl
  · exact (s.queueWrite_shows source addr h).1

/-- R229: the free list of a definition. -/
theorem State.fillFreeList_shows (s : State) (t : Table) : (s.fillFreeList t).regs = s.regs ∧
    (t.kind ≠ 2 → (s.fillFreeList t).ring t.k = ⟨0, t.shadow⟩) := by
  unfold State.fillFreeList
  split
  · next hcomposed => exact ⟨rfl, fun h => absurd (beq_iff_eq.mp hcomposed) h⟩
  · dsimp only
    rw [State.queueWrite_frame]
    exact ⟨rfl, fun _ => mapGet_mapPut_self _ _ _ _⟩

/-! ## Writes of a definition (R228) -/

section
variable {s : State} {k i : Nat} {v : W64}

/-- R228: does the write set VALID? -/
def setsValid (i : Nat) (v : W64) : Prop := i = 0 ∧ bitOf v.toNat 63 = true

theorem setsValid_iff : setsValid i v ↔ (i == 0 && bitOf v.toNat 63) = true := by
  simp [setsValid]

/-- R228: the definition that a write of word i would make. -/
def State.defined (s : State) (k i : Nat) (v : W64) : State := s.writeFields ((ST_TABLE.VALID k).off + 8 * i) v

theorem State.writeTable_stands (hv : s.flag (ST_TABLE.VALID k) = true) (h : ¬ (i = 0 ∧ bitOf v.toNat 63 = false)) :
    s.writeTable k i v = s.tableRefuse 6 := by
  have hkeeps : ¬ (i == 0 && !bitOf v.toNat 63) = true := by simpa using h
  unfold State.writeTable
  rw [if_pos hv, if_neg hkeeps]

theorem State.writeTable_clears (hv : s.flag (ST_TABLE.VALID k) = true) (hi : i = 0) (hb : bitOf v.toNat 63 = false) :
    s.writeTable k i v = s.defined k i v := by
  unfold State.writeTable
  rw [if_pos hv, if_pos (by simp [hi, hb])]
  rfl

theorem State.writeTable_word (hv : s.flag (ST_TABLE.VALID k) = false) (h : ¬ setsValid i v) :
    s.writeTable k i v = s.defined k i v := by
  unfold State.writeTable
  rw [if_neg (by simp [hv]), if_neg (setsValid_iff.not.mp h)]
  rfl

theorem State.writeTable_refused (hv : s.flag (ST_TABLE.VALID k) = false) (h : setsValid i v)
    (hr : s.tableReason ((s.defined k i v).tableWords k) ≠ 0) :
    s.writeTable k i v = s.tableRefuse (s.tableReason ((s.defined k i v).tableWords k)) := by
  unfold State.writeTable
  rw [if_neg (by simp [hv]), if_pos (setsValid_iff.mp h)]
  exact if_pos (bne_iff_ne.mpr hr)

theorem State.writeTable_made (hv : s.flag (ST_TABLE.VALID k) = false) (h : setsValid i v)
    (hr : s.tableReason ((s.defined k i v).tableWords k) = 0) :
    s.writeTable k i v = ((s.defined k i v).set (ST_TABLE.REVISION k) 1).fillFreeList ((s.defined k i v).tableWords k) := by
  unfold State.writeTable
  rw [if_neg (by simp [hv]), if_pos (setsValid_iff.mp h)]
  exact if_neg (fun h => bne_iff_ne.mp h hr)

/-- R228: the reasons of a refused definition are 1 to 7. -/
theorem State.tableReason_le (s : State) (t : Table) : s.tableReason t ≤ 7 := by
  unfold State.tableReason
  dsimp only
  split_ifs <;> decide

/-- R228: a refusal shows in ST_STATUS alone. -/
theorem State.tableRefuse_shows (s : State) {reason : Nat} (h : reason < 16) :
    let t := s.tableRefuse reason
    rewrites s t [ST_STATUS.TABLE_REFUSED.off] ∧ t.get ST_STATUS.TABLE_REFUSED = 1 ∧ t.get ST_STATUS.TABLE_REASON = reason := by
  have hreason : reason % 2 ^ fldWidth ST_STATUS.TABLE_REASON = reason := Nat.mod_eq_of_lt h
  have hone : 1 % 2 ^ fldWidth ST_STATUS.TABLE_REFUSED = 1 := rfl
  refine ⟨((rewrites_refl s _).set _ _ (by decide)).set _ _ (by decide), ?_⟩
  simp (disch := decide) only [State.tableRefuse, State.get_set_self, State.get_set_apart, hreason, hone, and_self]

theorem plainAcc_tableValid : ∀ k < 64, plainAcc (ST_TABLE.VALID k) = some .rw := by decide +kernel

/-- VALID is bit 63 of the first word of a definition. -/
theorem State.defined_valid (s : State) {b : Bool} (hk : k < 64) (hi : i = 0) (hb : bitOf v.toNat 63 = b) :
    (s.defined k i v).flag (ST_TABLE.VALID k) = b := by
  subst hi
  exact State.flag_of_first (State.get_writeFields_rw s v (plainAcc_tableValid k hk)) hb

/-- R228, R229: a definition that is made is valid, of REVISION 1, with its free list full. -/
theorem State.definitionMade_shows (s : State) (hk : k < 64) (h : setsValid i v) :
    let t := ((s.defined k i v).set (ST_TABLE.REVISION k) 1).fillFreeList ((s.defined k i v).tableWords k)
    t.flag (ST_TABLE.VALID k) = true ∧ t.get (ST_TABLE.REVISION k) = 1 ∧
      (((s.defined k i v).tableWords k).kind ≠ 2 → t.ring k = ⟨0, ((s.defined k i v).tableWords k).shadow⟩) := by
  obtain ⟨hi, hb⟩ := h
  obtain ⟨hregs, hring⟩ :=
    ((s.defined k i v).set (ST_TABLE.REVISION k) 1).fillFreeList_shows ((s.defined k i v).tableWords k)
  have hvalid := s.defined_valid hk hi hb
  have hword : ((s.defined k i v).set (ST_TABLE.REVISION k) 1).word (ST_TABLE.VALID k).off =
      (s.defined k i v).word (ST_TABLE.VALID k).off :=
    State.word_set_ne _ _ _ _ (by simp only [ST_TABLE.VALID, ST_TABLE.REVISION]; omega)
  refine ⟨?_, ?_, hring⟩
  · rw [← hvalid]
    exact State.flag_of_word ((State.word_of_regs hregs _).trans hword)
  · rw [State.get_of_regs hregs, State.get_set_self _ _ _ (by simp [ST_TABLE.REVISION]) (by simp [ST_TABLE.REVISION])]
    simp [fldWidth, ST_TABLE.REVISION]

end

section
variable {s : State} {k : Fin 64} {i : Fin 8} {v : W64} {u : State}

/-- A write of a word of a definition, of a booted engine in RUN. -/
theorem exec_tableDefine (hb : s.boot.stage = .up) (hst : s.pm.st = .run) (hu : s.writeTable k.val i.val v = u) :
    exec (.tableDefine k i v) s = .next (s.after { u with resp := .written }) := by
  have hexec : exec (.tableDefine k i v) s = execTableDefine k i v s := rfl
  have hgate : s.writeGate ((ST_TABLE.VALID k.val).off + 8 * i.val) = .made :=
    State.writeGate_up hb (by rw [hst]; decide) (fun h => by rw [hst] at h; cases h)
  rw [hexec, execTableDefine, State.atPort_made _ hgate, hu]

/-- R228: a refused write changes nothing but TABLE_REFUSED and TABLE_REASON. -/
theorem exec_tableDefine_refused {reason : Nat} (hb : s.boot.stage = .up) (hst : s.pm.st = .run) (hr : reason < 16)
    (hu : s.writeTable k.val i.val v = s.tableRefuse reason) : ∃ t, exec (.tableDefine k i v) s = .next t ∧
      rewrites { s with resp := .written } t [ST_STATUS.TABLE_REFUSED.off] ∧ t.get ST_STATUS.TABLE_REFUSED = 1 ∧
      t.get ST_STATUS.TABLE_REASON = reason := by
  obtain ⟨hrefuse, hset, hreason⟩ := s.tableRefuse_shows hr
  have hexec := exec_tableDefine hb hst hu
  rw [State.after_written hrefuse] at hexec
  exact ⟨_, hexec, rewrites_written hrefuse, hset, hreason⟩

end

/-! ## The statement O40 -/

/-- Settles O40: a write of a definition by VALID as it stands, by whether it sets or clears it, and by the reason that R228 gives. -/
theorem tableDefinitionsAreChecked : Obligations.TableDefinitionsAreChecked := by
  intro s k i v hb hst off set u
  refine ⟨fun hv h => ?_, fun hv hi hclear => ⟨?_, ?_⟩, fun hv h => ?_, fun hv h hr => ?_, fun hv h hr => ?_⟩
  · exact exec_tableDefine_refused hb hst (by decide) (State.writeTable_stands hv h)
  · exact exec_tableDefine hb hst (State.writeTable_clears hv hi hclear)
  · exact s.defined_valid k.isLt hi hclear
  · exact exec_tableDefine hb hst (State.writeTable_word hv h)
  · exact exec_tableDefine_refused hb hst (lt_of_le_of_lt (State.tableReason_le _ _) (by decide)) (State.writeTable_refused hv h hr)
  · exact ⟨_, exec_tableDefine hb hst (State.writeTable_made hv h hr), s.definitionMade_shows k.isLt h⟩

end Sys2Proof.Machine

/-! Row replacement (family 09_skein_tables): a slot that lies across two pages, copied while frames are short; the refutation of O41. -/

namespace Sys2Proof.Machine

/-! ## A row copy that evicts a page of its slot (R237, R249, R255) -/

/-- A booted engine with two pages of a writable region on Board port 0, both CLEAN in Beam, and FREE_TARGET above every frame. -/
def twoPages : State :=
  let s := { State.reset with boot := { State.reset.boot with stage := .up } }
  let s := ((s.set (TM_REGION.VALID 0) 1).set (TM_REGION.POLICY 0) 1).set (TM_REGION.BACKING 0) 1
  let s := (s.set (TM_REGION.PAGES 0) 2).set TM_CTRL.FREE_TARGET 262143
  { s with tiers := { s.tiers with pages := [(0, { st := .clean, base := .valid }), (1, { st := .clean, base := .valid })] } }

/-- Table 63 there: four rows of 64 elements in BF16, of READ_MODE 1, with slot 0 alone in the free list. Slot 0 holds the last 64 bytes
of page 0 and the first 64 of page 1. -/
def slotAcrossPages : State :=
  let s := ((twoPages.set (ST_TABLE.WIDTH 63) 64).set (ST_TABLE.LOGICAL_ROWS 63) 4).set (ST_TABLE.PHYS_ROWS 63) 4
  let s := (s.set (ST_TABLE.SHADOW_SLOTS 63) 3).set (ST_TABLE.SLOT_BASE 63) (pageBytes - 64)
  let s := (s.set (ST_TABLE.READ_MODE 63) 1).set (ST_TABLE.VALID 63) 1
  { s with skein := { s.skein with rings := [(63, ⟨0, 1⟩)] } }

/-- Its definition. -/
def acrossTable : Table := slotAcrossPages.tableWords 63

/-- BUSY of ST_REPLACE_CMD after a step. -/
def replaceBusy : Host.Outcome State Fault Refusal → Nat
  | .next t => t.get ST_REPLACE_CMD.BUSY
  | _ => 0

theorem slotAcrossPages_free : slotAcrossPages.writeGate ST_REPLACE_CMD.GO.off = .made ∧ slotAcrossPages.powered = true ∧
    slotAcrossPages.flag ST_REPLACE_CMD.BUSY = false := by decide +kernel

theorem slotAcrossPages_atRest : slotAcrossPages.atRest := by
  unfold State.atRest State.workIdle exchangeIdle
  decide +kernel

theorem slotAcrossPages_table : slotAcrossPages.table? 63 = some acrossTable ∧ acrossTable.kind ≠ 2 ∧ 3 < acrossTable.phys ∧
    acrossTable.passMode = true ∧ slotAcrossPages.skein.flips = [] ∧ (slotAcrossPages.ring 63).count ≠ 0 := by decide +kernel

/-- R249: the entry of the free list, the source and the slot stand in Beam. -/
theorem slotAcrossPages_inBeam :
    slotAcrossPages.inBeam (acrossTable.free + 4 * (slotAcrossPages.ring 63).head) 4 ∧
    0 = leNat (getRun slotAcrossPages.tiers.beam (acrossTable.free + 4 * (slotAcrossPages.ring 63).head) 4) ∧
    slotAcrossPages.inBeam (slotAcrossPages.get ST_REPLACE_SRC.SRC / 64 * 64) acrossTable.slotBytes ∧
    slotAcrossPages.inBeam (acrossTable.slotAddr 0) acrossTable.slotBytes := by
  unfold State.inBeam
  decide +kernel

/-- R255: the first half of the slot lands in page 0 and leaves the free frames short, so that page 1 is evicted; the second half then
finds its tile out of Beam, and the whole replacement waits for it. -/
theorem replaceRow_acrossPages_waits : replaceBusy (exec (.replaceRow 63 3) slotAcrossPages) = 1 := by decide +kernel

/-! ## The refutation of O41 -/

/-- Refutes O41: with the first entry of the free list, the source and the slot in Beam, a replacement may still wait, where its own copy
evicts the second page of the slot. -/
theorem not_rowReplacementsAreChecked : ¬ Obligations.RowReplacementsAreChecked := by
  intro h
  obtain ⟨hgate, hpow, hfree⟩ := slotAcrossPages_free
  obtain ⟨htable, hkind, hrow, hmode, hflips, hcount⟩ := slotAcrossPages_table
  obtain ⟨hentry, hslot, hsource, hinBeam⟩ := slotAcrossPages_inBeam
  obtain ⟨-, htaken⟩ := h slotAcrossPages 63 3 false hgate hpow hfree slotAcrossPages_atRest
  obtain ⟨-, hheld⟩ := htaken acrossTable htable hkind hrow
  obtain ⟨-, -, hcopy⟩ := hheld hmode (by rw [hflips]; rfl) (by rw [hflips]; decide)
  obtain ⟨x, hexec, -, hbusy, -⟩ := hcopy 0 rfl hcount hentry hslot hsource hinBeam
  have hwaits := replaceRow_acrossPages_waits
  have hstep : exec (.replaceRow 63 3) slotAcrossPages = .next x := hexec
  rw [hstep, replaceBusy, hbusy] at hwaits
  cases hwaits

end Sys2Proof.Machine

/-! The pages of the Tier Manager (family 10_memory_tiers): what a change of one page's record leaves, and how reads and engine writes
use and pin the pages of the Loom range. -/

namespace Sys2Proof.Machine

/-! ## One page, one tile (R248, R249) -/

theorem State.page_modPage (s : State) (p : Nat) (f : Page → Page) : (s.modPage p f).page p = f (s.page p) := mapGet_mapPut_self _ _ _ _

theorem State.page_modPage_ne (s : State) {p q : Nat} (f : Page → Page) (h : q ≠ p) : (s.modPage p f).page q = s.page q :=
  mapGet_mapPut_ne _ _ _ h

theorem Page.tile_setTile (q : Page) (i : Nat) (t : TileRec) : (q.setTile i t).tile i = t := mapGet_mapPut_self _ _ _ _

theorem Page.tile_setTile_ne (q : Page) {i j : Nat} (t : TileRec) (h : j ≠ i) : (q.setTile i t).tile j = q.tile j :=
  mapGet_mapPut_ne _ _ _ h

/-- A tile after the same record is written to each tile of a list. -/
theorem Page.tile_setTiles (t : TileRec) (j : Nat) (l : List Nat) (q : Page) :
    (l.foldl (fun q i => q.setTile i t) q).tile j = if j ∈ l then t else q.tile j := by
  induction l generalizing q with
  | nil => simp
  | cons i l ih =>
    rw [List.foldl_cons, ih]
    by_cases hj : j = i
    · simp [hj, Page.tile_setTile]
    · simp [hj, Page.tile_setTile_ne]

/-! ## Pages that are used and pinned (R255, R257) -/

/-- A state that differs from another in the engine writes that wait, and in the pins and the last use of its pages, at most. -/
def onlyPinned (s t : State) : Prop :=
  t = { s with tiers := { s.tiers with pages := t.tiers.pages, writes := t.tiers.writes } } ∧
    ∀ p, ∃ m n, t.page p = { s.page p with pins := m, lastUse := n }

section
variable {s t u : State}

theorem onlyPinned_refl (s : State) : onlyPinned s s := ⟨rfl, fun p => ⟨(s.page p).pins, (s.page p).lastUse, rfl⟩⟩

theorem onlyPinned_trans (a : onlyPinned s t) (b : onlyPinned t u) : onlyPinned s u := by
  refine ⟨by rw [b.1, a.1], fun p => ?_⟩
  obtain ⟨m, n, hm⟩ := a.2 p
  obtain ⟨k, l, hk⟩ := b.2 p
  exact ⟨k, l, by rw [hk, hm]⟩

theorem onlyUsed.pinned (h : onlyUsed s t) : onlyPinned s t := by
  refine ⟨by rw [h.1], fun p => ?_⟩
  obtain ⟨n, hn⟩ := h.2 p
  exact ⟨(s.page p).pins, n, hn⟩

theorem onlyPinned_modPage (s : State) (p : Nat) (f : Page → Nat) : onlyPinned s (s.modPage p fun q => { q with pins := f q }) := by
  refine ⟨rfl, fun q => ?_⟩
  by_cases hq : q = p
  · exact ⟨f (s.page p), (s.page p).lastUse, by rw [hq, State.page_modPage]⟩
  · exact ⟨(s.page q).pins, (s.page q).lastUse, State.page_modPage_ne _ _ hq⟩

/-- R257: the pages of an engine write are pinned, or pinned no more. -/
theorem onlyPinned_pinPages (s : State) (addr n : Nat) (d : Bool) : onlyPinned s (s.pinPages addr n d) := by
  unfold State.pinPages
  generalize sortNub ((tilesOf addr n).map (· / 64)) = l
  induction l generalizing s with
  | nil => exact onlyPinned_refl s
  | cons p l ih => exact onlyPinned_trans (onlyPinned_modPage s p _) (ih _)

theorem onlyPinned_queueWrite (s : State) (source addr : Nat) (loc : Option Nat) (bytes : List Byte) :
    onlyPinned s (s.queueWrite source loc addr bytes) := by
  unfold State.queueWrite
  split
  · exact onlyPinned_refl s
  · exact onlyPinned_trans (onlyPinned_pinPages s addr bytes.length true) ⟨rfl, fun p => ⟨_, _, rfl⟩⟩

theorem onlyPinned.regionOfPage (h : onlyPinned s t) (p : Nat) : t.regionOfPage p = s.regionOfPage p := by
  rw [h.1]
  rfl

theorem onlyPinned.get (h : onlyPinned s t) (f : Fld) : t.get f = s.get f := by
  rw [h.1]
  rfl

theorem onlyPinned.tileReady (h : onlyPinned s t) {x : Nat} (hx : s.tileReady x) : t.tileReady x := by
  have hback : ∀ r, t.backFailed r = s.backFailed r := fun r => by rw [h.1]; rfl
  obtain ⟨m, n, hpage⟩ := h.2 (x / 64)
  have hfailed : t.pageFailed (x / 64) = s.pageFailed (x / 64) := by
    unfold State.pageFailed
    simp only [hpage, hback, h.regionOfPage]
  have htile : t.tileState x = s.tileState x := by
    unfold State.tileState
    rw [hpage]
    rfl
  unfold State.tileReady at *
  rw [h.regionOfPage, hfailed, htile, hpage]
  exact hx

end

/-! ## Reads beside the writes that wait (R249) -/

section
variable {s : State} {a n : Nat}

/-- Engine writes that touch none of the bytes to be read stay on their way. -/
theorem State.settle_apart (h : ∀ w ∈ s.tiers.writes, ¬ (w.addr < a + n ∧ a < w.addr + w.bytes.length)) : s.settle a n = s := by
  have hnone : s.tiers.writes.filter (fun w => decide (w.addr < a + n) && decide (a < w.addr + w.bytes.length) && w.source != 11) = [] :=
    List.filter_eq_nil_iff.mpr fun w hw hmeets => h w hw (by
      simp only [Bool.and_eq_true, decide_eq_true_eq] at hmeets
      exact hmeets.1)
  simp [State.settle, hnone]

/-- R249: tiles that are ready are read at once, and their pages are used. -/
theorem State.loomReadOpen_ready (hw : ∀ w ∈ s.tiers.writes, ¬ (w.addr < a + n ∧ a < w.addr + w.bytes.length))
    (hready : ∀ x ∈ tilesOf a n, s.tileReady x) (source : Nat) :
    onlyUsed s (s.loomReadOpen source a n).1 ∧ (s.loomReadOpen source a n).2 = getRun s.tiers.beam a n := by
  have hused := onlyUsed_touchTiles (tilesOf a n) s
  unfold State.loomReadOpen State.loomRead
  simp only [State.settle_apart hw, State.reachTiles_ready source hready, if_true]
  exact ⟨hused, by rw [hused.1]⟩

end

theorem length_denseFrom (m : SMap Byte) (i n : Nat) : (denseFrom m i n).length = n := by
  induction n generalizing m i with
  | zero => cases m <;> rfl
  | succ n ih =>
    cases m with
    | nil => simp [denseFrom, ih]
    | cons c m =>
      rw [denseFrom]
      split <;> simp [ih]

theorem length_getRun (m : SMap Byte) (lo n : Nat) : (getRun m lo n).length = n := length_denseFrom _ _ _

end Sys2Proof.Machine

/-! The page commands (family 10_memory_tiers; R248, R256 to R259, R266, R267, R276, Table 10.13): how they are taken, what each does at
one page, and the statement O44. -/

namespace Sys2Proof.Machine

/-! ## How a page command is taken (R258) -/

theorem plainAcc_pageCount : plainAcc TM_PAGE_CMD.COUNT = some .rw := by decide +kernel

/-- OP and COUNT of the word that issues a page command. -/
theorem pageWord_fields {op count : Nat} (hop : op < 16) (hcount : count < 2 ^ 32) :
    bitsOf (pageWord op count).toNat TM_PAGE_CMD.OP.hi TM_PAGE_CMD.OP.lo = op ∧
      bitsOf (pageWord op count).toNat TM_PAGE_CMD.COUNT.hi TM_PAGE_CMD.COUNT.lo = count := by
  have hword : pageWord op count = putBits (putBits (putBits 0 TM_PAGE_CMD.GO.hi TM_PAGE_CMD.GO.lo 1) TM_PAGE_CMD.OP.hi
      TM_PAGE_CMD.OP.lo op) TM_PAGE_CMD.COUNT.hi TM_PAGE_CMD.COUNT.lo count := rfl
  rw [hword]
  refine ⟨?_, ?_⟩
  · rw [bitsOf_putBits_apart _ _ _ _ _ _ (by decide) (by decide) (by decide), bitsOf_putBits_self _ _ _ _ (by decide) (by decide)]
    exact Nat.mod_eq_of_lt hop
  · rw [bitsOf_putBits_self _ _ _ _ (by decide) (by decide)]
    exact Nat.mod_eq_of_lt hcount

/-- The state in which a page command is taken: its word is written, and its unit busy. -/
def State.pageTaken (s : State) (op count : Nat) : State :=
  ((s.writeFields TM_PAGE_CMD.GO.off (pageWord op count)).set TM_PAGE_CMD.BUSY 1).set TM_PAGE_CMD.WINNER 0

/-- The page command itself: COUNT pages (0 counts as one) from the page of TM_PAGE_ADDR on, with the page of TM_PAGE_ARG. -/
def State.pageCmd (s : State) (op count : Nat) : PageCmd :=
  ⟨op, s.get TM_PAGE_ADDR.ADDR / pageBytes, max 1 count, bitsOf (s.get TM_PAGE_ARG.ARG) 51 0 / pageBytes * pageBytes, false⟩

section
variable (s : State) (op count : Nat)

theorem State.pageTaken_rewrites : rewrites s (s.pageTaken op count) [TM_PAGE_CMD.GO.off] :=
  ((rewrites_writeFields plainReg_pageCmd).set _ _ (by decide)).set _ _ (by decide)

theorem State.pageTaken_word {off : Nat} (ho : off ≠ TM_PAGE_CMD.GO.off) : (s.pageTaken op count).word off = s.word off :=
  (s.pageTaken_rewrites op count).2 off (by simpa using ho)

theorem State.pageTaken_tiers : (s.pageTaken op count).tiers = s.tiers := by
  rw [(s.pageTaken_rewrites op count).1]

theorem State.pageTaken_samePages : samePages s (s.pageTaken op count) := by
  have hbeside : besideRegions TM_PAGE_CMD.GO.off := .inl (by decide)
  refine ⟨?_, by rw [s.pageTaken_tiers], s.pageTaken_word op count (by decide), s.pageTaken_word op count (by decide)⟩
  unfold State.pageTaken
  rw [State.regionRegs_set _ TM_PAGE_CMD.WINNER _ hbeside, State.regionRegs_set _ TM_PAGE_CMD.BUSY _ hbeside,
    State.regionRegs_writeFields _ _ hbeside]

theorem State.pageTaken_pagePinned (p : Nat) : (s.pageTaken op count).pagePinned p = s.pagePinned p := by
  have hspindles : (s.pageTaken op count).spindles = s.spindles := by rw [(s.pageTaken_rewrites op count).1]
  unfold State.pagePinned
  rw [(s.pageTaken_samePages op count).page, hspindles]

theorem State.pageTaken_busy : (s.pageTaken op count).get TM_PAGE_CMD.BUSY = 1 := by
  unfold State.pageTaken
  rw [State.get_set_apart _ _ _ _ (by decide) (by decide) (by decide), State.get_set_self _ _ _ (by decide) (by decide)]
  rfl

end

section
variable {s : State} {op : Nat} {count : BitVec 32}

theorem State.posted_op (hop : op < 16) : (s.writeFields TM_PAGE_CMD.GO.off (pageWord op count.toNat)).get TM_PAGE_CMD.OP = op :=
  (State.get_writeFields_rw s _ plainAcc_pageOp).trans (pageWord_fields hop count.isLt).1

theorem State.posted_count (hop : op < 16) :
    (s.writeFields TM_PAGE_CMD.GO.off (pageWord op count.toNat)).get TM_PAGE_CMD.COUNT = count.toNat :=
  (State.get_writeFields_rw s _ plainAcc_pageCount).trans (pageWord_fields hop count.isLt).2

theorem State.pageTaken_count (hop : op < 16) : (s.pageTaken op count.toNat).get TM_PAGE_CMD.COUNT = count.toNat := by
  unfold State.pageTaken
  rw [State.get_set_apart _ _ _ _ (by decide) (by decide) (by decide), State.get_set_apart _ _ _ _ (by decide) (by decide) (by decide),
    State.posted_count hop]

/-- R258: a command on pages, by the words of its unit while it is busy. -/
theorem State.takePage_eq {u v : State} {n a x : Nat} (hop : op ≤ 7 ∨ op = 10) (hu : u.get TM_PAGE_CMD.OP = op)
    (hv : (u.set TM_PAGE_CMD.BUSY 1).set TM_PAGE_CMD.WINNER 0 = v) (hn : v.get TM_PAGE_CMD.COUNT = n)
    (ha : v.get TM_PAGE_ADDR.ADDR = a) (hx : v.get TM_PAGE_ARG.ARG = x) :
    u.takePage = State.runPageCmd (max 1 n + 1) v ⟨op, a / pageBytes, max 1 n, bitsOf x 51 0 / pageBytes * pageBytes, false⟩ := by
  have hword : (op == 8 || op == 9) = false := by
    simp only [Bool.or_eq_false_iff, beq_eq_false_iff_ne]
    omega
  have hreturn : ¬ (op == 11) = true := by
    rw [beq_iff_eq]
    omega
  have hknown : ¬ 11 < op := by omega
  subst hn ha hx
  unfold State.takePage
  dsimp only
  rw [hu, if_neg hreturn, if_neg hknown, hword, hv]
  rfl

/-- R258: a command on pages begins at the page of TM_PAGE_ADDR. -/
theorem State.takePage_pages (hop : op ≤ 7 ∨ op = 10) :
    (s.writeFields TM_PAGE_CMD.GO.off (pageWord op count.toNat)).takePage =
      State.runPageCmd (max 1 count.toNat + 1) (s.pageTaken op count.toNat) (s.pageCmd op count.toNat) := by
  have haddr : (s.pageTaken op count.toNat).get TM_PAGE_ADDR.ADDR = s.get TM_PAGE_ADDR.ADDR :=
    State.get_of_word (s.pageTaken_word op _ (by decide))
  have harg : (s.pageTaken op count.toNat).get TM_PAGE_ARG.ARG = s.get TM_PAGE_ARG.ARG :=
    State.get_of_word (s.pageTaken_word op _ (by decide))
  have hop' : op < 16 := by omega
  exact State.takePage_eq hop (State.posted_op hop') rfl (State.pageTaken_count hop') haddr harg

theorem State.atPort_eq {off : Nat} {f : State → State} {u : State} (hg : s.writeGate off = .made) (hu : f s = u) :
    s.atPort off f = { u with resp := .written } := by
  subst hu
  exact State.atPort_made f hg

/-- R258: a page command that finds its unit free is taken. -/
theorem exec_pageCmd {cmd : Instr}
    (hcmd : exec cmd s = .next (s.after (s.atPort TM_PAGE_CMD.GO.off (fun s => s.writePageCmd (pageWord op count.toNat)))))
    (hop : op ≤ 7 ∨ op = 10) (hg : s.writeGate TM_PAGE_CMD.GO.off = .made) (hb : s.flag TM_PAGE_CMD.BUSY = false) :
    exec cmd s = .next (s.after { State.runPageCmd (max 1 count.toNat + 1) (s.pageTaken op count.toNat)
      (s.pageCmd op count.toNat) with resp := .written }) := by
  have hwrite : s.writePageCmd (pageWord op count.toNat) =
      State.runPageCmd (max 1 count.toNat + 1) (s.pageTaken op count.toNat) (s.pageCmd op count.toNat) :=
    (State.issue_pageWord hb).trans (State.takePage_pages hop)
  exact hcmd.trans (congrArg (fun u => Host.Outcome.next (s.after u)) (State.atPort_eq hg hwrite))

end

/-- The commands that go from page to page, with their operation codes (Table 10.13). -/
def pageCmds (count : BitVec 32) : List (Instr × Nat) :=
  [(.flush count, 0), (.evict count none, 1), (.pageInvalidate count none, 2), (.pin count none, 3), (.unpin count, 4),
    (.restore count, 5), (.zero count, 6), (.copy count, 7), (.clearPoison count, 10)]

theorem pageCmds_exec (s : State) (count : BitVec 32) : ∀ c op, (c, op) ∈ pageCmds count → (op ≤ 7 ∨ op = 10) ∧
    exec c s = .next (s.after (s.atPort TM_PAGE_CMD.GO.off (fun s => s.writePageCmd (pageWord op count.toNat)))) := by
  intro c op hmem
  simp only [pageCmds, List.mem_cons, List.not_mem_nil, or_false, Prod.mk.injEq] at hmem
  obtain ⟨rfl, rfl⟩ | ⟨rfl, rfl⟩ | ⟨rfl, rfl⟩ | ⟨rfl, rfl⟩ | ⟨rfl, rfl⟩ | ⟨rfl, rfl⟩ | ⟨rfl, rfl⟩ | ⟨rfl, rfl⟩ | ⟨rfl, rfl⟩ := hmem
  · exact ⟨.inl (by decide), rfl⟩
  · exact ⟨.inl (by decide), rfl⟩
  · exact ⟨.inl (by decide), rfl⟩
  · exact ⟨.inl (by decide), rfl⟩
  · exact ⟨.inl (by decide), rfl⟩
  · exact ⟨.inl (by decide), rfl⟩
  · exact ⟨.inl (by decide), rfl⟩
  · exact ⟨.inl (by decide), rfl⟩
  · exact ⟨.inr rfl, rfl⟩

/-! ## What a command does at one page (Table 10.13) -/

section
variable {s : State} {p : Nat} {r : Region}

/-- R266: FLUSH passes over a page that is neither DIRTY nor WRITING. -/
theorem State.flushPage_clean (hr : s.regionOfPage p = some r) (hst : (s.page p).st = .clean) : s.flushPage p = .go s := by
  simp [State.flushPage, hr, hst]

/-- R259: EVICT of an unpinned CLEAN page. -/
theorem State.evictCmdPage_clean (hr : s.regionOfPage p = some r) (hback : s.backFailed r = false) (hst : (s.page p).st = .clean)
    (hpin : s.pagePinned p = false) : s.evictCmdPage p = .go (s.dropPage p .absent) := by
  simp [State.evictCmdPage, hr, hback, hst, hpin, PageSt.held]

/-- R259: INVALIDATE of an unpinned CLEAN or DIRTY page. -/
theorem State.invalidateCmdPage_drops (hst : (s.page p).st = .clean ∨ (s.page p).st = .dirty) (hpin : s.pagePinned p = false) :
    s.invalidateCmdPage p = .go (s.dropPage p .absent) := by
  obtain hst | hst := hst
  · simp [State.invalidateCmdPage, hst, hpin, PageSt.held]
  · simp [State.invalidateCmdPage, hst, hpin, PageSt.held]

theorem State.page_dropPage (s : State) (p : Nat) (st : PageSt) : ((s.dropPage p st).page p).st = st := by
  unfold State.dropPage
  rw [State.page_modPage]

/-- R257, R259: a pinned page in Beam is neither evicted nor invalidated, nor made zero. -/
theorem State.pageStep_pinned (hr : s.regionOfPage p = some r) (hheld : (s.page p).st.held = true) (hpin : s.pagePinned p = true) :
    s.evictCmdPage p = .stop s 1 ∧ s.invalidateCmdPage p = .stop s 1 ∧ s.zeroCmdPage p = .stop s 1 := by
  have hlost : (s.page p).st ≠ .lost := fun h => by simp [h, PageSt.held] at hheld
  exact ⟨by simp [State.evictCmdPage, hheld, hpin], by simp [State.invalidateCmdPage, hheld, hpin],
    by simp [State.zeroCmdPage, hr, hpin, hlost]⟩

/-- R257: PIN and UNPIN. -/
theorem State.pinCmdPage_mapped (hr : s.regionOfPage p = some r) (on : Bool) :
    s.pinCmdPage p on = .go (s.modPage p fun q => { q with rtPin := on }) := by
  simp [State.pinCmdPage, hr]

/-- R248: RESTORE. -/
theorem State.restorePage_lost (hr : s.regionOfPage p = some r) (hboard : r.backing = 1) (hst : (s.page p).st = .lost) :
    s.restorePage p = .go (s.modPage p fun q => { q with st := .absent }) := by
  simp [State.restorePage, hr, hboard, hst]

/-- R248: ZERO of an unpinned page in Beam. -/
theorem State.zeroCmdPage_held (hr : s.regionOfPage p = some r) (hheld : (s.page p).st.held = true) (hpin : s.pagePinned p = false)
    (hwb : r.wb = true) : s.zeroCmdPage p = .go (s.zeroPage r p) := by
  have habsent : (s.page p).st ≠ .absent := fun h => by simp [h, PageSt.held] at hheld
  simp [State.zeroCmdPage, hr, hheld, hpin, hwb, State.pageFailed, habsent]

theorem State.zeroPage_shows (s : State) (r : Region) (p : Nat) :
    ((s.zeroPage r p).page p).st = (if r.backing = 0 then PageSt.home else PageSt.dirty) ∧
      (s.zeroPage r p).tiers.beam = mapDelRange s.tiers.beam (p * pageBytes) pageBytes := by
  refine ⟨?_, rfl⟩
  unfold State.zeroPage
  rw [State.page_modPage]
  simp only [beq_iff_eq]

/-- R276: CLEAR_POISON. -/
theorem State.clearPoisonPage_shows (hr : s.regionOfPage p = some r) :
    ∃ t, s.clearPoisonPage p = .go t ∧ ∀ i < 64, ((t.page p).tile i).st ≠ .poisoned := by
  unfold State.clearPoisonPage
  rw [hr]
  refine ⟨_, rfl, fun i hi => ?_⟩
  rw [State.page_modPage, Page.tile_setTiles]
  split
  · decide
  · next hclear => simpa [List.mem_filter, hi] using hclear

end

/-! ## COPY (R249, R265, R267) -/

/-- COPY of tile i of page p to its place from dst on. -/
def State.copyTile (p dst : Nat) (s : State) (i : Nat) : State :=
  (s.loomReadOpen 7 ((64 * p + i) * tileBytes) tileBytes).1.queueWrite 7 none (dst + i * tileBytes)
    (s.loomReadOpen 7 ((64 * p + i) * tileBytes) tileBytes).2

/-- The writes of the first n tiles of a COPY. -/
def copyWrites (dst n : Nat) (l : List EngWrite) : Prop :=
  l.length = n ∧ ∀ w ∈ l, ∃ j < n, w.addr = dst + j * tileBytes ∧ w.bytes.length = tileBytes

section
variable {s : State} {p d n : Nat}

/-- A tile that is still to be copied is none of those that the writes before it go to. -/
theorem copyWrites.apart {l : List EngWrite} (h : copyWrites (d * pageBytes) n l) (hn : n < 64) :
    ∀ w ∈ l, ¬ (w.addr < (64 * p + n) * tileBytes + tileBytes ∧ (64 * p + n) * tileBytes < w.addr + w.bytes.length) := by
  intro w hw
  obtain ⟨j, hj, haddr, hlen⟩ := h.2 w hw
  rw [haddr, hlen]
  unfold pageBytes tileBytes
  omega

theorem tilesOf_tile (x : Nat) : tilesOf (x * tileBytes) tileBytes = [x] := by
  have hroom : x * tileBytes % tileBytes + tileBytes ≤ tileBytes := by rw [Nat.mul_mod_left, Nat.zero_add]
  rw [tilesOf_one (by decide) hroom, Nat.mul_div_cancel _ (by decide)]

theorem State.copyTile_ready (hw : copyWrites (d * pageBytes) n s.tiers.writes) (hn : n < 64) (hready : s.tileReady (64 * p + n)) :
    onlyPinned s (s.copyTile p (d * pageBytes) n) ∧
      copyWrites (d * pageBytes) (n + 1) (s.copyTile p (d * pageBytes) n).tiers.writes := by
  obtain ⟨hused, hbytes⟩ := State.loomReadOpen_ready (s := s) (hw.apart (p := p) hn)
    (by rw [tilesOf_tile]; exact List.forall_mem_singleton.mpr hready) 7
  have hlen := length_getRun s.tiers.beam ((64 * p + n) * tileBytes) tileBytes
  have hne : getRun s.tiers.beam ((64 * p + n) * tileBytes) tileBytes ≠ [] := fun h => by rw [h] at hlen; cases hlen
  refine ⟨onlyPinned_trans hused.pinned (onlyPinned_queueWrite _ _ _ _ _), ?_⟩
  unfold State.copyTile
  rw [hbytes, (State.queueWrite_shows _ 7 _ hne).2, hused.writes]
  refine ⟨by rw [List.length_append, hw.1]; rfl, fun w hmem => ?_⟩
  obtain hold | hnew := List.mem_append.mp hmem
  · obtain ⟨j, hj, hat⟩ := hw.2 w hold
    exact ⟨j, by omega, hat⟩
  · rw [List.mem_singleton.mp hnew]
    exact ⟨n, by omega, rfl, hlen⟩

/-- R249: the tiles of a page in Beam are copied one after another: none of them waits. -/
theorem State.copyTiles_ready (hwrites : s.tiers.writes = []) (hready : ∀ i < 64, s.tileReady (64 * p + i)) (hn : n ≤ 64) :
    onlyPinned s ((List.range n).foldl (State.copyTile p (d * pageBytes)) s) ∧
      copyWrites (d * pageBytes) n ((List.range n).foldl (State.copyTile p (d * pageBytes)) s).tiers.writes := by
  induction n with
  | zero => exact ⟨onlyPinned_refl s, by rw [List.range_zero, List.foldl_nil, hwrites]; rfl, by simp [hwrites]⟩
  | succ n ih =>
    obtain ⟨hpinned, hcopies⟩ := ih (by omega)
    rw [List.range_succ, List.foldl_append, List.foldl_cons, List.foldl_nil]
    obtain ⟨hstep, hmore⟩ := State.copyTile_ready hcopies (by omega) (hpinned.tileReady (hready n (by omega)))
    exact ⟨onlyPinned_trans hpinned hstep, hmore⟩

/-- R249: the tiles of a page. -/
theorem mem_tilesOf_page {i : Nat} (hi : i < 64) : 64 * p + i ∈ tilesOf (p * pageBytes) pageBytes := by
  have hfirst : p * pageBytes / tileBytes = 64 * p := by unfold pageBytes tileBytes; omega
  have hlast : (p * pageBytes + pageBytes - 1) / tileBytes = 64 * p + 63 := by unfold pageBytes tileBytes; omega
  unfold tilesOf
  rw [if_neg (by decide), hfirst, hlast]
  exact List.mem_map.mpr ⟨i, List.mem_range.mpr (by omega), by omega⟩

/-- R249: an operation that only uses and pins pages, and queues writes, takes effect. -/
theorem State.attempt_pinned {op : State → State} (htry : s.tiers.trying = false) (h : onlyPinned s.opened (op s.opened)) :
    ∃ t, s.attempt op = (t, true) ∧ t.regs = s.regs ∧ t.tiers.writes = (op s.opened).tiers.writes := by
  have hregs : (op s.opened).regs = s.opened.regs := by rw [h.1]
  refine ⟨(op s.opened).tried, State.attempt_taken htry ?_ ?_, hregs, rfl⟩
  · rw [h.1]
    rfl
  · rw [h.1]
    rfl

/-- R249, R267: the tiles of a page are copied in one attempt. -/
theorem State.copyPage_waits {r q : Region} {t : State} (hr : s.regionOfPage p = some r) (hq : s.regionOfPage d = some q)
    (hwb : q.wb = true) (htaken : s.attempt (fun s => (List.range 64).foldl (State.copyTile p (d * pageBytes)) s) = (t, true)) :
    s.copyPage p (d * pageBytes) = .wait t := by
  have hpage : d * pageBytes / pageBytes = d := Nat.mul_div_cancel d (by decide)
  have hwritable : ¬ ((s.regionOfPage (d * pageBytes / pageBytes)).any fun r => !r.wb) = true := by simp [hpage, hq, hwb]
  have hcopy : s.copyPage p (d * pageBytes) =
      let x := s.attempt (fun s => (List.range 64).foldl (State.copyTile p (d * pageBytes)) s)
      if x.2 then .wait x.1 else .later x.1 := by
    unfold State.copyPage
    rw [if_neg hwritable, hpage, hq, hr]
    rfl
  rw [hcopy, htaken]
  rfl

/-- R267: COPY of a page in Beam into a writable region: 64 engine writes, and it waits for them. -/
theorem State.copyPage_inBeam {r q : Region} (htry : s.tiers.trying = false) (hr : s.regionOfPage p = some r)
    (hq : s.regionOfPage d = some q) (hwb : q.wb = true) (hin : s.inBeam (p * pageBytes) pageBytes) :
    ∃ t, s.copyPage p (d * pageBytes) = .wait t ∧ t.regs = s.regs ∧ t.tiers.writes.length = 64 := by
  obtain ⟨hwrites, htiles⟩ := State.inBeam_iff.mp ((samePages_opened s).inBeam rfl hin)
  obtain ⟨hpinned, hcopies⟩ := State.copyTiles_ready (d := d) hwrites (fun i hi => htiles _ (mem_tilesOf_page hi)) (Nat.le_refl 64)
  obtain ⟨t, htaken, hregs, hkept⟩ := State.attempt_pinned
    (op := fun s => (List.range 64).foldl (State.copyTile p (d * pageBytes)) s) htry hpinned
  exact ⟨t, State.copyPage_waits hr hq hwb htaken, hregs, (congrArg List.length hkept).trans hcopies.1⟩

end

/-! ## Commands on one page (R258) -/

/-- What a page command that has completed with a code leaves of `u`: the pages and Beam as they are there, no command in progress. -/
structure PageCmdEnds (u t : State) (code : Nat) : Prop where
  status : t.get TM_PAGE_CMD.STATUS = code
  busy : t.get TM_PAGE_CMD.BUSY = 0
  tiers : t.tiers = { u.tiers with cmd := none }
  word : ∀ off, off ≠ TM_PAGE_CMD.GO.off → off ≠ TM_PIN_EVENTS.REFUSED.off → t.word off = u.word off

theorem PageCmdEnds.page {u t : State} {code : Nat} (h : PageCmdEnds u t code) (p : Nat) : t.page p = u.page p := by
  unfold State.page
  rw [h.tiers]

/-- A page command completes with a code. -/
theorem State.pageDone_ends (u : State) {code : Nat} (hc : code < 256) : PageCmdEnds u (u.pageDone code) code := by
  have hcounted : rewrites u.noPageCmd (if code == 1 then u.noPageCmd.bump TM_PIN_EVENTS.REFUSED else u.noPageCmd)
      [TM_PAGE_CMD.GO.off, TM_PIN_EVENTS.REFUSED.off] := by
    split
    · exact (rewrites_refl _ _).bump _ _ (by decide)
    · exact rewrites_refl _ _
  have hdone : u.pageDone code = (if code == 1 then u.noPageCmd.bump TM_PIN_EVENTS.REFUSED else u.noPageCmd).complete TM_PAGE_CMD.GO
      TM_PAGE_CMD.BUSY TM_PAGE_CMD.STATUS code := rfl
  generalize (if code == 1 then u.noPageCmd.bump TM_PIN_EVENTS.REFUSED else u.noPageCmd) = w at hcounted hdone
  have hall := ((hcounted.set TM_PAGE_CMD.GO 0 (by decide)).set TM_PAGE_CMD.BUSY 0 (by decide)).set TM_PAGE_CMD.STATUS code (by decide)
  have hcode : code % 2 ^ fldWidth TM_PAGE_CMD.STATUS = code := Nat.mod_eq_of_lt hc
  have hzero : 0 % 2 ^ fldWidth TM_PAGE_CMD.BUSY = 0 := rfl
  rw [hdone]
  refine ⟨?_, ?_, congrArg State.tiers hall.1, fun off hgo hrefused => hall.2 off (by simp [hgo, hrefused])⟩
  · simp (disch := decide) only [State.complete, State.get_set_self, hcode]
  · simp (disch := decide) only [State.complete, State.get_set_self, State.get_set_apart, hzero]

/-- What the statements ask of a page command that completes with a code. -/
def pageEnds (c : Instr) (s t : State) (code : Nat) : Prop :=
  exec c s = .next t ∧ t.get TM_PAGE_CMD.STATUS = code ∧ t.get TM_PAGE_CMD.BUSY = 0 ∧ t.tiers.cmd = none

theorem exec_ends_pageDone {c : Instr} {s u v : State} {code : Nat} (hexec : exec c s = .next (s.after { u with resp := .written }))
    (hu : u = v.pageDone code) (hc : code < 256) : ∃ t, pageEnds c s t code ∧ PageCmdEnds v t code := by
  obtain ⟨hstatus, hbusy, htiers, hword⟩ : PageCmdEnds v u code := hu ▸ v.pageDone_ends hc
  refine ⟨s.after { u with resp := .written }, ⟨hexec, hstatus, hbusy, ?_⟩, hstatus, hbusy, htiers, hword⟩
  rw [State.after_tiers, htiers]

theorem State.runPageCmd_flushes {u v : State} {cmd : PageCmd} (hleft : cmd.left = 1) (hbegun : cmd.begun = false) (hop : cmd.op = 0)
    (h : u.pageStep cmd = .go v) : State.runPageCmd 2 u cmd = (v.bump TM_WRITE_EVENTS.FLUSHES).pageDone 0 := by
  simp [State.runPageCmd, hleft, hbegun, hop, h]

theorem State.runPageCmd_waits {u v : State} {cmd : PageCmd} (hleft : cmd.left = 1) (hbegun : cmd.begun = false)
    (h : u.pageStep cmd = .wait v) :
    State.runPageCmd 2 u cmd = { v with tiers := { v.tiers with cmd := some { cmd with begun := true } } } := by
  simp [State.runPageCmd, hleft, hbegun, h]

/-- The page that TM_PAGE_ADDR names. -/
def State.namedPage (s : State) : Nat := s.get TM_PAGE_ADDR.ADDR / pageBytes

theorem State.pageTaken_region {s : State} {r : Region} (hr : s.regionOfPage s.namedPage = some r) (op n : Nat) :
    (s.pageTaken op n).regionOfPage s.namedPage = some r := ((s.pageTaken_samePages op n).regionOfPage _).trans hr

theorem State.pageTaken_page (s : State) (op n p : Nat) : (s.pageTaken op n).page p = s.page p := (s.pageTaken_samePages op n).page p

section
variable {s : State} {count : BitVec 32} (hg : s.writeGate TM_PAGE_CMD.GO.off = .made) (hb : s.flag TM_PAGE_CMD.BUSY = false)
  (hone : count.toNat ≤ 1)
include hg hb hone

/-- A command on one page that finds its unit free. -/
theorem exec_onePage {u : State} {c : Instr} {op : Nat} (hc : (c, op) ∈ pageCmds count)
    (hu : (s.pageCmd op count.toNat).left = 1 →
      State.runPageCmd 2 (s.pageTaken op count.toNat) (s.pageCmd op count.toNat) = u) :
    exec c s = .next (s.after { u with resp := .written }) := by
  obtain ⟨hop, hcmd⟩ := pageCmds_exec s count c op hc
  have hleft : max 1 count.toNat = 1 := max_eq_left hone
  rw [exec_pageCmd hcmd hop hg hb, hleft, hu hleft]

/-- R258: a command other than FLUSH that goes on from its only page has completed, with OK. -/
theorem exec_onePage_goes {v : State} (c : Instr) (op : Nat) (hc : (c, op) ∈ pageCmds count) (hop : op ≠ 0)
    (hstep : (s.pageTaken op count.toNat).pageStep (s.pageCmd op count.toNat) = .go v) :
    ∃ t, pageEnds c s t 0 ∧ PageCmdEnds v t 0 :=
  exec_ends_pageDone (exec_onePage hg hb hone hc fun hleft => State.runPageCmd_go hleft rfl hop hstep) rfl (by decide)

/-- R258: a command that is stopped at its only page completes with the code. -/
theorem exec_onePage_stops {v : State} {code : Nat} (c : Instr) (op : Nat) (hc : (c, op) ∈ pageCmds count)
    (hstep : (s.pageTaken op count.toNat).pageStep (s.pageCmd op count.toNat) = .stop v code) (hcode : code < 256) :
    ∃ t, pageEnds c s t code ∧ PageCmdEnds v t code :=
  exec_ends_pageDone (exec_onePage hg hb hone hc fun hleft => State.runPageCmd_stop hleft rfl hstep) rfl hcode

/-- R259: INVALIDATE of an unpinned CLEAN or DIRTY page. -/
theorem exec_invalidate_drops (hst : (s.page s.namedPage).st = .clean ∨ (s.page s.namedPage).st = .dirty)
    (hpin : s.pagePinned s.namedPage = false) :
    ∃ t, pageEnds (.pageInvalidate count none) s t 0 ∧ (t.page s.namedPage).st = .absent := by
  have hstep := State.invalidateCmdPage_drops (s := s.pageTaken 2 count.toNat) (by rw [State.pageTaken_page]; exact hst)
    ((s.pageTaken_pagePinned 2 _ _).trans hpin)
  obtain ⟨t, hends, hleft⟩ := exec_onePage_goes hg hb hone (.pageInvalidate count none) 2 (by simp [pageCmds]) (by decide) hstep
  exact ⟨t, hends, by rw [hleft.page]; exact State.page_dropPage _ _ _⟩

variable {r : Region} (hr : s.regionOfPage s.namedPage = some r)
include hr

/-- R266: FLUSH of a CLEAN page. -/
theorem exec_flush_clean (hst : (s.page s.namedPage).st = .clean) :
    ∃ t, pageEnds (.flush count) s t 0 ∧ t.get TM_WRITE_EVENTS.FLUSHES =
      min (s.get TM_WRITE_EVENTS.FLUSHES + 1) (2 ^ fldWidth TM_WRITE_EVENTS.FLUSHES - 1) := by
  have hstep := State.flushPage_clean (State.pageTaken_region hr 0 count.toNat) (by rw [State.pageTaken_page, hst])
  obtain ⟨t, hends, hleft⟩ := exec_ends_pageDone (exec_onePage hg hb hone (c := .flush count) (op := 0) (by simp [pageCmds])
    fun hleft => State.runPageCmd_flushes hleft rfl rfl hstep) rfl (by decide)
  have hcount : (s.pageTaken 0 count.toNat).get TM_WRITE_EVENTS.FLUSHES = s.get TM_WRITE_EVENTS.FLUSHES :=
    State.get_of_word (s.pageTaken_word 0 _ (by decide))
  refine ⟨t, hends, (State.get_of_word (hleft.word _ (by decide) (by decide))).trans ?_⟩
  rw [State.get_bump_self _ _ _ (by decide) (by decide), hcount]

/-- R259: EVICT of an unpinned CLEAN page. -/
theorem exec_evict_clean (hback : s.backFailed r = false) (hst : (s.page s.namedPage).st = .clean)
    (hpin : s.pagePinned s.namedPage = false) :
    ∃ t, pageEnds (.evict count none) s t 0 ∧ (t.page s.namedPage).st = .absent := by
  have hstep := State.evictCmdPage_clean (State.pageTaken_region hr 1 count.toNat)
    (((s.pageTaken_samePages 1 _).backFailed r).trans hback) (by rw [State.pageTaken_page, hst])
    ((s.pageTaken_pagePinned 1 _ _).trans hpin)
  obtain ⟨t, hends, hleft⟩ := exec_onePage_goes hg hb hone (.evict count none) 1 (by simp [pageCmds]) (by decide) hstep
  exact ⟨t, hends, by rw [hleft.page]; exact State.page_dropPage _ _ _⟩

/-- R257, R259: EVICT, INVALIDATE and ZERO of a pinned page in Beam are refused. -/
theorem exec_pinned_refused (hheld : (s.page s.namedPage).st.held = true) (hpin : s.pagePinned s.namedPage = true) :
    ∀ c ∈ [Instr.evict count none, .pageInvalidate count none, .zero count],
      ∃ t, pageEnds c s t 1 ∧ t.tiers.pages = s.tiers.pages := by
  have hstep := fun op => State.pageStep_pinned (State.pageTaken_region hr op count.toNat) (by rw [State.pageTaken_page, hheld])
    ((s.pageTaken_pagePinned op _ _).trans hpin)
  have hrefused : ∀ c op, (c, op) ∈ pageCmds count →
      (s.pageTaken op count.toNat).pageStep (s.pageCmd op count.toNat) = .stop (s.pageTaken op count.toNat) 1 →
      ∃ t, pageEnds c s t 1 ∧ t.tiers.pages = s.tiers.pages := fun c op hc hstop => by
    obtain ⟨t, hends, hleft⟩ := exec_onePage_stops hg hb hone c op hc hstop (by decide)
    exact ⟨t, hends, by rw [hleft.tiers, State.pageTaken_tiers]⟩
  intro c hc
  simp only [List.mem_cons, List.not_mem_nil, or_false] at hc
  obtain rfl | rfl | rfl := hc
  · exact hrefused _ 1 (by simp [pageCmds]) (hstep 1).1
  · exact hrefused _ 2 (by simp [pageCmds]) (hstep 2).2.1
  · exact hrefused _ 6 (by simp [pageCmds]) (hstep 6).2.2

/-- R257: PIN. -/
theorem exec_pin : ∃ t, pageEnds (.pin count none) s t 0 ∧ (t.page s.namedPage).rtPin = true := by
  have hstep := State.pinCmdPage_mapped (State.pageTaken_region hr 3 count.toNat) true
  obtain ⟨t, hends, hleft⟩ := exec_onePage_goes hg hb hone (.pin count none) 3 (by simp [pageCmds]) (by decide) hstep
  exact ⟨t, hends, by rw [hleft.page]; exact congrArg Page.rtPin (State.page_modPage _ _ _)⟩

/-- R257: UNPIN. -/
theorem exec_unpin : ∃ t, pageEnds (.unpin count) s t 0 ∧ (t.page s.namedPage).rtPin = false := by
  have hstep := State.pinCmdPage_mapped (State.pageTaken_region hr 4 count.toNat) false
  obtain ⟨t, hends, hleft⟩ := exec_onePage_goes hg hb hone (.unpin count) 4 (by simp [pageCmds]) (by decide) hstep
  exact ⟨t, hends, by rw [hleft.page]; exact congrArg Page.rtPin (State.page_modPage _ _ _)⟩

/-- R248: RESTORE of a LOST page of a BOARD region. -/
theorem exec_restore_lost (hboard : r.backing = 1) (hst : (s.page s.namedPage).st = .lost) :
    ∃ t, pageEnds (.restore count) s t 0 ∧ (t.page s.namedPage).st = .absent := by
  have hstep := State.restorePage_lost (State.pageTaken_region hr 5 count.toNat) hboard (by rw [State.pageTaken_page, hst])
  obtain ⟨t, hends, hleft⟩ := exec_onePage_goes hg hb hone (.restore count) 5 (by simp [pageCmds]) (by decide) hstep
  exact ⟨t, hends, by rw [hleft.page]; exact congrArg Page.st (State.page_modPage _ _ _)⟩

/-- R248: ZERO of an unpinned page in Beam. -/
theorem exec_zero_held (hheld : (s.page s.namedPage).st.held = true) (hpin : s.pagePinned s.namedPage = false) (hwb : r.wb = true) :
    ∃ t, pageEnds (.zero count) s t 0 ∧ (t.page s.namedPage).st = (if r.backing = 0 then PageSt.home else PageSt.dirty) ∧
      t.tiers.beam = mapDelRange s.tiers.beam (s.namedPage * pageBytes) pageBytes := by
  have hstep := State.zeroCmdPage_held (State.pageTaken_region hr 6 count.toNat) (by rw [State.pageTaken_page, hheld])
    ((s.pageTaken_pagePinned 6 _ _).trans hpin) hwb
  obtain ⟨hst, hbeam⟩ := (s.pageTaken 6 count.toNat).zeroPage_shows r s.namedPage
  rw [State.pageTaken_tiers] at hbeam
  obtain ⟨t, hends, hleft⟩ := exec_onePage_goes hg hb hone (.zero count) 6 (by simp [pageCmds]) (by decide) hstep
  refine ⟨t, hends, ?_, ?_⟩
  · rw [hleft.page]
    exact hst
  · rw [hleft.tiers]
    exact hbeam

/-- R276: CLEAR_POISON. -/
theorem exec_clearPoison : ∃ t, pageEnds (.clearPoison count) s t 0 ∧ ∀ i < 64, ((t.page s.namedPage).tile i).st ≠ .poisoned := by
  obtain ⟨v, hstep, hclear⟩ := State.clearPoisonPage_shows (State.pageTaken_region hr 10 count.toNat)
  obtain ⟨t, hends, hleft⟩ := exec_onePage_goes hg hb hone (.clearPoison count) 10 (by simp [pageCmds]) (by decide) hstep
  exact ⟨t, hends, by rw [hleft.page]; exact hclear⟩

/-- R267: COPY of a page in Beam waits for its engine writes. -/
theorem exec_copy_inBeam {q : Region} (htry : s.tiers.trying = false)
    (hq : s.regionOfPage (bitsOf (s.get TM_PAGE_ARG.ARG) 51 0 / pageBytes) = some q) (hwb : q.wb = true)
    (hin : s.inBeam (s.namedPage * pageBytes) pageBytes) : ∃ t, exec (.copy count) s = .next t ∧ t.get TM_PAGE_CMD.BUSY = 1 ∧
      t.tiers.cmd.isSome = true ∧ t.tiers.writes.length = 64 := by
  have hsame := s.pageTaken_samePages 7 count.toNat
  have htiers := s.pageTaken_tiers 7 count.toNat
  obtain ⟨v, hstep, hregs, hwrites⟩ := State.copyPage_inBeam (by rw [htiers, htry]) (State.pageTaken_region hr 7 count.toNat)
    ((hsame.regionOfPage _).trans hq) hwb (hsame.inBeam (by rw [htiers]) hin)
  have hbusy : v.get TM_PAGE_CMD.BUSY = 1 := (State.get_of_regs hregs _).trans (s.pageTaken_busy 7 _)
  exact ⟨_, exec_onePage hg hb hone (op := 7) (by simp [pageCmds]) fun hleft => State.runPageCmd_waits hleft rfl hstep, hbusy, rfl,
    hwrites⟩

end

/-! ## The statement O44 -/

/-- Settles O44: a command that finds its unit free is taken as it stands; on one page, by what each operation does there. -/
theorem pageCommandsTakeTheirPages : Obligations.PageCommandsTakeTheirPages := by
  intro s count hg hb
  refine ⟨fun c op hmem => ?_, fun hone r hr hback => ⟨exec_flush_clean hg hb hone hr, exec_evict_clean hg hb hone hr hback,
    exec_invalidate_drops hg hb hone, exec_pinned_refused hg hb hone hr, exec_pin hg hb hone hr, exec_unpin hg hb hone hr,
    exec_restore_lost hg hb hone hr, exec_zero_held hg hb hone hr, exec_clearPoison hg hb hone hr,
    fun q htry hq hwb hin => exec_copy_inBeam hg hb hone hr htry hq hwb hin⟩⟩
  obtain ⟨hop, hcmd⟩ := pageCmds_exec s count c op hmem
  exact exec_pageCmd hcmd hop hg hb

end Sys2Proof.Machine

/-! How requests of the tiers end (family 10_memory_tiers; R249 to R251, R265, R266, R275, R276): what ends with a request, and that
nothing of it makes an engine at rest go on. -/

namespace Sys2Proof.Machine

/-! ## What ends with a request (R250, R251, R275, R276) -/

/-- A state later than another in the Tier Manager's stores, the Spindles, the window and the Treadle's part: no fill has come, no
write-back of another page, no engine write, and no work. -/
structure RequestEnds (s t : State) : Prop where
  frame : t = { s with regs := t.regs, tiers := t.tiers, dbg := t.dbg, spindles := t.spindles }
  tiers : t.tiers = { s.tiers with
    pages := t.tiers.pages, beam := t.tiers.beam, board := t.tiers.board, flash := t.tiers.flash, slices := t.tiers.slices,
    fills := t.tiers.fills, wbs := t.tiers.wbs }
  fills : t.tiers.fills ⊆ s.tiers.fills
  wbs : t.tiers.wbs.map WriteBack.page ⊆ s.tiers.wbs.map WriteBack.page

section
variable {s t u : State}

theorem RequestEnds.refl (s : State) : RequestEnds s s := ⟨rfl, rfl, List.Subset.refl _, List.Subset.refl _⟩

theorem RequestEnds.trans (a : RequestEnds s t) (b : RequestEnds t u) : RequestEnds s u where
  frame := by rw [b.frame, a.frame]
  tiers := by rw [b.tiers, a.tiers]
  fills := List.Subset.trans b.fills a.fills
  wbs := List.Subset.trans b.wbs a.wbs

theorem RequestEnds.foldl {α : Type} {f : State → α → State} (hf : ∀ s a, RequestEnds s (f s a)) (l : List α) (s : State) :
    RequestEnds s (l.foldl f s) := by
  induction l generalizing s with
  | nil => exact .refl s
  | cons a l ih => exact (hf s a).trans (ih _)

theorem RequestEnds.ite {c : Prop} [Decidable c] (ht : RequestEnds s t) (hu : RequestEnds s u) : RequestEnds s (if c then t else u) := by
  split
  · exact ht
  · exact hu

theorem RequestEnds.atRest (h : RequestEnds s t) (hs : s.atRest) : t.atRest := by
  obtain ⟨⟨htry, hwanted, hstarved, hwork, hdropped, hcmd, hretiring, hreplacing⟩, hidle⟩ := hs
  have hskein : t.skein = s.skein := by rw [h.frame]
  have hexch : t.exch = s.exch := by rw [h.frame]
  refine ⟨⟨?_, ?_, ?_, ?_, ?_, ?_, by rw [hskein, hretiring], by rw [hskein, hreplacing]⟩, ?_⟩
  · rw [h.tiers, htry]
  · rw [h.tiers, hwanted]
  · rw [h.tiers, hstarved]
  · rw [h.tiers, hwork]
  · rw [h.tiers, hdropped]
  · rw [h.tiers, hcmd]
  · unfold exchangeIdle
    rw [hexch]
    exact hidle

theorem RequestEnds.writes (h : RequestEnds s t) : t.tiers.writes = s.tiers.writes := by rw [h.tiers]

theorem RequestEnds.cmd (h : RequestEnds s t) : t.tiers.cmd = s.tiers.cmd := by rw [h.tiers]

/-! ### The operations that end requests -/

theorem RequestEnds.of_watch (h : onlyWatch s t) : RequestEnds s t := by
  have htiers : t.tiers = s.tiers := by rw [h]
  refine ⟨?_, by rw [htiers], by rw [htiers]; exact List.Subset.refl _, by rw [htiers]; exact List.Subset.refl _⟩
  unfold onlyWatch at h
  rw [h]

theorem RequestEnds.of_regs (h : onlyRegs s t) : RequestEnds s t := .of_watch h.watch

end

section
variable (s : State)

theorem RequestEnds.set (f : Fld) (v : Nat) : RequestEnds s (s.set f v) := .of_regs (onlyRegs_set s f v)
theorem RequestEnds.bump (f : Fld) (n : Nat) : RequestEnds s (s.bump f n) := .of_regs (onlyRegs_bump s f n)
theorem RequestEnds.tierLog (kind unit addr : Nat) : RequestEnds s (s.tierLog kind unit addr) :=
  .of_regs (onlyRegs_tierLog s kind unit addr)
theorem RequestEnds.watchAccess (write : Bool) (source : Nat) (loc : Option Nat) (lo n : Nat) (bytes : List Byte) :
    RequestEnds s (s.watchAccess write source loc lo n bytes) := .of_watch (onlyWatch_watchAccess s write source loc lo n bytes)

theorem RequestEnds.modPage (p : Nat) (f : Page → Page) : RequestEnds s (s.modPage p f) :=
  ⟨rfl, rfl, List.Subset.refl _, List.Subset.refl _⟩

theorem RequestEnds.modSlice (h : Nat) (f : SMap BFrame → SMap BFrame) : RequestEnds s (s.modSlice h f) :=
  ⟨rfl, rfl, List.Subset.refl _, List.Subset.refl _⟩

theorem RequestEnds.dropFill (f : Fill) : RequestEnds s (s.dropFill f) := ⟨rfl, rfl, List.filter_subset_self _, List.Subset.refl _⟩

theorem RequestEnds.endFill (f : Fill) : RequestEnds s (s.endFill f) := (RequestEnds.dropFill s f).trans (.modPage _ _ _)

theorem RequestEnds.voidFill (f : Fill) : RequestEnds s (s.voidFill f) := by
  unfold State.voidFill
  split
  · exact .modSlice s _ _
  · exact .refl s

theorem RequestEnds.landFill (f : Fill) : RequestEnds s (s.landFill f) := by
  unfold State.landFill
  split
  · exact (RequestEnds.modSlice s _ _).trans (.bump _ _ _)
  · exact .refl s

theorem RequestEnds.poisonTile (tile : Nat) : RequestEnds s (s.poisonTile tile) :=
  (RequestEnds.modPage s _ _).trans ((RequestEnds.bump _ _ _).trans (.set _ _ _))

theorem RequestEnds.keyAbsent : RequestEnds s s.keyAbsent := (RequestEnds.bump s _ _).trans (.set _ _ _)

/-- R276: a tile comes from its backing, or is POISONED. -/
theorem RequestEnds.fetchTile (r : Region) (tile source : Nat) (keyed : Bool) : RequestEnds s (s.fetchTile r tile source keyed) := by
  have hbeam : ∀ b : SMap Byte, RequestEnds s { s with tiers := { s.tiers with beam := b } } := fun _ =>
    ⟨rfl, rfl, List.Subset.refl _, List.Subset.refl _⟩
  unfold State.fetchTile
  split
  · exact (((hbeam _).trans (.modPage _ _ _)).trans (.ite (.refl _) (.bump _ _ _))).trans (.watchAccess _ _ _ _ _ _ _)
  · exact (RequestEnds.poisonTile s tile).trans (.tierLog _ _ _ _)
  · exact ((RequestEnds.poisonTile s tile).trans (.keyAbsent _)).trans (.tierLog _ _ _ _)

theorem RequestEnds.hostBytes (u : Nat) (cells : List Host.Cell) : RequestEnds s (s.hostBytes u cells) := by
  have hkept : ∀ a b : SMap Byte, RequestEnds s { s with tiers := { s.tiers with board := a, flash := b } } := fun _ _ =>
    ⟨rfl, rfl, List.Subset.refl _, List.Subset.refl _⟩
  unfold State.hostBytes
  exact .ite (hkept _ _) (.ite (hkept _ _) (.refl s))

theorem RequestEnds.captureReads : RequestEnds s s.captureReads := ⟨rfl, rfl, List.Subset.refl _, List.Subset.refl _⟩

end

/-- R250: a fill that has ended is in flight no more. -/
theorem State.endFill_gone (s : State) (f : Fill) : f ∉ (s.endFill f).tiers.fills := by
  have hfills : (s.endFill f).tiers.fills = (s.dropFill f).tiers.fills := rfl
  rw [hfills, State.dropFill]
  simp

/-! ## What waits after a request (R249) -/

section
variable {s t : State}

/-- R249: after a request of an engine at rest, the row reads take what has come, and nothing else goes on. -/
theorem RequestEnds.afterFill (h : RequestEnds s t) (hs : s.atRest) : t.afterFill = t.captureReads :=
  State.carryOn_atRest ((h.trans (.captureReads t)).atRest hs)

theorem RequestEnds.resumePageCmd (h : RequestEnds s t) (hs : s.atRest) : t.resumePageCmd = t := by
  obtain ⟨⟨-, -, -, -, -, hnone, -⟩, -⟩ := hs
  simp [State.resumePageCmd, h.cmd, hnone]

/-- R238: with no row read waiting there is nothing to take. -/
theorem State.captureReads_none (h : ∀ v ∈ s.spindles, ∀ j ∈ v.jobs, j.reads = []) : s.captureReads = s := by
  have hspindles : s.spindles.mapIdx (fun h v => { v with
      jobs := v.jobs.map (fun j => if j.reads.isEmpty then j else { j with reads := j.reads.map (s.captureRead h) }) }) = s.spindles := by
    refine List.ext_getElem (List.length_mapIdx) fun i hi hi' => ?_
    have hjobs : (s.spindles[i]).jobs.map (fun j => if j.reads.isEmpty then j else { j with reads := j.reads.map (s.captureRead i) }) =
        (s.spindles[i]).jobs := by
      refine (List.map_congr_left (g := id) fun j hj => ?_).trans (List.map_id _)
      simp [h _ (List.getElem_mem hi') j hj]
    rw [List.getElem_mapIdx, hjobs]
  unfold State.captureReads
  rw [hspindles]

end

/-! ## Fills that go out (R251) -/

section
variable {s : State} {f : Fill} {u : Nat}

theorem State.evictPage_fills (s : State) (p : Nat) : (s.evictPage p).tiers.fills = s.tiers.fills := by
  unfold State.evictPage
  split
  · rfl
  · unfold State.startWriteBack
    split <;> rfl
  · rfl

theorem State.keepFree_fills (s : State) : s.keepFree.tiers.fills = s.tiers.fills := by
  unfold State.keepFree
  dsimp only
  split
  · rfl
  · exact foldl_keeps (fun s : State => s.tiers.fills) State.evictPage_fills _ s

/-- The state in which a fill into Beam alone goes out: its tile is FETCHING, its page is pinned, and frames are kept free. -/
def State.readied (s : State) (f : Fill) : State :=
  let p := f.tile / 64
  let t := s.touchPage p
  let t := if t.tileState f.tile == .valid then t else t.modPage p (fun q => q.setTile (f.tile % 64) ⟨.fetching, false⟩)
  (t.modPage p (fun q => { q with pins := q.pins + 1 })).keepFree

theorem State.readied_fills (s : State) (f : Fill) : (s.readied f).tiers.fills = s.tiers.fills := by
  unfold State.readied
  dsimp only
  rw [State.keepFree_fills]
  split <;> rfl

/-- A fill into Beam alone as it goes out on a unit. -/
def State.sent (s : State) (u : Nat) (f : Fill) : Fill :=
  { f with issued := true, unit := u, frame := none, queue := 0, keyed := (s.readied f).keyThere (f.tile / 64), copied := none }

/-- R251: a fill into Beam alone goes out on a unit other than Flash, where the page of its tile is there. -/
theorem State.serveFill_held (hu : u < 8) (hslice : f.slice = none) (hheld : (s.page (f.tile / 64)).st.held = true) :
    ∃ t, s.serveFill u f = .yes t ∧ t.tiers.fills = s.tiers.fills.map (fun g => if g == f then s.sent u f else g) := by
  have hunit : (u == 8) = false := beq_eq_false_iff_ne.mpr (by omega)
  have hready : (State.modPage (if (s.touchPage (f.tile / 64)).tileState f.tile == .valid then s.touchPage (f.tile / 64) else
      (s.touchPage (f.tile / 64)).modPage (f.tile / 64) (fun q => q.setTile (f.tile % 64) ⟨.fetching, false⟩)) (f.tile / 64)
      (fun q => { q with pins := q.pins + 1 })).keepFree = s.readied f := rfl
  unfold State.serveFill State.sent
  simp only [hunit, hslice, hheld, Bool.false_eq_true, if_false, if_true, Bool.not_true, Bool.false_and, hready]
  exact ⟨_, rfl, by rw [State.readied_fills]⟩

/-- A fill that still has its tile to bring stays among those that wait. -/
theorem State.pruneFills_same (hfills : s.tiers.fills = [f]) (hslice : f.slice = none) (herror : s.tileError f.tile = false)
    (hst : ((s.page (f.tile / 64)).tile (f.tile % 64)).st = .invalid) : s.pruneFills = s := by
  have hmapped : (s.regionOfPage (f.tile / 64)).isNone = false := by
    unfold State.tileError at herror
    split at herror
    · cases herror
    · next h => rw [h]; rfl
  have hnoted : ∀ l : List Nat, (∀ x ∈ l, x = f.tile) → s.noteUnmapped l = s := fun l hl => by
    have hnone : l.filter (fun x => (s.regionOfPage (x / 64)).isNone) = [] :=
      List.filter_eq_nil_iff.mpr fun x hx => by rw [hl x hx, hmapped]; exact Bool.false_ne_true
    simp [State.noteUnmapped, hnone]
  have hkeep : ∀ l : List Fill, s.tiers.fills = l → { s with tiers := { s.tiers with fills := l } } = s := fun l hl => by
    rw [← hl]
  unfold State.pruneFills
  rw [hnoted _ (by simp [hfills])]
  refine hkeep _ ?_
  simp [hfills, hslice, herror, hst]

/-- R251: the one demand fill that waits goes out on its unit. -/
theorem State.issueFill_one (hu : u < 8) (hfills : s.tiers.fills = [f]) (hissued : f.issued = false) (hdemand : f.demand = true)
    (hslice : f.slice = none) (hunit : s.unitFailed u = false) (herror : s.tileError f.tile = false)
    (hst : ((s.page (f.tile / 64)).tile (f.tile % 64)).st = .invalid) (hserves : s.fillUnit f = some u)
    (hheld : (s.page (f.tile / 64)).st.held = true) : (s.issueFill u).tiers.fills = [s.sent u f] := by
  have hserve := State.serveFill_held hu hslice hheld
  obtain ⟨t, hserve, hout⟩ := State.serveFill_held hu hslice hheld
  have hsent : s.tiers.fills.map (fun g => if g == f then s.sent u f else g) = [s.sent u f] := by simp [hfills]
  have hmine : s.tiers.fills.filter (fun g => !g.issued && s.fillUnit g == some u) = [f] := by simp [hfills, hissued, hserves]
  have hfirst : s.serveFirst u ([f].filter (·.demand)) = some t := by simp [State.serveFirst, hdemand, hserve]
  have hhead : ∀ (c : Prop) [Decidable c] (a b : Option State),
      (((if c then [some t, a, b] else [some t, b, a]).filterMap id).head?).getD s = t := fun c _ a b => by
    split <;> rfl
  unfold State.issueFill
  rw [State.pruneFills_same hfills hslice herror hst]
  simp only [hunit, hmine, hfirst, Bool.false_eq_true, if_false]
  rw [hhead, hout, hsent]

end

/-! ## Fills that complete (R250) -/

section
variable {s : State} {f : Fill} {u : Nat}

/-- R250: what a completed fill does before it ends, and after. -/
theorem State.completeFill_ends (h : s.tiers.fills.find? (fun f => f.issued && f.unit == u) = some f) (cells : List Host.Cell) :
    ∃ v, RequestEnds s v ∧ RequestEnds (v.endFill f) (s.completeFill u cells) := by
  unfold State.completeFill
  rw [h]
  dsimp only
  refine ⟨_, ?_, RequestEnds.trans (.ite (.refl _) (.ite (.bump _ _ _) (.bump _ _ _))) (.ite (.watchAccess _ _ _ _ _ _ _) (.refl _))⟩
  refine RequestEnds.trans (RequestEnds.hostBytes s u cells) (RequestEnds.trans ?_ (.ite (.landFill _ f) (.voidFill _ f)))
  split
  · exact .ite (.fetchTile _ _ _ _ _) (.refl _)
  · exact .refl _

theorem State.completeFill_none (h : s.tiers.fills.find? (fun f => f.issued && f.unit == u) = none) (cells : List Host.Cell) :
    s.completeFill u cells = s := by
  unfold State.completeFill
  rw [h]

theorem State.errorResponse_none (h : s.tiers.fills.find? (fun f => f.issued && f.unit == u) = none)
    (hw : s.tiers.wbs.find? (fun w => w.issued && w.unit == u) = none) : s.errorResponse u = s := by
  unfold State.errorResponse
  rw [h, hw]

/-- R276: an error response to a fill on a unit other than a stack ends the fill and poisons its tile. -/
theorem State.errorResponse_board (h : s.tiers.fills.find? (fun f => f.issued && f.unit == u) = some f) (hu : 4 ≤ u) :
    s.errorResponse u = (((s.tierLog 1 u (f.tile * tileBytes)).voidFill f).endFill f).poisonTile f.tile := by
  have hstack : decide (u < 4) = false := decide_eq_false (by omega)
  unfold State.errorResponse
  simp only [h, hstack, Bool.false_and, Bool.false_eq_true, if_false]

theorem State.poisonTile_shows (s : State) (tile : Nat) : (((s.poisonTile tile).page (tile / 64)).tile (tile % 64)).st = .poisoned ∧
    (s.poisonTile tile).get TM_IRQ_STATUS.POISONED = 1 := by
  refine ⟨?_, State.get_set_self _ TM_IRQ_STATUS.POISONED 1 (by decide) (by decide)⟩
  have hpage : (s.poisonTile tile).page (tile / 64) = (s.page (tile / 64)).setTile (tile % 64) ⟨.poisoned, false⟩ :=
    s.page_modPage (tile / 64) (fun q => q.setTile (tile % 64) ⟨.poisoned, false⟩)
  rw [hpage, Page.tile_setTile]

end

/-! ## Write-backs that complete (R266) -/

section
variable {s t : State}

/-- R266: Beam and the pages as a page leaves them; no other write-back is touched. -/
theorem RequestEnds.dropPage (s : State) (p : Nat) (st : PageSt) : RequestEnds s (s.dropPage p st) :=
  ⟨rfl, rfl, List.Subset.refl _, List.map_subset _ (List.filter_subset_self _)⟩

theorem RequestEnds.evictionMissed (s : State) (p : Nat) : RequestEnds s (s.evictionMissed p) :=
  RequestEnds.trans (.modPage s p fun q => { q with st := .clean, evicting := false }) (.ite (.refl _) (.bump _ _ _))

theorem RequestEnds.of_board (s : State) (m : SMap Byte) : RequestEnds s { s with tiers := { s.tiers with board := m } } :=
  ⟨rfl, rfl, List.Subset.refl _, List.Subset.refl _⟩

/-- R266: a tile is written to its backing. -/
theorem RequestEnds.writeBacking {r : Region} {tile : Nat} {bytes : List Byte} {keyed : Bool}
    (h : s.writeBacking r tile bytes keyed = some t) : RequestEnds s t := by
  unfold State.writeBacking at h
  dsimp only at h
  split at h
  · cases h
  · split at h
    · cases h
      exact .of_board s _
    · cases h
      exact .of_board s _

/-- R266: the write-back of a page ends; no other one comes. -/
theorem State.finishWriteBack_ends {p : Nat} {r : Region} (hr : s.regionOfPage p = some r) :
    RequestEnds { s with tiers := { s.tiers with wbs := s.tiers.wbs.filter (·.page != p) } } (s.finishWriteBack p) := by
  unfold State.finishWriteBack
  rw [hr]
  dsimp only
  refine RequestEnds.trans (RequestEnds.trans (RequestEnds.trans (RequestEnds.foldl (fun v i => ?_) _ _)
    (.ite (.keyAbsent _) (.refl _))) (.modPage _ p _)) (.ite (.modPage _ p _) (.ite (.ite (.evictionMissed _ p) (.dropPage _ p _))
      (.modPage _ p _)))
  split
  · next x hx => exact (RequestEnds.writeBacking hx).trans (.bump _ _ _)
  · exact .modPage v p _

/-- R266: a write-back that has completed waits no more. -/
theorem State.finishWriteBack_gone {p : Nat} (hr : (s.regionOfPage p).isSome = true) (hs : s.atRest) :
    (s.finishWriteBack p).resumePageCmd = s.finishWriteBack p ∧ ∀ x ∈ (s.finishWriteBack p).tiers.wbs, x.page ≠ p := by
  obtain ⟨r, hr⟩ := Option.isSome_iff_exists.mp hr
  have hends := State.finishWriteBack_ends hr
  refine ⟨hends.resumePageCmd hs, fun x hx hp => ?_⟩
  obtain ⟨y, hy, hpage⟩ := List.mem_map.mp (hends.wbs (List.mem_map_of_mem hx))
  simp only [List.mem_filter, bne_iff_ne] at hy
  exact hy.2 (hpage.trans hp)

end

end Sys2Proof.Machine

/-! Engine writes that land and units that fail (family 10_memory_tiers; R265, R275, R276), and the statement O42. -/

namespace Sys2Proof.Machine

/-! ## Engine writes that land (R265) -/

section
variable {s t : State}

/-- Bytes that touch one tile alone lie in it. -/
theorem tilesOf_single {a n x : Nat} (h : tilesOf a n = [x]) : 0 < n ∧ a % tileBytes + n ≤ tileBytes ∧ a / tileBytes = x := by
  unfold tilesOf at h
  split at h
  · cases h
  · next hn =>
    have hpos : n ≠ 0 := by simpa using hn
    have hlen := congrArg List.length h
    simp only [List.length_map, List.length_range, List.length_singleton] at hlen
    rw [hlen, List.range_one, List.map_singleton, Nat.zero_add, List.singleton_inj] at h
    refine ⟨Nat.pos_of_ne_zero hpos, ?_, h⟩
    unfold tileBytes at *
    omega

/-- R265: bytes for a VALID tile of a writable region land in Beam, where no frame need be freed. -/
theorem State.landInTile_takes {r : Region} {addr : Nat} (h : s.tileReady (addr / tileBytes))
    (hr : s.regionOfPage (addr / tileBytes / 64) = some r) (hwb : r.wb = true) (hfree : s.get TM_CTRL.FREE_TARGET = 0) (source : Nat)
    (loc : Option Nat) (bytes : List Byte) : (s.landInTile source loc addr bytes).2 = true ∧
      RequestEnds s (s.landInTile source loc addr bytes).1 ∧
      (s.landInTile source loc addr bytes).1.tiers.beam = putRun s.tiers.beam addr bytes := by
  obtain ⟨-, hlost, hfailed, hvalid⟩ := h
  have hheld := State.held_of_valid hvalid
  have hfetching : (TileSt.valid == TileSt.fetching) = false := rfl
  have hinvalid : (TileSt.valid == TileSt.invalid) = false := rfl
  unfold State.landInTile
  simp only [hr, hwb, hfailed, hheld, hvalid, hfetching, hinvalid, beq_eq_false_iff_ne.mpr hlost, Bool.not_true, Bool.false_and, if_true,
    Bool.false_eq_true, if_false, Bool.or_false]
  rw [State.keepFree_none (by exact hfree)]
  have hput : RequestEnds s { s with tiers := { s.tiers with beam := putRun s.tiers.beam addr bytes } } :=
    ⟨rfl, rfl, List.Subset.refl _, List.Subset.refl _⟩
  have hstale : ∀ (u : State) (tile : Nat) (l : List Nat), RequestEnds u (u.staleSectors tile l) := fun _ _ _ =>
    ⟨rfl, rfl, List.Subset.refl _, List.Subset.refl _⟩
  refine ⟨trivial, ((hput.trans (.modPage _ _ _)).trans (hstale _ _ _)).trans (.watchAccess _ _ _ _ _ _ _), ?_⟩
  have hwatch := fun (u : State) a b c d e f => congrArg (fun x : State => x.tiers.beam) (onlyWatch_watchAccess u a b c d e f)
  exact hwatch _ _ _ _ _ _ _

/-- R265: a write into one VALID tile of a writable region lands. -/
theorem State.landWrite_takes {r : Region} {w : EngWrite} {tile : Nat} (htile : tilesOf w.addr w.bytes.length = [tile])
    (h : s.tileReady tile) (hr : s.regionOfPage (tile / 64) = some r) (hwb : r.wb = true) (hfree : s.get TM_CTRL.FREE_TARGET = 0) :
    RequestEnds s (s.landWrite w) ∧ (s.landWrite w).tiers.beam = putRun s.tiers.beam w.addr w.bytes := by
  obtain ⟨hpos, hroom, rfl⟩ := tilesOf_single htile
  have hpinned := onlyPinned_pinPages s w.addr w.bytes.length false
  have hpins : RequestEnds s (s.pinPages w.addr w.bytes.length false) := .foldl (fun u p => .modPage u p _) _ s
  have hbeam : (s.pinPages w.addr w.bytes.length false).tiers.beam = s.tiers.beam := by rw [hpinned.1]
  obtain ⟨htaken, hends, hput⟩ := State.landInTile_takes (hpinned.tileReady h) ((hpinned.regionOfPage _).trans hr) hwb
    ((hpinned.get _).trans hfree) w.source w.harness w.bytes
  have hland : s.landWrite w = ((s.pinPages w.addr w.bytes.length false).landInTile w.source w.harness w.addr w.bytes).1 := by
    unfold State.landWrite State.landOrNote State.landBytes
    simp only [splitTiles_one hpos hroom, List.foldl_cons, List.foldl_nil, htaken, Bool.and_self, if_true]
  rw [hland, hput, hbeam]
  exact ⟨hpins.trans hends, rfl⟩

/-- R249: what an operation that was tried leaves, of the state that it was tried in. -/
theorem RequestEnds.tried (h : RequestEnds s.opened t) (hs : s.workIdle) : RequestEnds s t.tried := by
  obtain ⟨htry, hwanted, hstarved, -⟩ := hs
  refine ⟨?_, ?_, h.fills, h.wbs⟩
  · unfold State.tried
    rw [h.frame]
    rfl
  · have htiers : t.tried.tiers = { t.tiers with trying := false } := rfl
    rw [htiers, h.tiers]
    unfold State.opened
    generalize s.tiers = x at *
    cases x
    simp_all

/-- The state in which the only engine write lands: it waits no more. -/
def State.writesTaken (s : State) : State := { s with tiers := { s.tiers with writes := [] } }

theorem State.landOldest_eq {w : EngWrite} (hwrites : s.tiers.writes = [w]) (hsource : w.source ≠ 11) :
    s.landOldest = let r := s.attempt (fun u => u.writesTaken.landWrite w)
      if !r.2 then r.1 else r.1.resumePageCmd := by
  unfold State.landOldest State.writesTaken
  simp only [hwrites, beq_eq_false_iff_ne.mpr hsource, Bool.false_eq_true, if_false]

/-- R265: the only engine write lands, and nothing more goes on. -/
theorem State.landOldest_lands {r : Region} {w : EngWrite} {tile : Nat} (hs : s.atRest) (hwrites : s.tiers.writes = [w])
    (htile : tilesOf w.addr w.bytes.length = [tile]) (hsource : w.source ≠ 11) (h : s.tileReady tile)
    (hr : s.regionOfPage (tile / 64) = some r) (hwb : r.wb = true) (hfree : s.get TM_CTRL.FREE_TARGET = 0) :
    s.landOldest.carryOn.tiers.writes = [] ∧ s.landOldest.carryOn.tiers.beam = putRun s.tiers.beam w.addr w.bytes := by
  have hrest : s.writesTaken.atRest := hs
  obtain ⟨⟨htry, -⟩, -⟩ := id hs
  obtain ⟨hends, hbeam⟩ := State.landWrite_takes (s := s.writesTaken.opened) htile (by exact h) (by exact hr) hwb (by exact hfree)
  have htaken : s.attempt (fun u => u.writesTaken.landWrite w) = _ :=
    State.attempt_taken htry (congrArg Tiers.wanted hends.tiers) (congrArg Tiers.starved hends.tiers)
  have hopened : s.opened.writesTaken.landWrite w = s.writesTaken.opened.landWrite w := rfl
  rw [hopened] at htaken
  have hlanded := hends.tried hrest.1
  have hland : s.landOldest.carryOn = (s.writesTaken.opened.landWrite w).tried := by
    rw [State.landOldest_eq hwrites hsource, htaken]
    exact (congrArg State.carryOn (hlanded.resumePageCmd hrest)).trans (State.carryOn_atRest (hlanded.atRest hrest))
  rw [hland]
  exact ⟨hlanded.writes, hbeam⟩

end

/-! ## Units that fail (R275) -/

section
variable {s : State} {u : Nat}

/-- The fills in flight on a unit. -/
def State.fillsOn (s : State) (u : Nat) : List Fill := s.tiers.fills.filter (fun f => f.issued && f.unit == u)

/-- R275: a fill ends with its unit: its tile is not FETCHING any more. -/
def State.fillFails (s : State) (f : Fill) : State :=
  ((s.voidFill f).endFill f).modPage (f.tile / 64) (fun q =>
    if (q.tile (f.tile % 64)).st == .fetching then q.setTile (f.tile % 64) ⟨.invalid, false⟩ else q)

/-- R275: the write-backs of a unit wait again. -/
def State.writeBacksWait (s : State) (u : Nat) : State :=
  { s with tiers := { s.tiers with wbs := s.tiers.wbs.map (fun w => if w.unit == u then { w with issued := false } else w) } }

/-- R275: the requests to a unit end: its fills go, and its write-backs wait again. -/
def State.requestsEnded (s : State) (u : Nat) : State := ((s.fillsOn u).foldl State.fillFails s).writeBacksWait u

/-- R275: UNIT_FAILED shows the unit. -/
def State.unitShown (s : State) (u : Nat) : State :=
  (if bitOf (s.get TM_STATUS.UNIT_FAILED) u then s
    else s.set TM_STATUS.UNIT_FAILED (s.get TM_STATUS.UNIT_FAILED + 2 ^ u)).set TM_IRQ_STATUS.UNIT_FAILED 1

theorem State.voidFill_regs (s : State) (f : Fill) : (s.voidFill f).regs = s.regs := by
  unfold State.voidFill
  split <;> rfl

theorem State.fillFails_regs (s : State) (f : Fill) : (s.fillFails f).regs = s.regs := by
  unfold State.fillFails State.endFill
  rw [State.modPage_regs, State.modPage_regs, State.dropFill_regs, State.voidFill_regs]

theorem State.requestsEnded_regs (s : State) (u : Nat) : (s.requestsEnded u).regs = s.regs := by
  have hwait : ∀ t : State, (t.writeBacksWait u).regs = t.regs := fun _ => rfl
  unfold State.requestsEnded
  rw [hwait]
  exact foldl_keeps State.regs State.fillFails_regs _ s

theorem RequestEnds.writeBacksWait (s : State) (u : Nat) : RequestEnds s (s.writeBacksWait u) := by
  have hpages : (s.writeBacksWait u).tiers.wbs.map WriteBack.page = s.tiers.wbs.map WriteBack.page := by
    have hwbs : (s.writeBacksWait u).tiers.wbs = s.tiers.wbs.map (fun w => if w.unit == u then { w with issued := false } else w) := rfl
    rw [hwbs, List.map_map]
    refine List.map_congr_left fun w _ => ?_
    dsimp only [Function.comp]
    split <;> rfl
  exact ⟨rfl, rfl, List.Subset.refl _, by rw [hpages]; exact List.Subset.refl _⟩

theorem RequestEnds.requestsEnded (s : State) (u : Nat) : RequestEnds s (s.requestsEnded u) :=
  (RequestEnds.foldl (fun t f => ((RequestEnds.voidFill t f).trans (.endFill _ f)).trans (.modPage _ _ _)) (s.fillsOn u) s).trans
    (.writeBacksWait _ u)

theorem RequestEnds.unitShown (s : State) (u : Nat) : RequestEnds s (s.unitShown u) :=
  RequestEnds.trans (.ite (.refl s) (.set s _ _)) (.set _ _ _)

/-- R275: the failure of a unit is shown, logged and recorded. -/
def State.failureShown (s : State) (u addr : Nat) : State :=
  (((s.requestsEnded u).unitShown u).tierLog 0 u addr).recordFault { cls := 0x0C, source := 7, action := 3, detail := u }

theorem RequestEnds.failureShown (s : State) (u addr : Nat) : RequestEnds s (s.failureShown u addr) :=
  (((RequestEnds.requestsEnded s u).trans (.unitShown _ u)).trans (.tierLog _ 0 u addr)).trans (.of_regs (onlyRegs_recordFault _ _))

/-- R275: a unit fails: what of its failure is shown, and then what of a stack is lost. -/
theorem State.failUnit_eq (s : State) (u : Nat) : ∃ addr, s.failUnit u =
    let t := ((s.failureShown u addr).stackWrites u).foldl State.endWrite (s.failureShown u addr)
    let r := if u < 4 then t.stackLoss u else (t, [])
    (r.1.resumePageCmd, (s.fillsOn u).map (·.tile), r.2) := by
  refine ⟨(((s.fillsOn u).head?).map (fun f => f.tile * tileBytes)).getD
    ((((((s.fillsOn u).foldl State.fillFails s).tiers.wbs.filter (fun w => w.issued && w.unit == u)).head?).map
      (fun w => w.page * pageBytes)).getD 0), ?_⟩
  unfold State.failUnit State.failureShown State.requestsEnded
  generalize hended : (s.fillsOn u).foldl State.fillFails s = v
  unfold State.fillFails State.fillsOn at hended
  dsimp only at hended ⊢
  rw [hended]
  rfl

/-- R275: a Board or Flash unit of an engine at rest fails, while no engine write waits. -/
theorem State.failUnit_board (hs : s.atRest) (hu : 4 ≤ u) (hw : s.tiers.writes = []) :
    ∃ addr, s.failUnit u = (s.failureShown u addr, (s.fillsOn u).map (·.tile), []) := by
  obtain ⟨addr, hfail⟩ := s.failUnit_eq u
  have hends := RequestEnds.failureShown s u addr
  have hnone : (s.failureShown u addr).stackWrites u = [] := by
    unfold State.stackWrites
    rw [hends.writes, hw]
    rfl
  refine ⟨addr, hfail.trans ?_⟩
  rw [hnone, List.foldl_nil]
  dsimp only
  rw [if_neg (by omega), hends.resumePageCmd hs]

theorem bitOf_add_pow {v x : Nat} (h : bitOf v x = false) : bitOf (v + 2 ^ x) x = true := by
  have hquot : (v + 2 ^ x) / 2 ^ x = v / 2 ^ x + 1 := Nat.add_div_right v (by positivity)
  unfold bitOf at *
  rw [hquot]
  simp only [beq_eq_false_iff_ne, beq_iff_eq] at *
  omega

theorem bitOf_mod_pow {v x n : Nat} (h : x < n) : bitOf (v % 2 ^ n) x = bitOf v x := by
  have hbits := Nat.testBit_mod_two_pow v n x
  rw [decide_eq_true h, Bool.true_and, Nat.testBit_eq_decide_div_mod_eq, Nat.testBit_eq_decide_div_mod_eq] at hbits
  simpa [bitOf, beq_eq_decide] using hbits

theorem State.unitShown_shows (s : State) (hu : u < 9) :
    bitOf ((s.unitShown u).get TM_STATUS.UNIT_FAILED) u = true ∧ (s.unitShown u).get TM_IRQ_STATUS.UNIT_FAILED = 1 := by
  have hwidth : fldWidth TM_STATUS.UNIT_FAILED = 9 := rfl
  refine ⟨?_, State.get_set_self _ _ _ (by decide) (by decide)⟩
  unfold State.unitShown
  rw [State.get_set_apart _ _ _ _ (by decide) (by decide) (by decide)]
  split
  · assumption
  · next hclear =>
    rw [State.get_set_self _ _ _ (by decide) (by decide), hwidth, bitOf_mod_pow hu]
    exact bitOf_add_pow (Bool.eq_false_iff.mpr hclear)

theorem State.unitShown_word (s : State) (u : Nat) {off : Nat} (hstatus : off ≠ TM_STATUS.UNIT_FAILED.off)
    (hirq : off ≠ TM_IRQ_STATUS.UNIT_FAILED.off) : (s.unitShown u).word off = s.word off := by
  unfold State.unitShown
  rw [State.word_set_ne _ _ _ _ hirq]
  split
  · rfl
  · exact State.word_set_ne _ _ _ _ hstatus

/-- R275: UNIT_FAILED and its interrupt show the unit, and one record of class TIER_TIMEOUT is written. -/
theorem State.failureShown_shows (s : State) (addr : Nat) (hu : u < 9) :
    bitOf ((s.failureShown u addr).get TM_STATUS.UNIT_FAILED) u = true ∧ (s.failureShown u addr).get TM_IRQ_STATUS.UNIT_FAILED = 1 ∧
      notesFault s (s.failureShown u addr) 0x0C 7 := by
  obtain ⟨hbit, hirq⟩ := State.unitShown_shows (s.requestsEnded u) hu
  have hlog : ∀ {off}, off ≠ TM_FAULT_LOG.VALID.off →
      (((s.requestsEnded u).unitShown u).tierLog 0 u addr).word off = ((s.requestsEnded u).unitShown u).word off := fun {off} ho =>
    (rewrites_tierLog _ 0 u addr).2 off (by simpa using ho)
  have hshown : ∀ g : Fld, 0x2000000 ≤ g.off → g.off ≠ TM_FAULT_LOG.VALID.off →
      (s.failureShown u addr).get g = ((s.requestsEnded u).unitShown u).get g := fun g hg ho => by
    have hapart : g.off ≠ CU_FAULT_PTR.HEAD.off ∧ g.off ≠ CU_FAULT_EVENTS.RECORDS.off ∧ g.off ≠ CU_STATUS.RING_WRAPPED.off := by
      refine ⟨?_, ?_, ?_⟩ <;> intro h <;> rw [h] at hg <;> exact absurd hg (by decide)
    exact (State.get_recordFault_apart _ _ g (.inr (by omega)) hapart.1 hapart.2.1 hapart.2.2).trans (State.get_of_word (hlog ho))
  refine ⟨by rw [hshown _ (by decide) (by decide)]; exact hbit, by rw [hshown _ (by decide) (by decide)]; exact hirq, ?_⟩
  refine notesFault_of_word ?_ (notesFault_recordFault _ _ (show 12 < 256 by decide) (show 7 < 16 by decide) (show 3 < 16 by decide))
  rw [hlog (by decide), State.unitShown_word _ _ (by decide) (by decide)]
  exact State.word_of_regs (s.requestsEnded_regs u) _

/-- R277: with no pick and no gang, only row reads of the Spindles fail with the pages. -/
theorem State.failReaders_idle (hp : s.heddle.picks = []) (hg : ∀ x ∈ s.heddle.harnesses, x.gangs = []) (pages : List Nat) :
    RequestEnds s (s.failReaders pages) ∧ (s.failReaders pages).regs = s.regs := by
  have hgangs : ∀ p : Gang → Bool, s.heddle.harnesses.flatMap (fun x => x.gangs.filter p) = [] := fun p =>
    List.flatMap_eq_nil_iff.mpr fun x hx => by rw [hg x hx, List.filter_nil]
  have hspindles : ∀ l, RequestEnds s { s with spindles := l } := fun _ => ⟨rfl, rfl, List.Subset.refl _, List.Subset.refl _⟩
  unfold State.failReaders
  dsimp only
  split
  · exact ⟨.refl s, rfl⟩
  · simp only [hp, hgangs, List.filter_nil, List.map_nil, List.append_nil, List.foldl_nil, List.eraseDups_nil]
    exact ⟨hspindles _, trivial⟩

/-- R275, R277: what the failure of a Board or Flash unit leaves, with no pick, no gang and no engine write. -/
theorem State.unitFails_shows (hs : s.atRest) (hu : 4 ≤ u) (hu' : u < 9) (hw : s.tiers.writes = []) (hp : s.heddle.picks = [])
    (hg : ∀ x ∈ s.heddle.harnesses, x.gangs = []) :
    bitOf ((s.unitFails u).get TM_STATUS.UNIT_FAILED) u = true ∧ (s.unitFails u).get TM_IRQ_STATUS.UNIT_FAILED = 1 ∧
      notesFault s (s.unitFails u) 0x0C 7 := by
  have hstack : ¬ u < 4 := by omega
  obtain ⟨addr, hfail⟩ := State.failUnit_board hs hu hw
  have hends := RequestEnds.failureShown s u addr
  have hheddle : (s.failureShown u addr).heddle = s.heddle := by rw [hends.frame]
  have hreads := State.failReaders_idle (s := s.failureShown u addr) (by rw [hheddle, hp]) (by rw [hheddle]; exact hg)
  obtain ⟨pages, hfails⟩ : ∃ pages, s.unitFails u = ((s.failureShown u addr).failReaders pages).captureReads := by
    unfold State.unitFails
    rw [hfail]
    simp only [hstack, if_false, List.isEmpty_nil, if_true]
    exact ⟨_, (hends.trans (hreads _).1).afterFill hs⟩
  obtain ⟨-, hregs⟩ := hreads pages
  have hword : ∀ off, (s.unitFails u).word off = (s.failureShown u addr).word off := fun off => by
    rw [hfails]
    exact State.word_of_regs hregs off
  obtain ⟨hbit, hirq, hnotes⟩ := s.failureShown_shows addr hu'
  refine ⟨by rw [State.get_of_word (hword _)]; exact hbit, by rw [State.get_of_word (hword _)]; exact hirq, ?_⟩
  unfold notesFault at *
  simp only [State.get_of_word (hword _), hword]
  exact hnotes

end

/-! ## The statement O42 -/

section
variable {s : State} {u : Fin 9}

theorem exec_tileFillIssue_serving (hs : s.serving = true) : exec (.tileFillIssue u) s = .next (s.after (s.issueFill u.val)) := by
  have hstep : exec (.tileFillIssue u) s = .next (s.after (if s.serving then s.issueFill u.val else s)) := rfl
  rw [hstep, if_pos hs]

theorem exec_tileFillComplete_powered (hp : s.powered = true) (cells : List Host.Cell) :
    exec (.tileFillComplete u cells) s = .next (s.after (s.completeFill u.val cells).afterFill) := by
  have hstep : exec (.tileFillComplete u cells) s =
    .next (s.after (if s.powered then (s.completeFill u.val cells).afterFill else s)) := rfl
  rw [hstep, if_pos hp]

theorem exec_tierErrorResponse_powered (hp : s.powered = true) :
    exec (.tierErrorResponse u) s = .next (s.after (s.errorResponse u.val).afterFill) := by
  have hstep : exec (.tierErrorResponse u) s = .next (s.after (if s.powered then (s.errorResponse u.val).afterFill else s)) := rfl
  rw [hstep, if_pos hp]

theorem exec_engineWriteLand_powered (hp : s.powered = true) : exec .engineWriteLand s = .next (s.after s.landOldest.carryOn) := by
  have hstep : exec .engineWriteLand s = .next (s.after (if s.powered then s.landOldest.carryOn else s)) := rfl
  rw [hstep, if_pos hp]

theorem exec_writeBackComplete_eq (s : State) (u : Fin 9) : exec (.writeBackComplete u) s = .next (s.after
    (match s.tiers.wbs.find? (fun w => w.issued && w.unit == u.val) with
    | none => s
    | some w => (s.finishWriteBack w.page).resumePageCmd)) := rfl

theorem exec_tierTimeout_eq (s : State) (u : Fin 9) : exec (.tierTimeout u) s = .next (s.after
    (if s.powered && (s.tiers.fills.any (fun f => f.issued && f.unit == u.val) ||
      s.tiers.wbs.any (fun w => w.issued && w.unit == u.val) || !(s.stackWrites u.val).isEmpty) && s.unitLimit u.val != 0 then
      s.unitFails u.val else s)) := rfl

theorem exec_tierTimeout_fails (hp : s.powered = true) (hlimit : s.unitLimit u.val ≠ 0)
    (hwaits : (s.tiers.fills.any (fun f => f.issued && f.unit == u.val) ||
      s.tiers.wbs.any (fun w => w.issued && w.unit == u.val)) = true) :
    exec (.tierTimeout u) s = .next (s.after (s.unitFails u.val)) := by
  rw [exec_tierTimeout_eq, hp, hwaits, if_pos (by simpa using hlimit)]

variable (hs : s.atRest)
include hs

theorem exec_tileFillComplete_some {f : Fill} (hp : s.powered = true) (cells : List Host.Cell)
    (hf : s.tiers.fills.find? (fun f => f.issued && f.unit == u.val) = some f) :
    ∃ t, exec (.tileFillComplete u cells) s = .next t ∧ f ∉ t.tiers.fills := by
  obtain ⟨v, hbefore, hafter⟩ := State.completeFill_ends hf cells
  have hends : RequestEnds s (s.completeFill u.val cells) := (hbefore.trans (.endFill v f)).trans hafter
  refine ⟨_, exec_tileFillComplete_powered hp cells, fun hmem => v.endFill_gone f (hafter.fills ?_)⟩
  rw [hends.afterFill hs] at hmem
  exact hmem

theorem exec_tileFillComplete_none (hp : s.powered = true) (cells : List Host.Cell)
    (hf : s.tiers.fills.find? (fun f => f.issued && f.unit == u.val) = none)
    (hreads : ∀ v ∈ s.spindles, ∀ j ∈ v.jobs, j.reads = []) :
    exec (.tileFillComplete u cells) s = .next s := by
  rw [exec_tileFillComplete_powered hp, State.completeFill_none hf, (RequestEnds.refl s).afterFill hs, State.captureReads_none hreads,
    State.after_self]

theorem exec_tierErrorResponse_none (hp : s.powered = true) (hf : s.tiers.fills.find? (fun f => f.issued && f.unit == u.val) = none)
    (hreads : ∀ v ∈ s.spindles, ∀ j ∈ v.jobs, j.reads = [])
    (hw : s.tiers.wbs.find? (fun w => w.issued && w.unit == u.val) = none) : exec (.tierErrorResponse u) s = .next s := by
  rw [exec_tierErrorResponse_powered hp, State.errorResponse_none hf hw, (RequestEnds.refl s).afterFill hs,
    State.captureReads_none hreads, State.after_self]

theorem exec_tierErrorResponse_board {f : Fill} (hp : s.powered = true)
    (hf : s.tiers.fills.find? (fun f => f.issued && f.unit == u.val) = some f) (hu : 4 ≤ u.val) :
    ∃ t, exec (.tierErrorResponse u) s = .next t ∧ f ∉ t.tiers.fills ∧
      ((t.page (f.tile / 64)).tile (f.tile % 64)).st = .poisoned ∧ t.get TM_IRQ_STATUS.POISONED = 1 := by
  have herror := State.errorResponse_board hf hu
  generalize hv : (s.tierLog 1 u.val (f.tile * tileBytes)).voidFill f = v at herror
  have hbefore : RequestEnds s v := hv ▸ (RequestEnds.tierLog s _ _ _).trans (.voidFill _ f)
  have hends : RequestEnds s ((v.endFill f).poisonTile f.tile) := (hbefore.trans (.endFill v f)).trans (.poisonTile _ _)
  obtain ⟨hpoisoned, hirq⟩ := (v.endFill f).poisonTile_shows f.tile
  refine ⟨_, exec_tierErrorResponse_powered hp, ?_⟩
  rw [herror, hends.afterFill hs]
  exact ⟨v.endFill_gone f, hpoisoned, hirq⟩

theorem exec_writeBackComplete_some {w : WriteBack} (hw : s.tiers.wbs.find? (fun w => w.issued && w.unit == u.val) = some w)
    (hr : (s.regionOfPage w.page).isSome = true) :
    ∃ t, exec (.writeBackComplete u) s = .next t ∧ ∀ x ∈ t.tiers.wbs, x.page ≠ w.page := by
  obtain ⟨hresume, hgone⟩ := State.finishWriteBack_gone hr hs
  refine ⟨s.after (s.finishWriteBack w.page), ?_, hgone⟩
  rw [exec_writeBackComplete_eq, hw]
  dsimp only
  rw [hresume]

end

/-- R238: the Spindles are those of the eight Harnesses. -/
theorem State.mem_spindles {s : State} (hlen : s.spindles.length ≤ 8) {P : Job → Prop} (h : ∀ x < 8, ∀ j ∈ (s.spindle x).jobs, P j) :
    ∀ v ∈ s.spindles, ∀ j ∈ v.jobs, P j := by
  intro v hv j hj
  obtain ⟨i, hi, rfl⟩ := List.getElem_of_mem hv
  refine h i (by omega) j ?_
  rw [State.spindle, List.getD_eq_getElem _ _ hi]
  exact hj

/-- Settles O42: each tier row, by what ends with its request; at rest nothing else goes on. -/
theorem tierRequestsIssueAndEnd : Obligations.TierRequestsIssueAndEnd := by
  intro s u cells hserving hs
  have hp := State.powered_of_serving hserving
  refine ⟨fun f hfills hissued hdemand hslice hu hunit herror hst hserves hheld => ?_,
    fun f hf => exec_tileFillComplete_some hs hp cells hf, fun hf hreads hlen => ?_, fun w hw hr => exec_writeBackComplete_some hs hw hr,
    fun hw => ?_, fun w tile hwrites htile hsource hregion hlost hfailed hvalid hfree => ?_, fun hwrites => ?_,
    fun f hf hu => exec_tierErrorResponse_board hs hp hf hu, fun hlimit hwaits =>
      ⟨exec_tierTimeout_fails hp hlimit hwaits, fun hu hwrites hpicks hgangs => ⟨_, exec_tierTimeout_fails hp hlimit hwaits,
        State.unitFails_shows hs hu u.isLt hwrites hpicks hgangs⟩⟩, fun hlimit => ?_, rfl⟩
  · exact ⟨_, s.sent u.val f, exec_tileFillIssue_serving hserving,
      State.issueFill_one hu hfills hissued hdemand hslice hunit herror hst hserves hheld, rfl, rfl, rfl⟩
  · have hnone := State.mem_spindles hlen hreads
    exact ⟨exec_tileFillComplete_none hs hp cells hf hnone, exec_tierErrorResponse_none hs hp hf hnone⟩
  · rw [exec_writeBackComplete_eq, hw]
    rfl
  · obtain ⟨r, hr, hwb⟩ := hregion
    exact ⟨_, exec_engineWriteLand_powered hp, State.landOldest_lands hs hwrites htile hsource
      ⟨by rw [hr]; rfl, hlost, hfailed, hvalid⟩ hr hwb hfree⟩
  · have hland : s.landOldest = s := by
      unfold State.landOldest
      rw [hwrites]
    rw [exec_engineWriteLand_powered hp, hland, State.carryOn_atRest hs, State.after_self]
  · rw [exec_tierTimeout_eq, hlimit]
    simp

end Sys2Proof.Machine

/-! Messages of the Shed Exchange (family 11_shed_exchange): what SX_FAULT_LOG takes, what a lost message notes, and how the messages
that this host sent come to an end: the statement O47. -/

namespace Sys2Proof.Machine

/-! ## SX_FAULT_LOG -/

/-- SX_FAULT_LOG is one word. -/
theorem rewrites_sxLog_word (s : State) (kind host adapter seq : Nat) :
    rewrites s (s.sxLog kind host adapter seq) [SX_FAULT_LOG.VALID.off] := by
  obtain ⟨hframe, hword⟩ := rewrites_sxLog s kind host adapter seq
  exact ⟨hframe, fun off ho => hword off fun hmem => ho (by
    rcases List.mem_cons.mp hmem with h | h
    · exact List.mem_singleton.mpr h
    · exact h)⟩

theorem onlyRegs_sxLog (s : State) (kind host adapter seq : Nat) : onlyRegs s (s.sxLog kind host adapter seq) :=
  (rewrites_sxLog_word s kind host adapter seq).1

theorem State.word_sxLog (s : State) (kind host adapter seq : Nat) {off : Nat} (ho : off ≠ SX_FAULT_LOG.VALID.off) :
    (s.sxLog kind host adapter seq).word off = s.word off :=
  (rewrites_sxLog_word s kind host adapter seq).2 off (by simpa using ho)

/-- A log that holds an event takes no other. -/
theorem State.sxLog_taken {s : State} (h : s.flag SX_FAULT_LOG.VALID = true) (kind host adapter seq : Nat) :
    s.sxLog kind host adapter seq = s := by
  rw [State.sxLog, if_pos h]

/-- A log that holds no event takes the next. -/
theorem State.sxLog_shows {s : State} (h : s.flag SX_FAULT_LOG.VALID = false) {kind : Nat} (hk : kind < 8) (host adapter seq : Nat) :
    let t := s.sxLog kind host adapter seq
    t.flag SX_FAULT_LOG.VALID = true ∧ t.get SX_FAULT_LOG.KIND = kind ∧ t.get SX_FAULT_LOG.SEQ = seq % 2 ^ 32 := by
  have hwidth : fldWidth SX_FAULT_LOG.KIND = 3 ∧ fldWidth SX_FAULT_LOG.SEQ = 32 ∧ fldWidth SX_FAULT_LOG.VALID = 1 := by decide
  obtain ⟨hkind, hseq, hvalid⟩ := hwidth
  rw [State.sxLog, if_neg (by simp [h])]
  refine ⟨?_, ?_, ?_⟩
  · simp (disch := decide) [State.flag, State.get_set_apart, State.get_set_self, hvalid]
  · simp (disch := decide) only [State.get_set_apart, State.get_set_self, hkind]
    omega
  · simp (disch := decide) only [State.get_set_self, hseq]

/-! ## Fault records read in a later state (R341) -/

/-- The fault ring and its pointers lie below 0x4000: a record stands while the words there do. -/
theorem notesFault.of_words {s t u : State} {cls source : Nat} (h : notesFault s t cls source)
    (hw : ∀ off < 0x4000, u.word off = t.word off) : notesFault s u cls source := by
  have hring : (CU_FAULT_RING.RECORD (s.get CU_FAULT_PTR.SEQ_NEXT % 256) 0).off < 0x4000 := by
    show 0x2000 + s.get CU_FAULT_PTR.SEQ_NEXT % 256 * 32 + 0 * 8 < 0x4000
    omega
  have hseq : u.get CU_FAULT_PTR.SEQ_NEXT = t.get CU_FAULT_PTR.SEQ_NEXT := State.get_of_word (hw _ (by decide))
  have hhead : u.get CU_FAULT_PTR.HEAD = t.get CU_FAULT_PTR.HEAD := State.get_of_word (hw _ (by decide))
  unfold notesFault at *
  rw [hseq, hhead, hw _ hring]
  exact h

theorem notesFault.of_regs {s t u : State} {cls source : Nat} (h : notesFault s t cls source) (hu : u.regs = t.regs) :
    notesFault s u cls source :=
  h.of_words fun off _ => State.word_of_regs hu off

theorem notesFault.sxLog {s t : State} {cls source : Nat} (h : notesFault s t cls source) (kind host adapter seq : Nat) :
    notesFault s (t.sxLog kind host adapter seq) cls source :=
  h.of_words fun off ho => t.word_sxLog kind host adapter seq fun e => absurd (e ▸ ho) (by decide)

/-! ## Lost messages (R292) -/

/-- R292: `t` has counted, recorded and logged one lost message more than `s`, under a KIND of SX_FAULT_LOG and with its SEQ. -/
structure LossNoted (s t : State) (kind seq : Nat) : Prop where
  notes : notesFault s t 0x0E 9
  counts : t.get SX_EVENTS.TAG_FAIL = min (s.get SX_EVENTS.TAG_FAIL + 1) (2 ^ fldWidth SX_EVENTS.TAG_FAIL - 1)
  logs : s.flag SX_FAULT_LOG.VALID = false → t.get SX_FAULT_LOG.KIND = kind ∧ t.get SX_FAULT_LOG.SEQ = seq % 2 ^ 32

theorem LossNoted.of_regs {s t u : State} {kind seq : Nat} (h : LossNoted s t kind seq) (hu : u.regs = t.regs) :
    LossNoted s u kind seq where
  notes := h.notes.of_regs hu
  counts := (State.get_of_regs hu _).trans h.counts
  logs := fun hv => by
    rw [State.get_of_regs hu, State.get_of_regs hu]
    exact h.logs hv

/-- R292: the record of a lost message. -/
def lossFault (host seq : Nat) : FaultInfo := { cls := 0xE, source := 9, detail := seq % 2 ^ 32 * 2 ^ 32 + host * 64 }

theorem State.noteLost_eq (s : State) (kind host adapter seq : Nat) : s.noteLost kind host adapter seq =
    ((s.bump SX_EVENTS.TAG_FAIL).recordFault (lossFault host seq)).sxLog kind host adapter seq := rfl

theorem onlyRegs_noteLost (s : State) (kind host adapter seq : Nat) : onlyRegs s (s.noteLost kind host adapter seq) :=
  onlyRegs_trans (onlyRegs_trans (onlyRegs_bump _ _ _) (onlyRegs_recordFault _ _)) (onlyRegs_sxLog _ _ _ _ _)

/-- R292: what noting a lost message leaves in the window. -/
theorem lossNoted_noteLost (s : State) {kind : Nat} (hk : kind < 8) (host adapter seq : Nat) :
    LossNoted s (s.noteLost kind host adapter seq) kind seq := by
  rw [State.noteLost_eq]
  have hcount : (s.bump SX_EVENTS.TAG_FAIL).get SX_EVENTS.TAG_FAIL =
      min (s.get SX_EVENTS.TAG_FAIL + 1) (2 ^ fldWidth SX_EVENTS.TAG_FAIL - 1) := State.get_bump_self s _ 1 (by decide) (by decide)
  obtain ⟨-, hnotes, -⟩ := State.recordFault_from (lossFault host seq) (onlyRegs_bump s SX_EVENTS.TAG_FAIL 1)
    (State.word_bump_ne s _ _ _ (by decide)) (show 0xE < 256 by decide) (show 9 < 16 by decide) (show 0 < 16 by decide)
  have hcounted := State.get_recordFault_apart (s.bump SX_EVENTS.TAG_FAIL) (lossFault host seq) SX_EVENTS.TAG_FAIL
    (.inr (by decide)) (by decide) (by decide) (by decide)
  have hvalid := State.get_recordFault_apart (s.bump SX_EVENTS.TAG_FAIL) (lossFault host seq) SX_FAULT_LOG.VALID
    (.inr (by decide)) (by decide) (by decide) (by decide)
  refine ⟨hnotes.sxLog kind host adapter seq, ?_, fun hv => ?_⟩
  · rw [State.get_of_word (State.word_sxLog _ _ _ _ _ (by decide)), hcounted, hcount]
  · have hclear : ((s.bump SX_EVENTS.TAG_FAIL).recordFault (lossFault host seq)).flag SX_FAULT_LOG.VALID = false := by
      rw [State.flag, hvalid, State.get_of_word (State.word_bump_ne s _ _ _ (by decide))]
      exact hv
    exact (State.sxLog_shows hclear hk host adapter seq).2

/-! ## Rounds without rows (R285, R294) -/

/-- R294: where no row is remote, no row fails; the REQUEST messages, which then carry no row, go. -/
theorem State.failRemote_none {s : State} (h : s.exch.rounds = []) (p : RemoteRow → Bool) (timeout : Bool) :
    s.failRemote p timeout =
      { s with exch := { s.exch with rounds := [], outstanding := s.exch.outstanding.filter (fun m => m.kind != 1) } } := by
  have hrows : s.remoteRows = [] := by simp [State.remoteRows, h]
  have hany : ∀ l : List (Nat × Nat), l.any (fun _ => false) = false := fun l => List.any_eq_false.mpr fun _ _ => Bool.false_ne_true
  simp [State.failRemote, hrows, State.dropRemote, h, hany]

theorem State.failReshard_none {s : State} (h : s.exch.reshard = none) (kind host adapter seq : Nat) :
    s.failReshard kind host adapter seq = s := by
  unfold State.failReshard
  rw [h]

/-! ## Messages that end (R289, R292, R293) -/

section
variable {s : State} {id : Nat} {m : Sent}

theorem State.endSent_idle (h : s.exch.reshard = none) (id : Nat) : s.endSent id =
    { s with exch := { s.exch with outstanding := s.exch.outstanding.filter (fun m => m.id != id) } } := by
  simp only [State.endSent, State.modReshard, h, Option.map_none]

/-- R302: a message that has ended is one that the reshard waits for no more. -/
theorem State.endSent_sends (s : State) (id : Nat) : ∀ r, (s.endSent id).exch.reshard = some r → id ∉ r.sends := by
  intro r hr hmem
  obtain ⟨q, -, rfl⟩ := Option.map_eq_some_iff.mp (show s.exch.reshard.map _ = some r from hr)
  simp at hmem

/-- R302: the end of a reshard, or nothing. -/
theorem State.checkReshard_ends (s : State) :
    s.checkReshard = s ∨ s.checkReshard = { s with exch := { s.exch with reshard := none } } := by
  unfold State.checkReshard
  split
  · exact .inl rfl
  · split
    · exact .inr rfl
    · exact .inl rfl

theorem exec_roundDeadlineExpiry (s : State) : exec .roundDeadlineExpiry s = execRoundDeadlineExpiry s := rfl
theorem exec_messageDelivered (id : Nat) (s : State) : exec (.messageDelivered id) s = execMessageDelivered id s := rfl
theorem exec_messageUndeliverable (id : Nat) (s : State) : exec (.messageUndeliverable id) s = execMessageUndeliverable id s := rfl
theorem exec_peerTimeout (id : Nat) (s : State) : exec (.peerTimeout id) s = execPeerTimeout id s := rfl

theorem exec_roundDeadlineExpiry_over (h : s.exch.roundDone = true) : exec .roundDeadlineExpiry s = .next s := by
  simp [exec_roundDeadlineExpiry, execRoundDeadlineExpiry, h]

theorem exec_roundDeadlineExpiry_due (hs : s.serving = true) (h : s.exch.roundDone = false) :
    exec .roundDeadlineExpiry s = .next (s.after s.launchMain) := by
  simp [exec_roundDeadlineExpiry, execRoundDeadlineExpiry, hs, h]

theorem exec_peerTimeout_unlimited (h : s.get SX_PEER_TIMEOUT.LIMIT_US = 0) : exec (.peerTimeout id) s = .next s := by
  simp [exec_peerTimeout, execPeerTimeout, h]

/-- R292, R293: of a message that is not outstanding no end changes anything. -/
theorem exec_ends_unknown (h : s.exch.outstanding.find? (·.id == id) = none) : exec (.messageDelivered id) s = .next s ∧
    exec (.messageUndeliverable id) s = .next s ∧ exec (.peerTimeout id) s = .next s := by
  refine ⟨?_, ?_, ?_⟩
  · simp [exec_messageDelivered, execMessageDelivered, h]
  · simp [exec_messageUndeliverable, execMessageUndeliverable, h]
  · simp [exec_peerTimeout, execPeerTimeout, h]

variable (hs : s.serving = true) (hm : s.exch.outstanding.find? (·.id == id) = some m)
include hs hm

theorem exec_messageDelivered_request (hk : m.kind = 1) : exec (.messageDelivered id) s = .next s := by
  simp [exec_messageDelivered, execMessageDelivered, hs, hm, hk]

theorem exec_messageDelivered_ends (hk : m.kind ≠ 1) :
    exec (.messageDelivered id) s = .next (s.after (s.endSent id).checkReshard) := by
  simp [exec_messageDelivered, execMessageDelivered, hs, hm, hk]

theorem exec_messageUndeliverable_ends : exec (.messageUndeliverable id) s = .next (s.after
    (((s.noteLost 2 m.dst (m.adapter.getD 0) (leNat ((m.bytes.drop 8).take 8))).lostOut m).endSent id)) := by
  simp [exec_messageUndeliverable, execMessageUndeliverable, hs, hm]

theorem exec_peerTimeout_fails (hl : s.get SX_PEER_TIMEOUT.LIMIT_US ≠ 0) :
    exec (.peerTimeout id) s = .next (s.after (s.failPeer m)) := by
  simp [exec_peerTimeout, execPeerTimeout, hs, hm, hl]

/-- R302: a delivered message is outstanding no more, and the reshard waits for it no more. -/
theorem exec_messageDelivered_left (hk : m.kind ≠ 1) : ∃ t, exec (.messageDelivered id) s = .next t ∧
    t.exch.outstanding = s.exch.outstanding.filter (fun x => x.id != id) ∧ ∀ r, t.exch.reshard = some r → id ∉ r.sends := by
  refine ⟨_, exec_messageDelivered_ends hs hm hk, ?_⟩
  obtain h | h := (s.endSent id).checkReshard_ends
  · rw [h]
    exact ⟨rfl, s.endSent_sends id⟩
  · rw [h]
    exact ⟨rfl, fun r hr => by cases hr⟩

end

/-! ## A message that never arrives (R292) -/

/-- R298: a lost NORM or GRADIENT makes its adapter skip its update. -/
theorem State.lostOut_learning {s : State} {m : Sent} {a : Nat} (hk : m.kind = 3 ∨ m.kind = 4) (ha : m.adapter = some a) :
    s.lostOut m = s.failLearning a := by
  obtain hk | hk := hk <;> simp [State.lostOut, hk, ha]

theorem exec_messageUndeliverable_learning {s : State} {id : Nat} {m : Sent} (hs : s.serving = true)
    (hm : s.exch.outstanding.find? (·.id == id) = some m) {a : Nat} (hk : m.kind = 3 ∨ m.kind = 4) (ha : m.adapter = some a) :
    ∃ t, exec (.messageUndeliverable id) s = .next t ∧
    t.exch.outstanding = s.exch.outstanding.filter (fun x => x.id != id) ∧ LossNoted s t 2 (leNat ((m.bytes.drop 8).take 8)) ∧
    t.skein.learners = modWhere (fun l => l.adapter == a && l.learns && !l.normDone) (fun l => { l with incomplete := true })
      s.skein.learners := by
  have hnoted := lossNoted_noteLost s (show 2 < 8 by decide) m.dst (m.adapter.getD 0) (leNat ((m.bytes.drop 8).take 8))
  have hframe := onlyRegs_noteLost s 2 m.dst (m.adapter.getD 0) (leNat ((m.bytes.drop 8).take 8))
  refine ⟨_, exec_messageUndeliverable_ends hs hm, ?_⟩
  rw [State.lostOut_learning hk ha]
  refine ⟨?_, hnoted.of_regs rfl, ?_⟩ <;> rw [hframe] <;> rfl

/-- R292: a REQUEST none of whose rows waits any more. -/
theorem exec_messageUndeliverable_request {s : State} {id : Nat} {m : Sent} (hs : s.serving = true)
    (hm : s.exch.outstanding.find? (·.id == id) = some m) (hk : m.kind = 1) (hr : s.exch.rounds = []) :
    ∃ t, exec (.messageUndeliverable id) s = .next t ∧ LossNoted s t 2 (leNat ((m.bytes.drop 8).take 8)) ∧
      t.exch.outstanding.all (fun x => x.id != id) = true := by
  have hnoted := lossNoted_noteLost s (show 2 < 8 by decide) m.dst (m.adapter.getD 0) (leNat ((m.bytes.drop 8).take 8))
  have hframe := onlyRegs_noteLost s 2 m.dst (m.adapter.getD 0) (leNat ((m.bytes.drop 8).take 8))
  have hlost : ∀ u : State, u.exch.rounds = [] → (u.lostOut m).regs = u.regs := fun u hu => by
    simp only [State.lostOut, hk, State.failRemote_none hu]
  refine ⟨_, exec_messageUndeliverable_ends hs hm, hnoted.of_regs (hlost _ (by rw [hframe]; exact hr)), ?_⟩
  exact List.all_eq_true.mpr fun x hx => (List.mem_filter.mp hx).2

/-! ## A peer that does not answer (R293) -/

/-- R293: the ALIVE bits of a Mill without a host of it. -/
def withoutPeer (alive host : Nat) : Nat := if bitOf alive (host % 8) then alive - 2 ^ (host % 8) else alive

theorem bitOf_withoutPeer (alive host i : Nat) : bitOf (withoutPeer alive host) i = (bitOf alive i && i != host % 8) := by
  unfold withoutPeer
  by_cases hbit : bitOf alive (host % 8) = true
  · obtain ⟨hcleared, hothers⟩ := bitOf_sub_pow hbit
    rw [if_pos hbit]
    by_cases hi : i = host % 8
    · simp [hi, hcleared]
    · simp [hothers i hi, hi]
  · rw [if_neg hbit]
    by_cases hi : i = host % 8
    · simpa [hi] using hbit
    · simp [hi]

/-- R293: what a peer that fails leaves in the window: its ALIVE bit, a record and the log. -/
def State.peerNoted (s : State) (m : Sent) : State :=
  ((s.set (ST_OWNER_MAP.ALIVE (m.dst / 8)) (withoutPeer (s.get (ST_OWNER_MAP.ALIVE (m.dst / 8))) m.dst)).recordFault
    { cls := 0xF, source := 9, action := 9, detail := m.dst * 64 }).sxLog 0 m.dst (m.adapter.getD 0)
      (leNat ((m.bytes.drop 8).take 8))

section
variable (s : State) (m : Sent)

theorem onlyRegs_peerNoted : onlyRegs s (s.peerNoted m) :=
  onlyRegs_trans (onlyRegs_trans (onlyRegs_set _ _ _) (onlyRegs_recordFault _ _)) (onlyRegs_sxLog _ _ _ _ _)

theorem State.peerNoted_shows (hd : m.dst < 4096) :
    notesFault s (s.peerNoted m) 0x0F 9 ∧
    (∀ i < 8, bitOf ((s.peerNoted m).get (ST_OWNER_MAP.ALIVE (m.dst / 8))) i =
      (bitOf (s.get (ST_OWNER_MAP.ALIVE (m.dst / 8))) i && i != m.dst % 8)) ∧
    (s.flag SX_FAULT_LOG.VALID = false → (s.peerNoted m).get SX_FAULT_LOG.KIND = 0) := by
  generalize hf : ST_OWNER_MAP.ALIVE (m.dst / 8) = f
  have hoff : f.off = 0x1e80000 + m.dst / 8 * 0x8 := by rw [← hf]; rfl
  have hbits : f.lo = 48 ∧ f.hi = 55 := by rw [← hf]; exact ⟨rfl, rfl⟩
  have hwidth : fldWidth f = 8 := by rw [fldWidth, hbits.1, hbits.2]
  have hlow : ∀ off, off < 0x4000 ∨ 0x2400000 ≤ off → off ≠ f.off := fun off ho => by rw [hoff]; omega
  generalize hv : withoutPeer (s.get f) m.dst = v
  have hlt : v < 2 ^ fldWidth f := by
    have hfits := s.get_lt f
    rw [hwidth] at hfits ⊢
    rw [← hv, withoutPeer]
    split
    · exact lt_of_le_of_lt (Nat.sub_le _ _) hfits
    · exact hfits
  have hset : (s.set f v).get f = v := by
    rw [State.get_set_self s f v (by rw [hbits.1, hbits.2]; decide) (by rw [hbits.2]; decide), Nat.mod_eq_of_lt hlt]
  obtain ⟨-, hnotes, -⟩ := State.recordFault_from { cls := 0xF, source := 9, action := 9, detail := m.dst * 64 } (onlyRegs_set s f v)
    (State.word_set_ne s f v _ (hlow _ (.inl (by decide)))) (show 0xF < 256 by decide) (show 9 < 16 by decide) (show 9 < 16 by decide)
  have hstand : ∀ g : Fld, 0x4000 ≤ g.off → ((s.set f v).recordFault
      { cls := 0xF, source := 9, action := 9, detail := m.dst * 64 }).get g = (s.set f v).get g := fun g hg =>
    State.get_recordFault_apart _ _ g (.inr hg) (ne_of_gt (lt_of_lt_of_le (by decide) hg)) (ne_of_gt (lt_of_lt_of_le (by decide) hg))
      (ne_of_gt (lt_of_lt_of_le (by decide) hg))
  rw [State.peerNoted, hf, hv]
  refine ⟨hnotes.sxLog _ _ _ _, fun i _ => ?_, fun hclear => ?_⟩
  · rw [State.get_of_word (State.word_sxLog _ _ _ _ _ (hlow _ (.inr (by decide))).symm), hstand f (by omega), hset, ← hv,
      bitOf_withoutPeer]
  · refine (State.sxLog_shows ?_ (show 0 < 8 by decide) _ _ _).2.1
    rw [State.flag, hstand _ (by decide), State.get_of_word (State.word_set_ne s f v _ (hlow _ (.inr (by decide))))]
    exact hclear

theorem State.failPeer_eq : s.failPeer m =
    let s := (s.peerNoted m).failRemote (fun x => x.owner == m.dst && x.sent) true
    let s := if m.dst / 8 == s.mill then s.failAllLearning else s
    let s := (s.failReshard 0 m.dst 0 0).closeRounds m.dst (fun _ => true)
    { s with exch := { s.exch with outstanding := s.exch.outstanding.filter (fun x => x.dst != m.dst) } } := rfl

theorem State.failPeer_outstanding : (s.failPeer m).exch.outstanding.all (fun x => x.dst != m.dst) = true :=
  List.all_eq_true.mpr fun _ hx => (List.mem_filter.mp hx).2

theorem State.failAllLearning_none {s : State} (h : s.skein.learners = []) : s.failAllLearning = s := by
  simp [State.failAllLearning, h]

/-- R293: with no row, no reshard and no learner under way, the failure of a peer costs nothing but what it notes. -/
theorem State.failPeer_regs {s : State} (m : Sent) (hrounds : s.exch.rounds = []) (hreshard : s.exch.reshard = none)
    (hlearn : s.skein.learners = []) : (s.failPeer m).regs = (s.peerNoted m).regs := by
  have hframe := onlyRegs_peerNoted s m
  have hnone := State.failRemote_none (s := s.peerNoted m) (by rw [hframe]; exact hrounds) (fun x => x.owner == m.dst && x.sent) true
  generalize hu : (s.peerNoted m).failRemote (fun x => x.owner == m.dst && x.sent) true = u at hnone
  have hregs : u.regs = (s.peerNoted m).regs := by rw [hnone]
  have hlearners : u.skein.learners = [] := by rw [hnone, hframe]; exact hlearn
  have hends : u.exch.reshard = none := by rw [hnone, hframe]; exact hreshard
  rw [State.failPeer_eq, hu]
  simp only [State.failAllLearning_none hlearners, ite_self, State.failReshard_none hends]
  exact hregs

end

/-! ## The statement O47 -/

/-- Settles O47: each end of a message, by what becomes of the messages that are outstanding and of the window. -/
theorem messagesSentComeToAnEnd : Obligations.MessagesSentComeToAnEnd := by
  intro s id hs
  refine ⟨exec_roundDeadlineExpiry_over, exec_roundDeadlineExpiry_due hs, fun hdone hrounds => ?_, exec_ends_unknown,
    exec_peerTimeout_unlimited, fun m hm => ⟨exec_messageDelivered_request hs hm, fun hk hr => ?_,
      exec_messageDelivered_left hs hm, fun a hk ha _ => ?_, fun hk hr => ?_, fun hl => ?_⟩⟩
  · rw [exec_roundDeadlineExpiry_due hs hdone, State.launchMain_none hrounds, State.after_eq] <;> rfl
  · have hnone : (s.endSent id).exch.reshard = none := by rw [State.endSent_idle hr]; exact hr
    rw [exec_messageDelivered_ends hs hm hk, State.checkReshard_same hnone, State.endSent_idle hr, State.after_eq] <;> rfl
  · obtain ⟨t, hexec, hleft, hnoted, hskips⟩ := exec_messageUndeliverable_learning hs hm hk ha
    exact ⟨t, hexec, hleft, hnoted.notes, hnoted.counts, hnoted.logs, hskips⟩
  · obtain ⟨t, hexec, hnoted, hleft⟩ := exec_messageUndeliverable_request hs hm hk hr
    exact ⟨t, hexec, hnoted.notes, hleft⟩
  · refine ⟨_, exec_peerTimeout_fails hs hm hl, s.failPeer_outstanding m, fun hd hrounds hreshard hlearn => ?_⟩
    have hregs : (s.after (s.failPeer m)).regs = (s.peerNoted m).regs := State.failPeer_regs m hrounds hreshard hlearn
    obtain ⟨hnotes, halive, hlog⟩ := s.peerNoted_shows m hd
    refine ⟨hnotes.of_regs hregs, fun i hi => ?_, fun hv => ?_⟩
    · rw [State.get_of_regs hregs]
      exact halive i hi
    · rw [State.get_of_regs hregs]
      exact hlog hv

end Sys2Proof.Machine

/-! Messages that arrive (family 11_shed_exchange): the checks of R290, R291 and R295, what a lost message costs its receiver, and what a
message of each kind does: the statement O46. -/

namespace Sys2Proof.Machine

/-! ## The rows of the messages (R287 to R302) -/

/-- R287 to R302: what a message of each kind does with its header and its payload once it is taken. -/
def State.takesMessage (kind : Nat) (s : State) (h : Header) (b : List Byte) : State :=
  match kind with
  | 1 => ((requestSections (b.length / 64 + 1) b).foldl (fun s x => s.takeSection ⟨h.src, dAngle x.1, x.1, x.2, false⟩) s).closeRounds
      h.src (fun a => h.last || a != h.angle)
  | 2 => s.takeRuns h.src (b.length / 16 + 1) b
  | 3 => s.addWork (.payload 3 h.src h.angle b)
  | 4 => s.addWork (.payload 4 h.src h.angle b)
  | 5 => s.reshardPayload 5 h.src h.angle b
  | _ => s.reshardPayload 6 h.src h.angle b

/-- A message's row: it is received, and after one of kind 3 to 6 what waits goes on. -/
theorem exec_messageRow (s : State) (m : Msg) {kind : Nat} (h1 : 1 ≤ kind) (h6 : kind ≤ 6) : exec (messageRow m kind) s =
    .next (s.after (if kind ≤ 2 then s.receive kind m (State.takesMessage kind)
      else (s.receive kind m (State.takesMessage kind)).carryOn)) := by
  interval_cases kind <;> rfl

/-- A message's row where what waits cannot go on. -/
theorem exec_messageRow_stays {s t : State} {m : Msg} {kind : Nat} (h1 : 1 ≤ kind) (h6 : kind ≤ 6)
    (ht : s.receive kind m (State.takesMessage kind) = t) (hr : kind ≤ 2 ∨ t.atRest) :
    exec (messageRow m kind) s = .next (s.after t) := by
  rw [exec_messageRow s m h1 h6, ht]
  split
  · rfl
  · next hk => rw [State.carryOn_atRest (hr.resolve_left hk)]

/-! ## Receipt (R290, R291, R295) -/

/-- R291: does a header repeat an epoch and a SEQ of its source, or go back behind them? -/
def State.replayed (s : State) (h : Header) : Bool :=
  (mapFind s.exch.kept h.src).any (fun p => decide (h.epoch < p.1) || (h.epoch == p.1 && decide (h.seq ≤ p.2)))

/-- R290: a message as long as its header says, under its own tag. -/
def messageGood (m : Msg) (key : List Byte) : Prop :=
  m.body.length = (Header.ofBytes m.header).length ∧ gcmTag key (Header.ofBytes m.header).nonce m.header m.body = m.tag

/-- R291: the state that has taken a message of n bytes of payload: its epoch and SEQ are kept, its bytes counted. -/
def State.received (s : State) (h : Header) (n : Nat) : State :=
  let k := kib s.exch.inRest (48 + n)
  ({ s with exch := { s.exch with kept := mapIns s.exch.kept h.src (h.epoch, h.seq), inRest := k.2 } }).bump SX_BYTES.KIB_IN k.1

/-- R290: a message of a kind for this host. -/
def State.addressed (s : State) (m : Msg) (kind : Nat) : Prop :=
  (Header.ofBytes m.header).kind = kind ∧ s.flag SX_NODE.VALID = true ∧ (Header.ofBytes m.header).dst = s.self

section
variable {s : State} {m : Msg} {kind : Nat} (use : State → Header → List Byte → State)

theorem State.receive_other (h : (Header.ofBytes m.header).kind ≠ kind ∨ s.flag SX_NODE.VALID = false ∨
    (Header.ofBytes m.header).dst ≠ s.self) : s.receive kind m use = s := by
  unfold State.receive
  obtain h | h | h := h <;> simp [h]

variable (hs : s.serving = true) (ha : s.addressed m kind)
include hs ha

theorem State.receive_denied (h : s.exchangeOpen = false ∨ s.exchangeKey (Header.ofBytes m.header).src = none) :
    s.receive kind m use = s.sxLog 5 (Header.ofBytes m.header).src 0 (Header.ofBytes m.header).seq := by
  obtain ⟨hkind, hvalid, hdst⟩ := ha
  unfold State.receive
  simp only [hs, hkind, hvalid, hdst, Bool.not_true, bne_self_eq_false, Bool.or_self, Bool.false_eq_true, if_false]
  obtain h | h := h
  · rw [h]
  · rw [h]
    cases s.exchangeOpen <;> rfl

variable {key : List Byte} (ho : s.exchangeOpen = true) (hkey : s.exchangeKey (Header.ofBytes m.header).src = some key)
include ho hkey

/-- R291: a replay (6) or a failed tag (1) drops the message. -/
theorem State.receive_lost {log : Nat} (h : (s.replayed (Header.ofBytes m.header) = true ∧ log = 6) ∨
    (s.replayed (Header.ofBytes m.header) = false ∧ ¬ messageGood m key ∧ log = 1)) : s.receive kind m use =
      (s.noteLost log (Header.ofBytes m.header).src 0 (Header.ofBytes m.header).seq).lostIn (Header.ofBytes m.header) log := by
  obtain ⟨hkind, hvalid, hdst⟩ := ha
  unfold State.receive
  simp only [hs, hkind, hvalid, hdst, ho, hkey, Bool.not_true, bne_self_eq_false, Bool.or_self, Bool.false_eq_true, if_false]
  obtain ⟨hold, rfl⟩ | ⟨hnew, hbad, rfl⟩ := h
  · exact if_pos hold
  · have hdrop : (m.body.length != (Header.ofBytes m.header).length ||
        gcmTag key (Header.ofBytes m.header).nonce m.header m.body != m.tag) = true := by
      rw [Bool.or_eq_true, bne_iff_ne, bne_iff_ne]
      exact not_and_or.mp hbad
    exact (if_neg (ne_true_of_eq_false hnew)).trans (if_pos hdrop)

/-- R291: a good message is taken. -/
theorem State.receive_good (hnew : s.replayed (Header.ofBytes m.header) = false) (hgood : messageGood m key) : s.receive kind m use =
    use (s.received (Header.ofBytes m.header) m.body.length) (Header.ofBytes m.header)
      (gcmCrypt key (Header.ofBytes m.header).nonce m.body) := by
  obtain ⟨hkind, hvalid, hdst⟩ := ha
  obtain ⟨hlen, htag⟩ := hgood
  unfold State.receive
  simp only [hs, hkind, hvalid, hdst, ho, hkey, Bool.not_true, bne_self_eq_false, Bool.or_self, Bool.false_eq_true, if_false]
  refine (if_neg (ne_true_of_eq_false hnew)).trans (if_neg ?_)
  simp [hlen, htag]

end

/-! ## What the exchange's own changes leave standing -/

section
variable {s : State} (h : exchangeIdle s)
include h

theorem exchangeIdle.rounds : s.exch.rounds = [] := by
  obtain ⟨hrounds, -⟩ := h
  exact hrounds

theorem exchangeIdle.reductions : s.exch.reductions = [] := by
  obtain ⟨-, -, -, hreductions, -⟩ := h
  exact hreductions

theorem exchangeIdle.norms : s.exch.norms = [] := by
  obtain ⟨-, -, -, -, hnorms, -⟩ := h
  exact hnorms

theorem exchangeIdle.reshard : s.exch.reshard = none := by
  obtain ⟨-, -, -, -, -, hreshard⟩ := h
  exact hreshard

end

/-- Whether the fabric is open is a matter of SX_NODE, the lifecycle, the debug level and the power state. -/
theorem State.exchangeOpen_of {s t : State} (hn : t.word SX_NODE.VALID.off = s.word SX_NODE.VALID.off) (hf : t.fuses = s.fuses)
    (hsec : t.sec = s.sec) (hb : t.boot = s.boot) (hp : t.pm = s.pm) (hc : t.cust = s.cust) : t.exchangeOpen = s.exchangeOpen := by
  have hvalid : t.flag SX_NODE.VALID = s.flag SX_NODE.VALID := State.flag_of_word hn
  unfold State.exchangeOpen State.fullRow State.scrubbing
  rw [hvalid, hf, hsec, hb, hp, hc]

/-- R249: with nothing that waits, no round, no reshard at its end and an open fabric, nothing goes on. -/
theorem State.carryOn_stays {t : State} (hw : t.workIdle) (hr : t.exch.rounds = []) (hc : t.checkReshard = t)
    (ho : t.exchangeOpen = true) : t.carryOn = t := by
  rw [State.carryOn_workIdle hw, State.launchDue_same hr]
  simp [hc, ho]

section
variable (s : State) (h : Header) (n : Nat)

theorem State.word_received {off : Nat} (ho : off ≠ SX_BYTES.KIB_IN.off) : (s.received h n).word off = s.word off :=
  State.word_bump_ne _ _ _ _ ho

theorem State.received_atRest (hs : s.atRest) : (s.received h n).atRest := hs

theorem State.received_exchangeOpen : (s.received h n).exchangeOpen = s.exchangeOpen :=
  State.exchangeOpen_of (s.word_received h n (by decide)) rfl rfl rfl rfl rfl

theorem State.received_samePages : samePages s (s.received h n) :=
  ⟨State.regionRegs_set _ _ _ (.inr (by decide)), rfl, s.word_received h n (by decide), s.word_received h n (by decide)⟩

end

/-! ## What a lost message costs (R292, R303) -/

/-- R289: the rounds of a source that close have all their rows. -/
theorem State.closeRounds_closed (s : State) (src : Nat) (hit : W64 → Bool) : ∀ b ∈ (s.closeRounds src hit).weft.bolts,
    b.remote = some src → hit (dAngle b.desc) = true → b.roundOpen = false := by
  intro b hb hsrc hhit
  obtain ⟨x, -, rfl⟩ := List.mem_map.mp (show b ∈ modWhere _ _ s.weft.bolts from hb)
  by_cases hx : (x.remote == some src && hit (dAngle x.desc)) = true
  · rw [if_pos hx]
  · rw [if_neg hx] at hsrc hhit
    simp [hsrc, hhit] at hx

section
variable {s : State} {h : Header} (log : Nat)

theorem State.lostIn_request (hk : h.kind = 1) : s.lostIn h log = if h.last then s.closeRounds h.src (· == h.angle) else s := by
  simp only [State.lostIn, hk]

theorem State.lostIn_reshard (hk : 4 < h.kind) (hk6 : h.kind ≤ 6) : s.lostIn h log = s.lostReshard log h.src 0 h.seq := by
  obtain hk | hk : h.kind = 5 ∨ h.kind = 6 := by omega
  · simp only [State.lostIn, hk]
  · simp only [State.lostIn, hk]

/-- R303: a GATHER or MOVE that is lost before this host's BEGIN_RESHARD is kept as lost, the first of them. -/
theorem State.lostReshard_early (hr : s.exch.reshard = none) (src adapter seq : Nat) : s.lostReshard log src adapter seq =
    { s with exch := { s.exch with earlyLost := s.exch.earlyLost.or (some (log, src, seq)) } } := by
  simp [State.lostReshard, hr]

theorem State.lostReshard_active {r : Reshard} (hr : s.exch.reshard = some r) (src adapter seq : Nat) :
    s.lostReshard log src adapter seq = s.failReshard log src adapter seq := by
  simp [State.lostReshard, hr]

end

/-- What the receiver of a lost REQUEST, or of a lost GATHER or MOVE of no reshard under way, has noted. -/
structure LossTaken (s t : State) (h : Header) (log : Nat) : Prop where
  noted : LossNoted s t log h.seq
  kept : t.exch.kept = s.exch.kept
  closed : h.kind = 1 → h.last = true → ∀ b ∈ t.weft.bolts, b.remote = some h.src → dAngle b.desc = h.angle → b.roundOpen = false
  early : 4 < h.kind → s.exch.earlyLost = none → t.exch.earlyLost = some (log, h.src, h.seq)

/-- The seal of a command lies beside what a lost message leaves. -/
theorem LossTaken.after {s t : State} {h : Header} {log : Nat} (ht : LossTaken s t h log) : LossTaken s (s.after t) h log :=
  ⟨ht.noted.of_regs rfl, ht.kept, ht.closed, ht.early⟩

section
variable (s : State) {h : Header} {log : Nat} (hlog : log < 8)
include hlog

theorem lossTaken_request (hk : h.kind = 1) : LossTaken s ((s.noteLost log h.src 0 h.seq).lostIn h log) h log := by
  have hframe := onlyRegs_noteLost s log h.src 0 h.seq
  have hregs : ((s.noteLost log h.src 0 h.seq).lostIn h log).regs = (s.noteLost log h.src 0 h.seq).regs := by
    rw [State.lostIn_request log hk]
    split <;> rfl
  have hkept : ((s.noteLost log h.src 0 h.seq).lostIn h log).exch.kept = (s.noteLost log h.src 0 h.seq).exch.kept := by
    rw [State.lostIn_request log hk]
    split <;> rfl
  refine ⟨(lossNoted_noteLost s hlog h.src 0 h.seq).of_regs hregs, hkept.trans (by rw [hframe]), fun _ hlast b hb hsrc hangle => ?_,
    fun h4 => absurd h4 (by omega)⟩
  rw [State.lostIn_request log hk, if_pos hlast] at hb
  exact State.closeRounds_closed _ _ _ b hb hsrc (by simp [hangle])

theorem lossTaken_early (hk : 4 < h.kind) (hk6 : h.kind ≤ 6) (hs : s.atRest) :
    ((s.noteLost log h.src 0 h.seq).lostIn h log).atRest ∧ LossTaken s ((s.noteLost log h.src 0 h.seq).lostIn h log) h log := by
  have hframe := onlyRegs_noteLost s log h.src 0 h.seq
  have hnone : (s.noteLost log h.src 0 h.seq).exch.reshard = none := by
    rw [hframe]
    exact exchangeIdle.reshard hs.2
  rw [State.lostIn_reshard log hk hk6, State.lostReshard_early log hnone]
  refine ⟨?_, (lossNoted_noteLost s hlog h.src 0 h.seq).of_regs rfl, ?_, fun h1 => absurd h1 (by omega), fun _ hearly => ?_⟩
  · rw [hframe]
    exact hs
  · rw [hframe]
  · rw [hframe]
    simp [hearly]

end

/-- R303: a GATHER or MOVE that is lost during a reshard which waits for nothing but its own end fails it, and nothing goes on. -/
theorem State.lostIn_fails {s : State} {h : Header} {r : Reshard} (log : Nat) (hk : 4 < h.kind) (hk6 : h.kind ≤ 6) (hs : s.workIdle)
    (ho : s.exchangeOpen = true) (hr : s.exch.reshard = some r) (hg : r.gathers = []) (hout : s.exch.outstanding = [])
    (hrounds : s.exch.rounds = []) :
    let t := (s.noteLost log h.src 0 h.seq).lostIn h log
    t.carryOn = t ∧ t.exch.reshard = none ∧ t.get SX_STATUS.RESHARD_FAILED = 1 := by
  have hframe := onlyRegs_noteLost s log h.src 0 h.seq
  have hnode : (s.noteLost log h.src 0 h.seq).word SX_NODE.VALID.off = s.word SX_NODE.VALID.off := by
    rw [State.noteLost_eq, State.word_sxLog _ _ _ _ _ (by decide),
      State.word_recordFault_apart _ _ _ (.inr (by decide)) (by decide) (by decide) (by decide), State.word_bump_ne _ _ _ _ (by decide)]
  rw [State.lostIn_reshard log hk hk6]
  generalize s.noteLost log h.src 0 h.seq = u at hframe hnode ⊢
  have hru : u.exch.reshard = some r := by rw [hframe]; exact hr
  have hnone : u.lostAdapters r = [] := by
    have houtu : u.exch.outstanding = [] := by rw [hframe]; exact hout
    rw [State.lostAdapters, houtu, hg]
    rfl
  obtain ⟨honly, hends, -, hfailed⟩ := State.failReshard_shows log h.src 0 h.seq hru
  rw [State.lostReshard_active log hru]
  refine ⟨State.carryOn_stays ?_ ?_ (State.checkReshard_same hends) ?_, hends, hfailed⟩
  · obtain ⟨htry, hwanted, hstarved, hwork, hdropped, hcmd, hretiring, hreplacing⟩ := hs
    have htiers : (u.failReshard log h.src 0 h.seq).tiers = s.tiers := by
      rw [State.failReshard_eq _ _ _ _ hru, hnone, List.foldl_nil, State.set_tiers, onlyRegs_sxLog (u.dropReshard r), State.dropReshard,
        hframe]
      have hsame : { s.tiers with work := [] } = s.tiers := by rw [← hwork]
      simpa [hwork] using hsame
    have hskein : (u.failReshard log h.src 0 h.seq).skein = s.skein := by rw [honly, hframe]
    unfold State.workIdle
    rw [htiers, hskein]
    exact ⟨htry, hwanted, hstarved, hwork, hdropped, hcmd, hretiring, hreplacing⟩
  · rw [State.failReshard_eq _ _ _ _ hru, hnone, List.foldl_nil, State.set_exch, onlyRegs_sxLog (u.dropReshard r), State.dropReshard,
      hframe]
    exact hrounds
  · rw [← ho]
    refine State.exchangeOpen_of ?_ ?_ ?_ ?_ ?_ ?_
    · rw [State.failReshard_eq _ _ _ _ hru, hnone, List.foldl_nil, State.word_set_ne _ _ _ _ (by decide),
        State.word_sxLog _ _ _ _ _ (by decide)]
      exact hnode
    all_goals rw [honly, hframe]

end Sys2Proof.Machine

/-! Good messages (family 11_shed_exchange): the bolt of a REQUEST, a record of a RESPONSE, and the payloads of the other kinds as work
that goes on at once or waits (R287, R288, R297, R298, R301, R302). -/

namespace Sys2Proof.Machine

/-! ## REQUEST (R287) -/

/-- R287: the remote bolt that a section starts. -/
def State.remoteBolt (s : State) (x : HeldSection) : Bolt :=
  { id := 2 ^ 32 * s.exch.nextMsg + dBoltId x.desc, desc := x.desc, parts := remoteParts (x.rows.map remoteRow).length,
    rows := x.rows.map remoteRow, remote := some x.src, roundOpen := !x.last, order := s.weft.orderClock, aclk := s.cust.aclk,
    opened := s.accepted (dAngle x.desc) }

section
variable {s : State} {x : HeldSection}

theorem State.startRemote_eq (h : s.expired (dAngle x.desc) = false) : s.startRemote x =
    { s with weft := { s.weft with bolts := s.weft.bolts ++ [s.remoteBolt x], orderClock := s.weft.orderClock + 1 },
             exch := { s.exch with nextMsg := s.exch.nextMsg + 1 } } := if_neg (ne_true_of_eq_false h)

theorem State.remoteBolts_none (h : ∀ b ∈ s.weft.bolts, b.remote = none) : s.remoteBolts = [] :=
  List.filter_eq_nil_iff.mpr fun b hb => by simp [h b hb]

theorem State.takeSection_starts (hb : ∀ b ∈ s.weft.bolts, b.remote = none) (hh : s.exch.held = []) :
    s.takeSection x = s.startRemote x := by
  simp [State.takeSection, State.remoteBolts_none hb, hh]

/-- R289: with one remote bolt in flight, the rounds of its source that close are its own. -/
theorem State.closeRounds_one {l : List Bolt} {b : Bolt} {src : Nat} (hit : W64 → Bool) (hl : ∀ x ∈ l, x.remote = none)
    (hb : b.remote = some src) (ho : b.roundOpen = true) (hs : s.weft.bolts = l ++ [b]) :
    (s.closeRounds src hit).weft.bolts = l ++ [{ b with roundOpen := !hit (dAngle b.desc) }] := by
  have hlocal : modWhere (fun (x : Bolt) => x.remote == some src && hit (dAngle x.desc)) (fun x => { x with roundOpen := false }) l =
      l := by
    refine (List.map_congr_left fun x hx => ?_).trans (List.map_id l)
    simp [hl x hx]
  have hone : (if (b.remote == some src && hit (dAngle b.desc)) = true then { b with roundOpen := false } else b) =
      { b with roundOpen := !hit (dAngle b.desc) } := by
    cases hhit : hit (dAngle b.desc)
    · simp [ho.symm]
    · simp [hb]
  show modWhere _ _ s.weft.bolts = _
  rw [hs, modWhere, List.map_append]
  exact congrArg₂ (· ++ ·) hlocal (congrArg (fun y => [y]) hone)

end

/-- R287: a REQUEST of one section forms one remote bolt of its rows, open until its round is. -/
theorem State.takesRequest_one {s : State} {h : Header} {b : List Byte} {d : List W64} {rows : List (Nat × List Byte)}
    (hsec : requestSections (b.length / 64 + 1) b = [(d, rows)]) (hh : s.exch.held = []) (hb : ∀ x ∈ s.weft.bolts, x.remote = none)
    (he : s.expired (dAngle d) = false) :
    let t := State.takesMessage 1 s h b
    ∃ y, t.weft.bolts = s.weft.bolts ++ [y] ∧ y.desc = d ∧ y.remote = some h.src ∧ y.rows = rows.map remoteRow ∧
      y.roundOpen = (!h.last && dAngle d == h.angle) ∧ t.exch.kept = s.exch.kept ∧ t.regs = s.regs := by
  have htake : State.takesMessage 1 s h b =
      (s.startRemote ⟨h.src, dAngle d, d, rows, false⟩).closeRounds h.src (fun a => h.last || a != h.angle) := by
    simp only [State.takesMessage, hsec, List.foldl_cons, List.foldl_nil]
    rw [State.takeSection_starts hb hh]
  rw [htake, State.startRemote_eq (x := ⟨h.src, dAngle d, d, rows, false⟩) he]
  generalize hy : s.remoteBolt ⟨h.src, dAngle d, d, rows, false⟩ = y
  have hshows : y.desc = d ∧ y.remote = some h.src ∧ y.rows = rows.map remoteRow ∧ y.roundOpen = true := by
    rw [← hy]
    exact ⟨rfl, rfl, rfl, rfl⟩
  obtain ⟨hdesc, hsrc, hrows, hopen⟩ := hshows
  refine ⟨_, State.closeRounds_one (b := y) _ hb hsrc hopen rfl, hdesc, hsrc, hrows, ?_, rfl, rfl⟩
  rw [hdesc]
  simp [bne]

/-! ## RESPONSE (R288) -/

/-- R288: the remote row that a record of a RESPONSE answers. -/
def recordHit (src bolt : Nat) (bytes : List Byte) (x : RemoteRow) : Bool :=
  x.bolt == bolt && x.row == bitsOf (leNat (bytes.take 8)) 63 44 && x.proj == bitsOf (leNat (bytes.take 8)) 43 40 &&
    x.owner == src && x.sent

/-- The rows of rounds of which some rows, and then the rounds without rows, go. -/
theorem rows_filtered (l : List Round) (p : RemoteRow → Bool) :
    ((l.map (fun r => { r with rows := r.rows.filter p })).filter (fun r => !r.rows.isEmpty)).flatMap (·.rows) =
      (l.flatMap (·.rows)).filter p := by
  induction l with
  | nil => rfl
  | cons r l ih =>
    rw [List.map_cons, List.filter_cons, List.flatMap_cons, List.filter_append, ← ih]
    by_cases hr : r.rows.filter p = []
    · simp [hr]
    · rw [if_pos (by simpa using hr), List.flatMap_cons]

theorem State.dropRemote_rows (s : State) (p : RemoteRow → Bool) : (s.dropRemote p).remoteRows = s.remoteRows.filter (fun x => !p x) :=
  rows_filtered s.exch.rounds (fun x => !p x)

theorem State.linkFor_of_links {s t : State} (h : t.weft.links = s.weft.links) (k : Nat) : t.linkFor k = s.linkFor k := by
  have hlink : ∀ i, t.link i = s.link i := fun i => by rw [State.link, h]; rfl
  simp only [State.linkFor, hlink]

/-- R288: a record of this host's own bolt leaves on a link that is up. -/
theorem State.sendRecord_local {s : State} {e : Egress} {b : Bolt} (hb : s.bolt? e.bolt = some b) (hr : b.remote = none) (k : Nat) :
    s.sendRecord k e = s.modLink (s.linkFor k) (fun l => { l with egress := l.egress ++ [e] }) := by
  simp [State.sendRecord, hb, hr]

/-- R288: a result that counts as though computed here, by the metadata of its record. -/
def Result.answered (w : Nat) (r : Result) : Result :=
  { r with status := bitsOf w 34 32, version := bitsOf w 31 0, replayed := bitOf w 37, committed := true }

/-- R288: what a record that comes back does to its result and its bolt. -/
def State.recordEnds (s : State) (bolt : Nat) (w : Nat) : State :=
  let s := s.modResult bolt (bitsOf w 63 44) (bitsOf w 43 40) (Result.answered w)
  if bitsOf w 34 32 == 4 then s.modBolt bolt (fun b => { b with tierError := true }) else s

section
variable {s : State} {bolt : Nat} {b : Bolt}

theorem State.recordEnds_shows (hb : s.bolt? bolt = some b) (w : Nat) :
    (∃ c, (s.recordEnds bolt w).bolt? bolt = some c ∧ c.rows = b.rows ∧ c.remote = b.remote) ∧
      (s.recordEnds bolt w).weft.links = s.weft.links ∧ (s.recordEnds bolt w).exch = s.exch := by
  have hmod : (s.modResult bolt (bitsOf w 63 44) (bitsOf w 43 40) (Result.answered w)).bolt? bolt = some _ :=
    State.bolt?_modBolt (fun _ => rfl) hb
  unfold State.recordEnds
  dsimp only
  split
  · exact ⟨⟨_, State.bolt?_modBolt (f := fun b => { b with tierError := true }) (fun _ => rfl) hmod, rfl, rfl⟩, rfl, rfl⟩
  · exact ⟨⟨_, hmod, rfl, rfl⟩, rfl, rfl⟩

theorem State.takeRecord_eq {src : Nat} {bytes : List Byte} (h : s.remoteRows.any (recordHit src bolt bytes) = true) :
    s.takeRecord src bolt bytes =
      let t := (s.dropRemote (recordHit src bolt bytes)).recordEnds bolt (leNat (bytes.take 8))
      t.sendRecord (((t.row? bolt (bitsOf (leNat (bytes.take 8)) 63 44)).map (·.link)).getD 0)
        ⟨bolt, bitsOf (leNat (bytes.take 8)) 63 44, bitsOf (leNat (bytes.take 8)) 43 40, bytes⟩ := by
  have hany : (!s.remoteRows.any (recordHit src bolt bytes)) = false := by rw [h]; rfl
  exact if_neg (ne_true_of_eq_false hany)

/-- R288: a record that comes back takes its row out of the rounds, and leaves on the link that carried the row. -/
theorem State.takeRecord_shows (hb : s.bolt? bolt = some b) (hr : b.remote = none) {src : Nat} {bytes : List Byte}
    (h : s.remoteRows.any (recordHit src bolt bytes) = true) :
    (s.takeRecord src bolt bytes).remoteRows = s.remoteRows.filter (fun x => !recordHit src bolt bytes x) ∧
    (s.takeRecord src bolt bytes).weft.links =
      (s.modLink (s.linkFor (((s.row? bolt (bitsOf (leNat (bytes.take 8)) 63 44)).map (·.link)).getD 0)) (fun l =>
        { l with egress := l.egress ++ [⟨bolt, bitsOf (leNat (bytes.take 8)) 63 44, bitsOf (leNat (bytes.take 8)) 43 40,
          bytes⟩] })).weft.links := by
  have hdropped : (s.dropRemote (recordHit src bolt bytes)).bolt? bolt = some b := hb
  rw [State.takeRecord_eq h]
  generalize leNat (bytes.take 8) = w
  obtain ⟨⟨c, hc, hrows, hremote⟩, hlinks, hexch⟩ := State.recordEnds_shows hdropped w
  generalize (s.dropRemote (recordHit src bolt bytes)).recordEnds bolt w = t at hc hlinks hexch ⊢
  have hrow : t.row? bolt (bitsOf w 63 44) = s.row? bolt (bitsOf w 63 44) := by
    simp only [State.row?, hc, hb, Option.bind_some, Bolt.row?, hrows]
  dsimp only
  rw [State.sendRecord_local hc (hremote.trans hr), hrow, State.linkFor_of_links hlinks]
  refine ⟨?_, ?_⟩
  · show t.remoteRows = _
    rw [State.remoteRows, hexch]
    exact s.dropRemote_rows _
  · show modAt t.weft.links _ _ = _
    rw [hlinks]
    rfl

end

/-- R288: a RESPONSE of one run of one record. -/
theorem State.takesResponse_one {s : State} {h : Header} {b : List Byte} {y : Bolt}
    (hy : s.bolt? (bitsOf (leNat (b.take 8)) 31 0) = some y) (hcount : bitsOf (leNat (b.take 8)) 48 36 = 1)
    (hlen : b.length = 24 + (if bitOf (leNat ((b.drop 16).take 8)) 39 then (if dOutFmt y.desc == 1 then 4 else 2) *
      dDout y.desc (bitsOf (leNat ((b.drop 16).take 8)) 43 40) else 0)) :
    State.takesMessage 2 s h b = s.takeRecord h.src y.id (b.drop 16) := by
  have hall : (b.drop 16).length = 8 + (if bitOf (leNat ((b.drop 16).take 8)) 39 then (if dOutFmt y.desc == 1 then 4 else 2) *
      dDout y.desc (bitsOf (leNat ((b.drop 16).take 8)) 43 40) else 0) := by
    rw [List.length_drop, hlen]
    omega
  have hrun : s.takeEgressRun h.src y 1 (b.drop 16) = (s.takeRecord h.src y.id (b.drop 16), []) := by
    simp only [State.takeEgressRun, ← hall, lt_irrefl, if_false, List.take_length, List.drop_length]
  have hend : ∀ (t : State) (n : Nat), t.takeRuns h.src n [] = t := fun t n => by cases n <;> rfl
  show s.takeRuns h.src (b.length / 16 + 1) b = _
  rw [State.takeRuns, if_neg (by omega)]
  simp only [hy, hcount, hrun, hend]

/-! ## Payloads as work (R249) -/

/-- A state that differs from another in the pages' records, the engine writes and the exchange at most. -/
def exchUsed (s t : State) : Prop :=
  t = { s with tiers := { s.tiers with pages := t.tiers.pages, writes := t.tiers.writes }, exch := t.exch }

section
variable {s : State} {w : Work}

theorem exchUsed.tried_workIdle {t : State} (h : exchUsed s.opened t) (hs : s.workIdle) : t.tried.workIdle := by
  obtain ⟨-, -, -, hwork, hdropped, hcmd, hretiring, hreplacing⟩ := hs
  rw [h]
  exact ⟨rfl, rfl, rfl, hwork, hdropped, hcmd, hretiring, hreplacing⟩

theorem exchUsed.tried_exchangeOpen {t : State} (h : exchUsed s.opened t) : t.tried.exchangeOpen = s.exchangeOpen := by
  rw [h]
  rfl

/-- R249: where nothing else waits, a piece of work that is ready is tried, and what is left of going on is the exchange's. -/
theorem State.carryOn_worked (hs : s.workIdle) (hp : s.powered = true) (ho : s.exchangeOpen = true)
    (hready : (s.addWork w).workReady w = true) (hu : exchUsed s.opened (s.opened.doWork w))
    (hrounds : (s.opened.doWork w).exch.rounds = []) (hcheck : (s.opened.doWork w).tried.checkReshard = (s.opened.doWork w).tried) :
    (s.addWork w).carryOn = (s.opened.doWork w).tried := by
  obtain ⟨htry, -, -, hnone, hdrop, -⟩ := id hs
  have hpend : (s.addWork w).tiers.work = [w] := by simp [State.addWork, hnone]
  have hpow : (s.addWork w).powered = true := hp
  have hemptied : ({ (s.addWork w).opened with tiers := { (s.addWork w).opened.tiers with
      work := (s.addWork w).opened.tiers.work.erase w } } : State) = s.opened := by
    simp [State.addWork, State.opened, hnone]
  have htried : (s.addWork w).tryWork w = ((s.opened.doWork w).tried, true) := by
    have hop := State.attempt_taken (s := s.addWork w) (op := fun s => ({ s with tiers := { s.tiers with
      work := s.tiers.work.erase w } }).doWork w) htry
    simp only [hemptied] at hop
    exact hop (by rw [hu]; rfl) (by rw [hu]; rfl)
  have hidle := hu.tried_workIdle hs
  have hpt : (s.opened.doWork w).tried.powered = true := by
    rw [hu]
    exact hp
  have hitems : State.runItems (s.addWork w).tiers.work [] (s.addWork w).takeDropped = (s.opened.doWork w).tried := by
    rw [State.takeDropped_same (s := s.addWork w) hdrop, hpend]
    simp [State.runItems, hpend, hready, htried]
  have htail := State.carryOn_stays hidle hrounds hcheck (hu.tried_exchangeOpen.trans ho)
  obtain ⟨-, -, -, hworkt, hdropt, -⟩ := hidle
  simp only [State.carryOn, hpt, hworkt, State.takeDropped_same hdropt, State.runItems] at htail
  simp only [State.carryOn, hpow, hitems]
  exact htail

/-- R249: in a state at rest, a piece of work that is not ready waits, and nothing goes on. -/
theorem State.carryOn_waits (hs : s.atRest) (hready : (s.addWork w).workReady w = false) : (s.addWork w).carryOn = s.addWork w := by
  obtain ⟨⟨htry, hwanted, hstarved, hnone, hdrop, hcmd, hretiring, hreplacing⟩, hidle⟩ := hs
  have hpend : (s.addWork w).tiers.work = [w] := by simp [State.addWork, hnone]
  have hitems : State.runItems [w] [] (s.addWork w) = s.addWork w := by simp [State.runItems, hpend, hready]
  have hdrop' : (s.addWork w).takeDropped = s.addWork w := State.takeDropped_same hdrop
  have hretire : (s.addWork w).retireSlots = s.addWork w := by
    rw [State.retireSlots, State.attempt_same (s := s.addWork w) htry hwanted hstarved
      (fun u hu => State.retireNow_same (by rw [hu]; exact hretiring))]
  have hreplace : (s.addWork w).runReplacement = s.addWork w := by
    rw [State.runReplacement, State.attempt_same (s := s.addWork w) htry hwanted hstarved
      (fun u hu => State.replaceNow_same (by rw [hu]; exact hreplacing))]
  have hresume : (s.addWork w).resumePageCmd = s.addWork w := by
    rw [State.resumePageCmd, show (s.addWork w).tiers.cmd = none from hcmd]
  have hlaunch : (s.addWork w).launchDue = s.addWork w := State.launchDue_same (exchangeIdle.rounds hidle)
  have hcheck : (s.addWork w).checkReshard = s.addWork w := State.checkReshard_same (exchangeIdle.reshard hidle)
  have hbusy : (s.addWork w).exchangeBusy = false := State.exchangeBusy_idle hidle
  simp [State.carryOn, hdrop', hpend, hitems, hretire, hreplace, hresume, hlaunch, hcheck, hbusy]

end

/-! ## MOVE (R302) -/

section
variable {s : State} {r : Reshard} {src : Nat} {b : List Byte}

/-- R302: the tile that a move entry of its source expects next. -/
def tileDue (src tile : Nat) (x : Nat × Nat × Nat) : Bool := x.1 == src && x.2.1 == tile

/-- R302: a reshard that expects a tile no more. -/
def Reshard.tookTile (r : Reshard) (src tile : Nat) : Reshard :=
  { r with moves := (r.moves.map (fun x => if tileDue src tile x then (x.1, x.2.1 + 1, x.2.2 - 1) else x)).filter (·.2.2 != 0) }

theorem State.moveTile_due (hr : s.exch.reshard = some r) {tile : Nat} (hd : r.moves.any (tileDue src tile) = true) :
    s.moveTile src tile b = (s.queueWrite 9 none (tile * tileBytes) b).modReshard (fun r => r.tookTile src tile) := by
  unfold State.moveTile
  dsimp only
  rw [if_neg (by rw [hr]; simpa [tileDue] using hd)]
  rfl

/-- R302: a MOVE payload of one tile. -/
theorem State.takesMove_one (hn : bitsOf (leNat ((b.drop 8).take 8)) 31 0 = 1) (hlen : b.length = 16 + tileBytes) :
    s.usePayload 6 src b = s.moveTile src (bitsOf (leNat (b.take 8)) 51 0 / tileBytes) (b.drop 16) := by
  have hend : ∀ (t : State) (n : Nat) (l : List Byte), l.length < 16 → t.moveSection src n l = t := fun t n l hl => by
    cases n
    · rfl
    · rw [State.moveSection, if_pos hl]
  have hall : (b.drop 16).take tileBytes = b.drop 16 := List.take_of_length_le (by rw [List.length_drop]; omega)
  show s.moveSection src (b.length / 16 + 1) b = _
  rw [State.moveSection, if_neg (by omega)]
  dsimp only
  rw [hn, hend _ _ _ (by rw [List.length_drop]; omega)]
  simp [hall]

/-- R302: a tile that is due is queued for writing, and expected no more. -/
theorem State.moveTile_shows (hr : s.exch.reshard = some r) {tile : Nat} (hd : r.moves.any (tileDue src tile) = true) (hb : b ≠ []) :
    exchUsed s (s.moveTile src tile b) ∧ (s.moveTile src tile b).exch = { s.exch with reshard := some (r.tookTile src tile) } ∧
      (s.moveTile src tile b).tiers.writes = s.tiers.writes ++ [⟨tile * tileBytes, b, 9, none⟩] := by
  obtain ⟨-, hwrites⟩ := s.queueWrite_shows 9 (tile * tileBytes) hb
  obtain ⟨hframe, -⟩ := onlyPinned_queueWrite s 9 (tile * tileBytes) none b
  rw [State.moveTile_due hr hd]
  refine ⟨?_, ?_, hwrites⟩
  · unfold exchUsed State.modReshard
    rw [hframe]
  · unfold State.modReshard
    rw [hframe, hr]
    rfl

/-- R302: a reshard with a write of its own on the way is not complete. -/
theorem State.checkReshard_writing {w : EngWrite} (hw : w ∈ s.tiers.writes) (h9 : w.source = 9) : s.checkReshard = s := by
  have hany : s.tiers.writes.any (·.source == 9) = true := List.any_eq_true.mpr ⟨w, hw, by simp [h9]⟩
  unfold State.checkReshard
  split
  · rfl
  · simp [hany]

end

end Sys2Proof.Machine

/-! GRADIENT and NORM messages (family 11_shed_exchange): a partial that joins its reduction, and the statement O46. -/

namespace Sys2Proof.Machine

/-! ## What the exchange of gradients reads (R213, R217, R296) -/

/-- A state that shows the tables, the bytes in Beam and the registers of another, but for the count of bytes. -/
structure ReadsAs (s v : State) : Prop where
  skein : v.skein = s.skein
  beam : v.tiers.beam = s.tiers.beam
  word : ∀ off, off ≠ SX_BYTES.KIB_IN.off → v.word off = s.word off

section
variable {s v : State} (h : ReadsAs s v)
include h

theorem ReadsAs.get {f : Fld} (hf : f.off ≠ SX_BYTES.KIB_IN.off) : v.get f = s.get f := State.get_of_word (h.word _ hf)

theorem ReadsAs.getF {f : Fld} (hf : f.off ≠ SX_BYTES.KIB_IN.off) : v.getF f = s.getF f := by
  unfold State.getF State.inForce
  rw [h.skein, h.word _ hf]

theorem ReadsAs.dirReady : v.dirReady = s.dirReady := State.flag_of_word (h.word _ (by decide))

theorem ReadsAs.dirAddr (a : Nat) : v.dirAddr a = s.dirAddr a := by
  unfold State.dirAddr
  rw [h.getF (by decide)]

theorem ReadsAs.rawDir (a : Nat) : v.rawDir a = s.rawDir a := by
  unfold State.rawDir State.peekWords
  rw [h.dirReady, h.dirAddr, h.beam]

theorem ReadsAs.dir? (a : Nat) : v.dir? a = s.dir? a := by
  unfold State.dir?
  rw [h.rawDir]

theorem ReadsAs.phase : v.phase = s.phase := h.get (by decide)

theorem ReadsAs.hosts : v.get SX_NODE.HOSTS = s.get SX_NODE.HOSTS := h.get (by decide)

theorem ReadsAs.exchanging (a : Nat) : v.exchanging a = s.exchanging a := by
  unfold State.exchanging
  rw [h.skein]

theorem ReadsAs.ownsChunk (d : Dir) (k : Nat) : v.ownsChunk d k = s.ownsChunk d k := by
  have hvalid : v.flag SX_NODE.VALID = s.flag SX_NODE.VALID := State.flag_of_word (h.word _ (by decide))
  unfold State.ownsChunk State.replicatedHere
  rw [hvalid, h.get (f := SX_NODE.MILL) (by decide), h.hosts, h.get (f := SX_NODE.HOST) (by decide)]

/-- The shapes of the projections that a directory entry can name. -/
theorem ReadsAs.shape {p : Nat} (hp : p < 16) : v.shape p = s.shape p := by
  have hoff : 0x1c00180 + p * 0x8 ≠ 0x2400038 := by omega
  unfold State.shape
  rw [h.getF (f := ST_SHAPE.VALID p) hoff, h.getF (f := ST_SHAPE.D_IN p) hoff, h.getF (f := ST_SHAPE.D_OUT p) hoff]

theorem ReadsAs.runMats (d : Dir) : runMats v.shape d = runMats s.shape d := by
  unfold Sys2Proof.Machine.runMats
  refine List.flatMap_congr fun p hp => ?_
  rw [h.shape (mem_setBits.mp hp).1]

theorem ReadsAs.sectionOfChunk (d : Dir) (opt k : Nat) : v.sectionOfChunk d opt k = s.sectionOfChunk d opt k := by
  unfold State.sectionOfChunk layerSections
  rw [h.runMats]

end

/-! ## The chunks of an adapter (R204, R296) -/

/-- R204, R296: the chunks of a section do not depend on where the optimizer area lies. -/
theorem layerSections_chunks (shape : Nat → Option (Nat × Nat)) (d : Dir) (opt opt' l : Nat) :
    (layerSections shape d opt l).map (fun q => (q.chunk0, q.chunks)) =
      (layerSections shape d opt' l).map (fun q => (q.chunk0, q.chunks)) := by
  refine List.ext_getElem (by simp [layerSections]) fun i _ _ => ?_
  simp only [layerSections, List.getElem_map, List.getElem_mapIdx]
  rfl

section
variable {s : State} {d : Dir} {sec : Section} {c : Nat}

theorem State.sectionOfChunk_spans {opt : Nat} (h : s.sectionOfChunk d opt c = some sec) : ∃ l < d.layers,
    sec ∈ layerSections s.shape d opt l ∧ sec.chunk0 ≤ c ∧ c < sec.chunk0 + sec.chunks := by
  unfold State.sectionOfChunk at h
  dsimp only at h
  split at h
  · cases h
  · next hlow =>
    have hspan := List.find?_some h
    simp only [Bool.and_eq_true, decide_eq_true_eq] at hspan
    simp only [Bool.or_eq_true, beq_iff_eq, decide_eq_true_eq, not_or, not_le] at hlow
    exact ⟨_, hlow.2, List.mem_of_find?_eq_some h, hspan⟩

/-- R296: a chunk of a section that this host owns is one of its chunks. -/
theorem State.mem_ownedChunks (h : s.sectionOfChunk d 0 c = some sec) (ho : s.ownsChunk d c = true) (x : Learner) :
    c ∈ s.ownedChunks x d := by
  obtain ⟨l, hl, hmem, hfirst, hlast⟩ := State.sectionOfChunk_spans h
  have hsame : (sec.chunk0, sec.chunks) ∈ (layerSections s.shape d x.opt l).map (fun q => (q.chunk0, q.chunks)) := by
    rw [layerSections_chunks s.shape d x.opt 0 l]
    exact List.mem_map_of_mem hmem
  obtain ⟨q, hq, hspan⟩ := List.mem_map.mp hsame
  obtain ⟨h0, hn⟩ := Prod.mk.inj hspan
  refine List.mem_filter.mpr ⟨List.mem_flatMap.mpr ⟨q, List.mem_flatMap.mpr ⟨l, List.mem_range.mpr hl, hq⟩,
    List.mem_map.mpr ⟨c - q.chunk0, List.mem_range.mpr (by omega), by omega⟩⟩, ho⟩

end

/-! ## One partial (R297, R298) -/

theorem State.exchanging_adapter {s : State} {a : Nat} {x : Learner} (h : s.exchanging a = some x) : x.adapter = a := by
  have hx := List.find?_some h
  simp only [Bool.and_eq_true, beq_iff_eq] at hx
  obtain ⟨⟨⟨hadapter, -⟩, -⟩, -⟩ := hx
  exact hadapter

/-- R297: a state whose only reduction is of one partial. -/
def State.withPart (s : State) (a c host : Nat) (vals : List F32) : State :=
  { s with exch := { s.exch with reductions := [⟨a, c, [(host, vals)], false⟩] } }

/-- R298: a state whose only norm exchange is of one host's partials. -/
def State.withNorm (s : State) (a host : Nat) (vals : List F32) : State :=
  { s with exch := { s.exch with norms := [⟨a, [(host, vals)], false⟩] } }

section
variable {s : State} {a : Nat} {x : Learner} {d : Dir}

theorem State.addPart_first (h : s.exch.reductions = []) (c host : Nat) (vals : List F32) :
    s.addPart a c host vals = s.withPart a c host vals := by
  simp [State.addPart, State.withPart, h, mapIns]

theorem State.addNorm_first (h : s.exch.norms = []) (host : Nat) (vals : List F32) : s.addNorm a host vals = s.withNorm a host vals := by
  simp [State.addNorm, State.withNorm, h, mapIns]

section
variable (hx : x.adapter = a) (hhosts : s.get SX_NODE.HOSTS ≠ 1)
include hx hhosts

/-- R297: one partial does not reduce a chunk, where more than one host takes part. -/
theorem State.reduceChunk_waits (c host : Nat) (vals : List F32) :
    (s.withPart a c host vals).reduceChunk x d c = s.withPart a c host vals := by
  have hone : (1 != (s.withPart a c host vals).get SX_NODE.HOSTS) = true := bne_iff_ne.mpr (Ne.symm hhosts)
  unfold State.reduceChunk
  simp only [State.withPart, hx, List.find?_cons, beq_self_eq_true, Bool.not_false, Bool.and_self]
  exact if_pos hone

/-- R298: one host's partials do not form the norm slots, where more than one host takes part. -/
theorem State.finishNorm_waits (host : Nat) (vals : List F32) : (s.withNorm a host vals).finishNorm x d = s.withNorm a host vals := by
  have hone : (1 != (s.withNorm a host vals).get SX_NODE.HOSTS) = true := bne_iff_ne.mpr (Ne.symm hhosts)
  unfold State.finishNorm
  simp only [State.withNorm, hx, List.find?_cons, beq_self_eq_true, Bool.not_false, Bool.and_self]
  exact if_pos hone

end

/-- R298: while an owned chunk is not reduced, no norm partials go. -/
theorem State.sendNorms_waits {c : Nat} {sec : Section} (hsec : s.sectionOfChunk d 0 c = some sec) (ho : s.ownsChunk d c = true)
    (host : Nat) (vals : List F32) : (s.withPart a c host vals).sendNorms x d = s.withPart a c host vals := by
  have hmine : c ∈ (s.withPart a c host vals).ownedChunks x d := State.mem_ownedChunks (s := s.withPart a c host vals) hsec ho x
  have hopen : ((s.withPart a c host vals).ownedChunks x d).all (fun k =>
      (s.withPart a c host vals).exch.reductions.any (fun r => r.adapter == x.adapter && r.chunk == k && r.done)) = false :=
    List.all_eq_false.mpr ⟨c, hmine, by simp [State.withPart]⟩
  unfold State.sendNorms
  dsimp only
  rw [if_pos (by rw [hopen]; rfl)]

end

/-! ## The payloads (R297, R298) -/

/-- R297, R298: the values of a partial. -/
def partValues (b : List Byte) : List F32 := (groupsOf 4 b).map (fun q => BitVec.ofNat 32 (leNat q))

section
variable {s : State} {a src : Nat} {x : Learner} {d : Dir} {b : List Byte}

theorem State.joinExchange_other (h : s.phase ≠ 2) (a : Nat) : s.joinExchange a = s := by
  have hnone : ∀ tenant, s.contribute a tenant = (s, false) := fun tenant => by simp [State.contribute, h]
  unfold State.joinExchange
  split
  · rfl
  · rw [hnone, ite_self]

variable (hd : s.dir? a = some d) (hx : s.exchanging a = some x) (hhosts : s.get SX_NODE.HOSTS ≠ 1)
include hd hx hhosts

/-- R297: the one chunk of a section, which this host owns, joins its reduction. -/
theorem State.takeChunks_one {c : Nat} {sec : Section} (hsec : s.sectionOfChunk d 0 c = some sec) (ho : s.ownsChunk d c = true)
    (hlen : b.length = 4 * min 2048 (sec.elems - 2048 * (c - sec.chunk0))) (hnone : s.exch.reductions = []) :
    s.takeChunks src a 1 c b = (s.withPart a c (src % 8) (partValues b), []) := by
  have hadapter := State.exchanging_adapter hx
  unfold State.takeChunks
  simp only [hd, hsec, hx, ho, if_true, ← hlen, List.take_length, List.drop_length, State.addPart_first hnone]
  rw [State.reduceChunk_waits hadapter hhosts, State.sendNorms_waits hsec ho]
  rfl

end

/-! ## One message of one section -/

/-- R297: an adapter that learns here, and whose directory entry stands in Beam, where more than one host takes part. -/
def State.learnsFrom (s : State) (angle : W64) (a : Nat) (x : Learner) (d : Dir) : Prop :=
  s.atRest ∧ (s.revValid = true → angleRev angle ≤ s.revolution) ∧ s.dirReady = true ∧ s.inBeam (s.dirAddr a) 64 ∧ s.dir? a = some d ∧
    s.phase ≠ 2 ∧ s.exchanging a = some x ∧ s.get SX_NODE.HOSTS ≠ 1

theorem readsAs_received (s : State) (h : Header) (n : Nat) : ReadsAs s (s.received h n) :=
  ⟨rfl, rfl, fun _ ho => s.word_received h n ho⟩

theorem onlyUsed.readsAs {s t : State} (h : onlyUsed s.opened t) : ReadsAs s t :=
  ⟨by rw [h.1]; rfl, by rw [h.1]; rfl, fun off _ => by rw [h.1]; rfl⟩

theorem State.learnsFrom.received {s : State} {angle : W64} {a : Nat} {x : Learner} {d : Dir} (hl : s.learnsFrom angle a x d) (h : Header)
    (n : Nat) : (s.received h n).learnsFrom angle a x d := by
  obtain ⟨hrest, hrev, hready, hbeam, hd, hphase, hx, hhosts⟩ := hl
  have hreads := readsAs_received s h n
  have hangle : (s.received h n).revolution = s.revolution := congrArg angleRev (s.word_received h n (by decide))
  have hvalid : (s.received h n).revValid = s.revValid := State.flag_of_word (s.word_received h n (by decide))
  refine ⟨s.received_atRest h n hrest, by rw [hangle, hvalid]; exact hrev, hreads.dirReady.trans hready, ?_, (hreads.dir? a).trans hd,
    by rw [hreads.phase]; exact hphase, (hreads.exchanging a).trans hx, by rw [hreads.hosts]; exact hhosts⟩
  rw [hreads.dirAddr]
  exact (s.received_samePages h n).inBeam rfl hbeam

section
variable {s : State} {angle : W64} {x : Learner} {d : Dir} {b : List Byte} {src : Nat}
  (hl : s.learnsFrom angle (bitsOf (leNat (b.take 8)) 63 48) x d)
include hl

/-- R213, R297: the directory entry comes within reach, and the adapter takes part already. -/
theorem State.learnsFrom.reached : ∃ v, (s.opened.reachDir (bitsOf (leNat (b.take 8)) 63 48)).joinExchange
      (bitsOf (leNat (b.take 8)) 63 48) = v ∧ onlyUsed s.opened v := by
  obtain ⟨-, -, -, hbeam, -, hphase, -⟩ := hl
  have hused : onlyUsed s.opened (s.opened.reachDir (bitsOf (leNat (b.take 8)) 63 48)) :=
    onlyUsed_reachDir ((samePages_opened s).inBeam rfl hbeam)
  exact ⟨_, State.joinExchange_other (by rw [hused.readsAs.phase]; exact hphase) _, hused⟩

/-- R297: a GRADIENT payload of one chunk that this host owns. -/
theorem State.learnsFrom.takeGradient {sec : Section} (hn : bitsOf (leNat ((b.drop 8).take 8)) 31 0 = 1)
    (hsec : s.sectionOfChunk d 0 (bitsOf (leNat (b.take 8)) 31 0) = some sec)
    (ho : s.ownsChunk d (bitsOf (leNat (b.take 8)) 31 0) = true)
    (hlen : b.length = 16 + 4 * min 2048 (sec.elems - 2048 * (bitsOf (leNat (b.take 8)) 31 0 - sec.chunk0))) :
    ∃ v, onlyUsed s.opened v ∧ s.opened.usePayload 3 src b = v.withPart (bitsOf (leNat (b.take 8)) 63 48)
      (bitsOf (leNat (b.take 8)) 31 0) (src % 8) (partValues (b.drop 16)) := by
  obtain ⟨v, hv, hused⟩ := State.learnsFrom.reached hl
  obtain ⟨⟨-, hidle⟩, -, -, -, hd, -, hx, hhosts⟩ := hl
  have hreads := hused.readsAs
  have hnone : v.exch.reductions = [] := by
    rw [hused.1]
    exact exchangeIdle.reductions hidle
  have htaken := State.takeChunks_one (s := v) (src := src) (b := b.drop 16) ((hreads.dir? _).trans hd) ((hreads.exchanging _).trans hx)
    (by rw [hreads.hosts]; exact hhosts) ((hreads.sectionOfChunk d 0 _).trans hsec) ((hreads.ownsChunk d _).trans ho)
    (by rw [List.length_drop, hlen]; omega) hnone
  have hend : ∀ (t : State) (n : Nat), t.takeGradient src n [] = t := fun t n => by cases n <;> rfl
  refine ⟨v, hused, ?_⟩
  show s.opened.takeGradient src (b.length / 16 + 1) b = _
  rw [State.takeGradient, if_neg (by omega)]
  dsimp only
  rw [hv, hn, htaken, hend]

/-- R298: a NORM payload of one section. -/
theorem State.learnsFrom.takeNorm (hlen : b.length = 16 + 4 * bitsOf (leNat ((b.drop 8).take 8)) 31 0) :
    ∃ v, onlyUsed s.opened v ∧ s.opened.usePayload 4 src b = v.withNorm (bitsOf (leNat (b.take 8)) 63 48) (src % 8)
      (partValues (b.drop 16)) := by
  obtain ⟨v, hv, hused⟩ := State.learnsFrom.reached hl
  obtain ⟨⟨-, hidle⟩, -, -, -, hd, -, hx, hhosts⟩ := hl
  have hreads := hused.readsAs
  have hnone : v.exch.norms = [] := by
    rw [hused.1]
    exact exchangeIdle.norms hidle
  obtain ⟨hraw, -⟩ := Option.filter_eq_some_iff.mp ((hreads.dir? _).trans hd)
  have hall : (b.drop 16).take (4 * bitsOf (leNat ((b.drop 8).take 8)) 31 0) = b.drop 16 :=
    List.take_of_length_le (by rw [List.length_drop]; omega)
  have hend : ∀ (t : State) (n : Nat), t.takeNorm src n [] = t := fun t n => by cases n <;> rfl
  refine ⟨v, hused, ?_⟩
  show s.opened.takeNorm src (b.length / 16 + 1) b = _
  rw [State.takeNorm, if_neg (by omega)]
  dsimp only
  rw [hv, hall, ← hlen, List.drop_length, hend, (hreads.exchanging _).trans hx, hraw]
  dsimp only
  rw [State.addNorm_first hnone, State.finishNorm_waits (State.exchanging_adapter hx) (by rw [hreads.hosts]; exact hhosts)]
  rfl

end

end Sys2Proof.Machine

/-! The statement O46 (family 11_shed_exchange): the messages' rows put together from their receipt and from what each kind does. -/

namespace Sys2Proof.Machine

/-! ## Payloads that go on at once -/

section
variable {s : State} {angle : W64} {x : Learner} {d : Dir} {b : List Byte} (src : Nat)
  (hl : s.learnsFrom angle (bitsOf (leNat (b.take 8)) 63 48) x d) (hp : s.powered = true) (ho : s.exchangeOpen = true)
include hl hp ho

/-- R297, R298: a payload of the current revolution that leaves the pages and the exchange changed goes on at once. -/
theorem State.learnsFrom.carried {kind : Nat} (hk : kind = 3 ∨ kind = 4) {t : State} (ht : s.opened.doWork (.payload kind src angle b) = t)
    (hu : exchUsed s.opened t) (hrounds : t.exch.rounds = s.exch.rounds) (hreshard : t.exch.reshard = s.exch.reshard) :
    (s.addWork (.payload kind src angle b)).carryOn = t.tried := by
  obtain ⟨⟨hwork, hidle⟩, hrev, -⟩ := hl
  have hready : (s.addWork (.payload kind src angle b)).workReady (.payload kind src angle b) = true := by
    have hcur : (!s.revValid || decide (angleRev angle ≤ s.revolution)) = true := by
      cases hv : s.revValid
      · rfl
      · simp [hrev hv]
    obtain rfl | rfl := hk <;> exact hcur
  subst ht
  exact State.carryOn_worked hwork hp ho hready hu (hrounds.trans (exchangeIdle.rounds hidle))
    (State.checkReshard_same (hreshard.trans (exchangeIdle.reshard hidle)))

/-- R297: the partial of a GRADIENT joins its reduction as its sender's. -/
theorem State.learnsFrom.gradient {sec : Section} (hn : bitsOf (leNat ((b.drop 8).take 8)) 31 0 = 1)
    (hsec : s.sectionOfChunk d 0 (bitsOf (leNat (b.take 8)) 31 0) = some sec)
    (hown : s.ownsChunk d (bitsOf (leNat (b.take 8)) 31 0) = true)
    (hlen : b.length = 16 + 4 * min 2048 (sec.elems - 2048 * (bitsOf (leNat (b.take 8)) 31 0 - sec.chunk0))) :
    (s.addWork (.payload 3 src angle b)).carryOn.exch.reductions =
      [⟨bitsOf (leNat (b.take 8)) 63 48, bitsOf (leNat (b.take 8)) 31 0, [(src % 8, partValues (b.drop 16))], false⟩] := by
  obtain ⟨v, hused, htake⟩ := hl.takeGradient (src := src) hn hsec hown hlen
  rw [hl.carried src hp ho (.inl rfl) htake (by rw [hused.1]; rfl) (by rw [hused.1]; rfl) (by rw [hused.1]; rfl)]
  rfl

/-- R298: the partials of a NORM join the norm exchange as their sender's. -/
theorem State.learnsFrom.norm (hlen : b.length = 16 + 4 * bitsOf (leNat ((b.drop 8).take 8)) 31 0) :
    (s.addWork (.payload 4 src angle b)).carryOn.exch.norms =
      [⟨bitsOf (leNat (b.take 8)) 63 48, [(src % 8, partValues (b.drop 16))], false⟩] := by
  obtain ⟨v, hused, htake⟩ := hl.takeNorm (src := src) hlen
  rw [hl.carried src hp ho (.inr rfl) htake (by rw [hused.1]; rfl) (by rw [hused.1]; rfl) (by rw [hused.1]; rfl)]
  rfl

end

/-- R302: during a reshard whose plan has been read, the tile of a MOVE that is due is queued for writing. -/
theorem State.move_carried {s : State} {r : Reshard} {src : Nat} {angle : W64} {b : List Byte} (hs : s.workIdle) (hp : s.powered = true)
    (ho : s.exchangeOpen = true) (hrounds : s.exch.rounds = []) (hr : s.exch.reshard = some r) (hstarted : r.started = true)
    (hn : bitsOf (leNat ((b.drop 8).take 8)) 31 0 = 1) (hlen : b.length = 16 + tileBytes)
    (hd : r.moves.any (tileDue src (bitsOf (leNat (b.take 8)) 51 0 / tileBytes)) = true) :
    let t := (s.addWork (.payload 6 src angle b)).carryOn
    t.tiers.writes = s.tiers.writes ++ [⟨bitsOf (leNat (b.take 8)) 51 0 / tileBytes * tileBytes, b.drop 16, 9, none⟩] ∧
      t.exch.reshard = some (r.tookTile src (bitsOf (leNat (b.take 8)) 51 0 / tileBytes)) := by
  have hne : b.drop 16 ≠ [] := fun he => by
    have hzero := congrArg List.length he
    rw [List.length_drop, hlen] at hzero
    exact absurd hzero (by decide)
  have hwork : s.opened.doWork (.payload 6 src angle b) =
      s.opened.moveTile src (bitsOf (leNat (b.take 8)) 51 0 / tileBytes) (b.drop 16) := State.takesMove_one hn hlen
  obtain ⟨hused, hexch, hwrites⟩ := State.moveTile_shows (s := s.opened) (src := src) hr hd hne
  have hready : (s.addWork (.payload 6 src angle b)).workReady (.payload 6 src angle b) = true := by
    show s.exch.reshard.any (·.started) = true
    rw [hr]
    exact hstarted
  rw [← hwork] at hused hexch hwrites
  have hcheck : (s.opened.doWork (.payload 6 src angle b)).tried.checkReshard = (s.opened.doWork (.payload 6 src angle b)).tried :=
    State.checkReshard_writing (w := ⟨_, b.drop 16, 9, none⟩)
      (hwrites.symm ▸ List.mem_append_right _ (List.mem_singleton.mpr rfl)) rfl
  rw [State.carryOn_worked hs hp ho hready hused (by rw [hexch]; exact hrounds) hcheck]
  exact ⟨hwrites, congrArg Exchange.reshard hexch⟩

/-! ## Messages by their kind -/

theorem State.received_expired (s : State) (h : Header) (n : Nat) (a : W64) : (s.received h n).expired a = s.expired a := by
  have hangle : (s.received h n).revolution = s.revolution := congrArg angleRev (s.word_received h n (by decide))
  have hvalid : (s.received h n).revValid = s.revValid := State.flag_of_word (s.word_received h n (by decide))
  have hphase : (s.received h n).phase = s.phase := State.get_of_word (s.word_received h n (by decide))
  unfold State.expired
  rw [hangle, hvalid, hphase]

section
variable {s : State} {kind : Nat} {h : Header} {b : List Byte}

theorem State.takesMessage_learning (hk : kind = 3 ∨ kind = 4) :
    State.takesMessage kind s h b = s.addWork (.payload kind h.src h.angle b) := by
  obtain rfl | rfl := hk <;> rfl

theorem State.takesMessage_reshard (hk : 4 < kind) (hk6 : kind ≤ 6) :
    State.takesMessage kind s h b = s.reshardPayload kind h.src h.angle b := by
  obtain rfl | rfl : kind = 5 ∨ kind = 6 := by omega
  · rfl
  · rfl

/-- R300: at rest, so with no reshard under way, a payload of one waits, and nothing goes on. -/
theorem State.carryOn_early (hs : s.atRest) (src : Nat) (angle : W64) : (s.reshardPayload kind src angle b).carryOn =
    { s with exch := { s.exch with early := s.exch.early ++ [(kind, src, b)] } } := by
  have hnone := exchangeIdle.reshard hs.2
  have hearly : s.reshardPayload kind src angle b = { s with exch := { s.exch with early := s.exch.early ++ [(kind, src, b)] } } := by
    simp [State.reshardPayload, hnone]
  rw [hearly]
  exact State.carryOn_atRest hs

theorem State.reshardPayload_active {r : Reshard} {src : Nat} {angle : W64} (hr : s.exch.reshard = some r) :
    s.reshardPayload kind src angle b = s.addWork (.payload kind src angle b) := by
  simp [State.reshardPayload, hr]

end

/-- R297: a GRADIENT or NORM of a later revolution is not ready. -/
theorem State.payload_later {s : State} {kind src : Nat} {angle : W64} {b : List Byte} (hk : kind = 3 ∨ kind = 4)
    (hv : s.revValid = true) (hrev : s.revolution < angleRev angle) :
    (s.addWork (.payload kind src angle b)).workReady (.payload kind src angle b) = false := by
  have hlater : (!s.revValid || decide (angleRev angle ≤ s.revolution)) = false := by simp [hv, hrev]
  obtain rfl | rfl := hk <;> exact hlater

/-- R291, R292: what a dropped message leaves, where the statement says it. -/
theorem exec_messageRow_lost {s : State} {m : Msg} {kind log : Nat} (h1 : 1 ≤ kind) (h6 : kind ≤ 6)
    (hkind : (Header.ofBytes m.header).kind = kind) (hlog : log < 8)
    (hdrop : s.receive kind m (State.takesMessage kind) =
      (s.noteLost log (Header.ofBytes m.header).src 0 (Header.ofBytes m.header).seq).lostIn (Header.ofBytes m.header) log)
    (hk : kind = 1 ∨ (4 < kind ∧ s.atRest)) :
    ∃ t, exec (messageRow m kind) s = .next t ∧ LossTaken s t (Header.ofBytes m.header) log := by
  obtain rfl | ⟨h4, hs⟩ := hk
  · exact ⟨_, exec_messageRow_stays h1 h6 hdrop (.inl (by decide)), (lossTaken_request s hlog hkind).after⟩
  · obtain ⟨hrest, htaken⟩ := lossTaken_early s (h := Header.ofBytes m.header) hlog (by omega) (by omega) hs
    exact ⟨_, exec_messageRow_stays h1 h6 hdrop (.inr hrest), htaken.after⟩

/-- R291, R295: a message that finds the exchange closed, or no key of its sender, is logged as DENIED. -/
theorem exec_messageRow_denied {s : State} {m : Msg} {kind : Nat} (h1 : 1 ≤ kind) (h6 : kind ≤ 6) (hs : s.serving = true)
    (ha : s.addressed m kind) (hclosed : s.exchangeOpen = false ∨ s.exchangeKey (Header.ofBytes m.header).src = none)
    (hr : kind ≤ 2 ∨ s.atRest) : ∃ t, exec (messageRow m kind) s = .next t ∧ rewrites s t [SX_FAULT_LOG.VALID.off] ∧
      (s.flag SX_FAULT_LOG.VALID = false → t.flag SX_FAULT_LOG.VALID = true ∧ t.get SX_FAULT_LOG.KIND = 5 ∧
        t.get SX_FAULT_LOG.SEQ = (Header.ofBytes m.header).seq % 2 ^ 32) ∧
      (s.flag SX_FAULT_LOG.VALID = true → t.word SX_FAULT_LOG.VALID.off = s.word SX_FAULT_LOG.VALID.off) := by
  have hwrites := rewrites_sxLog_word s 5 (Header.ofBytes m.header).src 0 (Header.ofBytes m.header).seq
  refine ⟨_, ?_, hwrites, fun hclear => State.sxLog_shows hclear (by decide) _ _ _, fun hfull => by rw [State.sxLog_taken hfull]⟩
  rw [exec_messageRow_stays h1 h6 (State.receive_denied _ hs ha hclosed) (hr.imp_right fun hrest => State.atRest_of_rewrites hrest hwrites),
    onlyRegs.after hwrites.1]

/-- Settles O46: a message is received by the checks of R290, R291 and R295, and a good one does what its kind does. -/
theorem messagesAreReceived : Obligations.MessagesAreReceived := by
  intro s m kind h1 h6 hs h row
  have hp := State.powered_of_serving hs
  refine ⟨fun hother hr => ?_, fun hkind hvalid hdst hidle => ?_⟩
  · have hstays : s.receive kind m (State.takesMessage kind) = s := State.receive_other _ hother
    exact exec_messageRow_stays h1 h6 hstays hr
  have ha : s.addressed m kind := ⟨hkind, hvalid, hdst⟩
  refine ⟨fun hclosed hr => exec_messageRow_denied h1 h6 hs ha hclosed hr, fun key ho hkey => ?_⟩
  intro replay good
  refine ⟨fun log hlost => ?_, fun hnew hgood => ?_⟩
  · intro lost
    have hdrop : s.receive kind m (State.takesMessage kind) = lost := State.receive_lost _ hs ha ho hkey hlost
    have hlog : log < 8 := by
      obtain ⟨-, rfl⟩ | ⟨-, -, rfl⟩ := hlost <;> decide
    refine ⟨by rw [exec_messageRow s m h1 h6, hdrop], fun hk => ?_, fun r h4 hr hg hout hrounds => ?_⟩
    · obtain ⟨t, hexec, ⟨hnotes, hcounts, hlogs⟩, hkept, hclosed, hearly⟩ := exec_messageRow_lost h1 h6 hkind hlog hdrop hk
      exact ⟨t, hexec, hnotes, hkept, hcounts, hlogs, fun hone => hclosed (hkind.trans hone), fun h4 => hearly (hkind ▸ h4)⟩
    · obtain ⟨hcarry, hends, hfailed⟩ := State.lostIn_fails log (h := h) (hkind ▸ h4) (hkind ▸ h6) (hidle.resolve_left (by omega)) ho hr hg
        hout hrounds
      refine ⟨_, exec_messageRow s m h1 h6, ?_⟩
      rw [if_neg (by omega), hdrop, hcarry]
      exact ⟨hends, hfailed⟩
  have htaken := State.receive_good (State.takesMessage kind) hs ha ho hkey hnew hgood
  intro b k u word a learning
  have hexec := exec_messageRow s m h1 h6
  rw [htaken] at hexec
  change exec row s = .next (s.after (if kind ≤ 2 then State.takesMessage kind u h b else (State.takesMessage kind u h b).carryOn)) at hexec
  have hport : kind ≤ 2 → exec row s = .next (s.after (State.takesMessage kind u h b)) := fun hk => by rw [hexec, if_pos hk]
  have hwork : 2 < kind → exec row s = .next (s.after (State.takesMessage kind u h b).carryOn) := fun hk => by rw [hexec, if_neg (by omega)]
  have hlearns : ∀ x d, learning x d → u.learnsFrom h.angle (bitsOf (leNat (b.take 8)) 63 48) x d := fun x d hl =>
    State.learnsFrom.received hl h m.body.length
  have hopen : u.exchangeOpen = true := (s.received_exchangeOpen h m.body.length).trans ho
  have hreads : ReadsAs s u := readsAs_received s h m.body.length
  have hpu : u.powered = true := hp
  have hidleu : 2 < kind → u.workIdle := fun hk => hidle.resolve_left (by omega)
  have hlater : u.revValid = s.revValid ∧ u.revolution = s.revolution :=
    ⟨State.flag_of_word (hreads.word _ (by decide)), congrArg angleRev (hreads.word _ (by decide))⟩
  clear_value b
  refine ⟨fun d rows hk hsec hheld hbolts hexpired => ?_, fun y x hk hy hlocal hcount => ?_, fun hk => ⟨?_, fun hrest hv hrev => ?_⟩,
    fun x d sec hk hl hn => ?_, fun x d hk hl hlen => ?_, fun hk hrest => ?_, fun r hk hr => ?_,
    fun r hk hrounds hr hstarted hn hlen => ?_⟩
  · subst hk
    obtain ⟨y, htakes⟩ := State.takesRequest_one (s := u) (h := h) hsec hheld hbolts
      ((s.received_expired h m.body.length (dAngle d)).trans hexpired)
    exact ⟨_, y, hport (by decide), htakes⟩
  · subst hk
    intro w hit hlen hx hhit
    have hid := State.bolt?_id hy
    have hrow : u.bolt? y.id = some y := by rw [hid]; exact hy
    have htakes := State.takesResponse_one (s := u) (h := h) (b := b) hy hcount hlen
    obtain ⟨hrows, hlinks⟩ := State.takeRecord_shows hrow hlocal (src := h.src) (bytes := b.drop 16)
      (List.any_eq_true.mpr ⟨x, hx, hhit⟩)
    rw [← htakes] at hrows hlinks
    exact ⟨_, hport (by decide), hrows, hlinks⟩
  · rw [hwork (by omega), State.takesMessage_learning hk]
  · have hwait := State.payload_later (s := u) (src := h.src) (b := b) hk (hlater.1.trans hv) (hlater.2.symm ▸ hrev)
    rw [hwork (by omega), State.takesMessage_learning hk, State.carryOn_waits (s := u) hrest hwait]
  · intro c hsec hown hlen
    subst hk
    exact ⟨_, hwork (by decide), (hlearns x d hl).gradient h.src hpu hopen hn ((hreads.sectionOfChunk d 0 _).trans hsec)
      ((hreads.ownsChunk d _).trans hown) hlen⟩
  · subst hk
    exact ⟨_, hwork (by decide), (hlearns x d hl).norm h.src hpu hopen hlen⟩
  · rw [hwork (by omega), State.takesMessage_reshard hk h6, State.carryOn_early (s := u) hrest]
    rfl
  · have hsome : u.exch.reshard = some r := hr
    rw [hwork (by omega), State.takesMessage_reshard hk h6, State.reshardPayload_active hsome]
  · intro tile due hdue
    subst hk
    have hsome : u.exch.reshard = some r := hr
    have hcarry := State.move_carried (s := u) (src := h.src) (angle := h.angle) (hidleu (by decide)) hpu hopen hrounds hsome hstarted hn
      hlen hdue
    rw [← State.reshardPayload_active (kind := 6) hsome] at hcarry
    exact ⟨_, hwork (by decide), hcarry⟩

end Sys2Proof.Machine
